-- ==== Sys2Proof/Word.lean ====
section
/-! DEFINITION. The word types of the HZ-70 (R6, R97) and their plainest arithmetic. -/

namespace Sys2Proof

/-- The smallest addressable unit (R294: the location of ordering is the byte). -/
abbrev Byte := BitVec 8

/-- A 32-bit register or instruction word (R56, R127). -/
abbrev Word := BitVec 32

/-- A 64-bit register, pair, address or handle (R56, R57, R72). -/
abbrev DWord := BitVec 64

/-- A 6-bit operand field (R129). -/
abbrev Reg := BitVec 6

/-- A 4-bit guard field: bit 3 negates, bits [2:0] select the predicate (R130). -/
abbrev Guard := BitVec 4

end Sys2Proof
end

