-- ==== Sys2Proof/Config.lean ====
section
/-! DEFINITION. What one HZ-70 part fixes and the spec does not state: fused values, the cryptographic
functions of R392 and R394, and the free values. None of the opaque constants has a body, so no proof
can learn a value of one (log 2 and log 8). -/

namespace Sys2Proof.Config

/-- Extra cycles that pass with the n-th step beyond the issue cycles of R40: latencies, contention and
holds, which the model does not compute (log 2). Free. -/
opaque stallCycles : Nat → Nat

/-- The n-th byte the spec calls for and does not state (log 12). Free. -/
opaque freeByte : Nat → BitVec 8

/-- The n-th 64-bit value the spec calls for and does not state (log 12). Free. -/
opaque freeWord : Nat → BitVec 64

/-- What another module's die counter engine answers to the n-th operation sent to it (R96): a fault code or
zero, the value and the logical time. Free: the other module is outside the model. -/
opaque peerAnswer : Nat → BitVec 8 × Nat × Nat

/-- The device serial held in fuses (R386 call 0, R418). Free. -/
opaque deviceSerial : BitVec 64

/-- SHA-512 over a byte string (R392, R394). Uninterpreted. -/
opaque sha512 : List Byte → BitVec 512

/-- Whether an ECDSA P-521 signature over a digest verifies under a public key: key bytes, digest,
signature bytes (R392). Uninterpreted. -/
opaque ecdsaVerifies : List Byte → BitVec 512 → List Byte → Bool

/-- The 132-byte ECDSA P-521 signature over a digest by the leaf key, which the fused secret and measurement 2, the first
argument, give (R394). Uninterpreted. -/
opaque leafSign : BitVec 512 → BitVec 512 → List Byte

/-- The four fused key hashes, and whether the revocation fuse of each is set (R392). Free. -/
opaque keyHash : Nat → BitVec 512
opaque keyRevoked : Nat → Bool

/-- The fused minimum security version at reset release (R392). Free. -/
opaque fusedMinimum : Nat

/-- Measurement 1: SHA-512 of the ROM (R394). Free. -/
opaque romMeasurement : BitVec 512

/-- Whether a module number other than the own one answers a PING, and the round trip (R386 call 3). Free. -/
opaque pingRoundTrip : Nat → Option Nat

/-- Whether a host physical line is served without error by the host (R345). Free: nothing in the spec
binds the host; the answer arrives with PCIE_COMPLETION. -/
opaque hostServes : Nat → Bool

/-- The body of a certificate or protocol answer of the boot pair that the spec does not lay out
(R394): indexed by a fresh number. Free. -/
opaque spdmBody : Nat → List Byte

/-- Whether a boot stage other than the second fails when it is the n-th to end: the spec does not say what makes one fail
(R391, log 27). Free. -/
opaque stageFails : Nat → Bool

/-- The set index of a line in the L1 (0), an L2 slice (1) and the LLC (2), and of a page in a die TLB (3), which the spec does
not give (R283, R378, log 7): taken modulo the cache's sets. Free. -/
opaque cacheSet : Nat → Nat → Nat

/-- The place among the lines of a full instruction cache of the one that its n-th fill displaces: the spec gives that
cache no ways and no replacement (R19, log 7). Free. -/
opaque codeVictim : Nat → Nat

/-- Whether the host itself has changed a line of its memory since the device last wrote it back, and the line's bytes
then: what the n-th fetch from the host brings (R345, log 51). Free. -/
opaque hostLine : Nat → Option (List (BitVec 8))

/-- The governor's mean module power and a sensor's reading are inputs; THERM's n-th reading is free (R437). -/
opaque sensor : Nat → BitVec 16

/-- The layout version of this device's scan images (R418). Free. -/
opaque scanVersion : BitVec 32

/-- The C-die and page number of the counter overflow page that a 2 MiB page of LPDDR-5X would be, if any: the
spec does not say where the overflow areas lie (R74). Free. -/
opaque overflowPage : Nat → Option (Nat × Nat)

end Sys2Proof.Config
end

