-- ==== Sys2Proof/Machine/Cells.lean ====
section
/-! DEFINITION. Sparse tables: a list of (key, value) pairs with strictly rising keys. Memories, register
files and unit tables are held in this one form; a table with a default value lists no entry equal to it. -/

namespace Sys2Proof.Machine

/-- The value listed at a key. -/
def Cells.find {α : Type} : List (Nat × α) → Nat → Option α
  | [], _ => none
  | e :: t, k => if e.1 = k then some e.2 else Cells.find t k

/-- The value at a key, an unlisted key reading as `d`. -/
def Cells.get {α : Type} (d : α) (m : List (Nat × α)) (k : Nat) : α := (Cells.find m k).getD d

/-- The table without a key. -/
def Cells.erase {α : Type} : List (Nat × α) → Nat → List (Nat × α)
  | [], _ => []
  | e :: t, k => if e.1 = k then Cells.erase t k else e :: Cells.erase t k

/-- An entry placed before the first larger key. -/
def Cells.insert {α : Type} (k : Nat) (v : α) : List (Nat × α) → List (Nat × α)
  | [] => [(k, v)]
  | e :: t => if e.1 < k then e :: Cells.insert k v t else (k, v) :: e :: t

/-- The table with a key set to a value. -/
def Cells.put {α : Type} (m : List (Nat × α)) (k : Nat) (v : α) : List (Nat × α) :=
  Cells.insert k v (Cells.erase m k)

/-- The table with a key set, an entry equal to the default left out. -/
def Cells.set {α : Type} [DecidableEq α] (d : α) (m : List (Nat × α)) (k : Nat) (v : α) : List (Nat × α) :=
  if v = d then Cells.erase m k else Cells.put m k v

/-- Every key is above the bound and the keys rise. -/
def Cells.above {α : Type} (b : Nat) : List (Nat × α) → Bool
  | [] => true
  | e :: t => decide (b < e.1) && Cells.above e.1 t

/-- The keys rise strictly. -/
def Cells.rising {α : Type} : List (Nat × α) → Bool
  | [] => true
  | e :: t => Cells.above e.1 t

/-- The canonical form: keys rise strictly and no entry holds the default. -/
def Cells.canonical {α : Type} [DecidableEq α] (d : α) (m : List (Nat × α)) : Bool :=
  Cells.rising m && m.all fun e => decide (e.2 ≠ d)

end Sys2Proof.Machine
end

