-- ==== Sys2Proof/Syntax.lean ====
section
/-! DEFINITION. The instructions and the other indivisible steps of the HZ-70: one constructor per row of
spec/opcode_table.json. Rows 0 to 230 are words of the Smiong instruction set; the other rows are the
steps of the engines, homes, Ringmaster, Coxswain, host links and boot pair that
95_what_each_step_holds.md lists, whose arguments name the unit or item the step is about. -/

namespace Sys2Proof

/-- What an access is made for, as far as permissions go (R376). -/
inductive WalkKind where
  | read     -- R
  | write    -- W
  | atomic   -- R and W (R222)
  | fetch    -- X
deriving DecidableEq, Repr

/-- The requests of SPDM 1.2 that the boot pair answers (R394), and the IDE key request made inside a
secured session (R395). -/
inductive SpdmRequest where
  | getCapabilities
  | getCertificate (slot : Nat)
  | challenge (nonce : BitVec 256)
  | getMeasurement (index : Nat)
  | keyExchange
  | endSession
  | keyIdeStream (stream : Nat)
deriving DecidableEq, Repr

/-- Which structure a soft error strikes (R428 table 9), with the struck item. -/
inductive ErrorSite where
  | register (slot lane : Nat)
  | deckWord (core off : Nat)
  | operandWord (core off : Nat)
  | accumulatorWord (core index : Nat)
  | l1Line (core line : Nat)
  | cacheData (line : Nat)
  | cacheTags (slice line : Nat)
  | counterSram (die index : Nat)
  | dramLine (line : Nat)
  | streamBit (slot reg lane bit : Nat)
  | packet (core id : Nat)
deriving DecidableEq, Repr

/-- What a counter operation that crosses Rolper asks, beside an add (R96). -/
inductive PeerOp where
  | addr (inc : BitVec 32)
  | free
  | read
  | test (threshold : BitVec 64)
  | wait (threshold : BitVec 64)
deriving DecidableEq, Repr

/-- A host, peer or management access as a Turnstile receives it (R341, R344, R350, R407). The Bool of a
BAR access is its T bit (R398). -/
inductive Access where
  | bar0Read (off : Nat) (tee : Bool)
  | bar0Write (off : Nat) (value : BitVec 64) (tee : Bool)
  | bar2Read (off : Nat) (tee : Bool)
  | bar2Write (off : Nat) (value : BitVec 64) (tee : Bool)
  | hdmRead (addr size : Nat)
  | hdmWrite (addr : Nat) (data : List (BitVec 8))
  | snoopCur (line : Nat)
  | snoopData (line : Nat)
  | snoopInv (line : Nat)
  | completion (id : Nat) (ok : Bool) (data : List (BitVec 8))
  | peerAdd (handle : BitVec 64) (inc : BitVec 32)
  | peerCollective (group seq rank : Nat) (kind : Nat) (block : List (BitVec 8)) (data : List (BitVec 8))
  | portState (port state peer : Nat)
  | sync (t1 : Int)
  | dreq (t4 : Int)
  | raiseSvn (svn : Nat)
  /-- Another module's CALLOC is never sent here; its other counter operations are (R96): the sender's number for it. -/
  | peerOp (op : PeerOp) (handle : BitVec 64) (id : Nat)
  /-- A configuration write of Device Control 2 (R355). -/
  | deviceControl2 (value : BitVec 16)
  /-- A configuration write of another register that R397 names, by its number (log 59). -/
  | configWrite (reg : Nat) (value : BitVec 64)
deriving DecidableEq, Repr

/-- One constructor per row of spec/opcode_table.json. In a word, `g` is the guard, and the other
fields carry the table's names. -/
inductive Instr where
  /-- ADD_I32 (R168). Adds two 32-bit registers with wrap; a pending SAT clamps to the signed range. -/
  | addI32 (g : BitVec 4) (d : BitVec 6) (a : BitVec 6) (b : BitVec 6)
  /-- SUB_I32 (R168). Subtracts two 32-bit registers with wrap; a pending SAT clamps to the signed range. -/
  | subI32 (g : BitVec 4) (d : BitVec 6) (a : BitVec 6) (b : BitVec 6)
  /-- ADD_N32 (R168). Adds two 32-bit registers with wrap; a pending SAT clamps to the unsigned range. -/
  | addN32 (g : BitVec 4) (d : BitVec 6) (a : BitVec 6) (b : BitVec 6)
  /-- SUB_N32 (R168). Subtracts two 32-bit registers with wrap; a pending SAT clamps to the unsigned range. -/
  | subN32 (g : BitVec 4) (d : BitVec 6) (a : BitVec 6) (b : BitVec 6)
  /-- AND_32 (R168). Bitwise AND of two 32-bit registers. -/
  | and32 (g : BitVec 4) (d : BitVec 6) (a : BitVec 6) (b : BitVec 6)
  /-- OR_32 (R168). Bitwise OR of two 32-bit registers. -/
  | or32 (g : BitVec 4) (d : BitVec 6) (a : BitVec 6) (b : BitVec 6)
  /-- XOR_32 (R168). Bitwise XOR of two 32-bit registers. -/
  | xor32 (g : BitVec 4) (d : BitVec 6) (a : BitVec 6) (b : BitVec 6)
  /-- ANDN (R168). Computes a AND NOT b on 32 bits. -/
  | andn (g : BitVec 4) (d : BitVec 6) (a : BitVec 6) (b : BitVec 6)
  /-- SHL_32 (R168). Shifts a 32-bit register left by b[4:0]. -/
  | shl32 (g : BitVec 4) (d : BitVec 6) (a : BitVec 6) (b : BitVec 6)
  /-- SHR_32 (R168). Shifts a 32-bit register right logically by b[4:0]. -/
  | shr32 (g : BitVec 4) (d : BitVec 6) (a : BitVec 6) (b : BitVec 6)
  /-- SHA_32 (R168). Shifts a 32-bit register right arithmetically by b[4:0]. -/
  | sha32 (g : BitVec 4) (d : BitVec 6) (a : BitVec 6) (b : BitVec 6)
  /-- ROT_32 (R168). Rotates a 32-bit register right by b[4:0]. -/
  | rot32 (g : BitVec 4) (d : BitVec 6) (a : BitVec 6) (b : BitVec 6)
  /-- MIN_32 (R168). Signed minimum of two 32-bit registers. -/
  | min32 (g : BitVec 4) (d : BitVec 6) (a : BitVec 6) (b : BitVec 6)
  /-- MAX_32 (R168). Signed maximum of two 32-bit registers. -/
  | max32 (g : BitVec 4) (d : BitVec 6) (a : BitVec 6) (b : BitVec 6)
  /-- MINU_32 (R168). Unsigned minimum of two 32-bit registers. -/
  | minu32 (g : BitVec 4) (d : BitVec 6) (a : BitVec 6) (b : BitVec 6)
  /-- MAXU_32 (R168). Unsigned maximum of two 32-bit registers. -/
  | maxu32 (g : BitVec 4) (d : BitVec 6) (a : BitVec 6) (b : BitVec 6)
  /-- ADD_IMM (R154). Adds a sign-extended or IMMX-widened immediate to a 32-bit register. -/
  | addImm (g : BitVec 4) (d : BitVec 6) (a : BitVec 6) (i : BitVec 10)
  /-- ADD_I64 (R168). Adds two 64-bit pairs with wrap, or signed saturation under SAT. -/
  | addI64 (g : BitVec 4) (d : BitVec 6) (a : BitVec 6) (b : BitVec 6)
  /-- SUB_I64 (R168). Subtracts two 64-bit pairs with wrap, or signed saturation under SAT. -/
  | subI64 (g : BitVec 4) (d : BitVec 6) (a : BitVec 6) (b : BitVec 6)
  /-- ADD_N64 (R168). Adds two 64-bit pairs with wrap, or unsigned saturation under SAT. -/
  | addN64 (g : BitVec 4) (d : BitVec 6) (a : BitVec 6) (b : BitVec 6)
  /-- SUB_N64 (R168). Subtracts two 64-bit pairs with wrap, or unsigned saturation under SAT. -/
  | subN64 (g : BitVec 4) (d : BitVec 6) (a : BitVec 6) (b : BitVec 6)
  /-- AND_64 (R168). Bitwise AND of two 64-bit pairs. -/
  | and64 (g : BitVec 4) (d : BitVec 6) (a : BitVec 6) (b : BitVec 6)
  /-- OR_64 (R168). Bitwise OR of two 64-bit pairs. -/
  | or64 (g : BitVec 4) (d : BitVec 6) (a : BitVec 6) (b : BitVec 6)
  /-- XOR_64 (R168). Bitwise XOR of two 64-bit pairs. -/
  | xor64 (g : BitVec 4) (d : BitVec 6) (a : BitVec 6) (b : BitVec 6)
  /-- SHL_64 (R168). Shifts a 64-bit pair left by b[5:0]. -/
  | shl64 (g : BitVec 4) (d : BitVec 6) (a : BitVec 6) (b : BitVec 6)
  /-- SHR_64 (R168). Shifts a 64-bit pair right logically by b[5:0]. -/
  | shr64 (g : BitVec 4) (d : BitVec 6) (a : BitVec 6) (b : BitVec 6)
  /-- SHA_64 (R168). Shifts a 64-bit pair right arithmetically by b[5:0]. -/
  | sha64 (g : BitVec 4) (d : BitVec 6) (a : BitVec 6) (b : BitVec 6)
  /-- MIN_64 (R168). Signed minimum of two 64-bit pairs. -/
  | min64 (g : BitVec 4) (d : BitVec 6) (a : BitVec 6) (b : BitVec 6)
  /-- MAX_64 (R168). Signed maximum of two 64-bit pairs. -/
  | max64 (g : BitVec 4) (d : BitVec 6) (a : BitVec 6) (b : BitVec 6)
  /-- MINU_64 (R168). Unsigned minimum of two 64-bit pairs. -/
  | minu64 (g : BitVec 4) (d : BitVec 6) (a : BitVec 6) (b : BitVec 6)
  /-- MAXU_64 (R168). Unsigned maximum of two 64-bit pairs. -/
  | maxu64 (g : BitVec 4) (d : BitVec 6) (a : BitVec 6) (b : BitVec 6)
  /-- MULLO_64 (R168). Low 64 bits of the product of two 64-bit pairs. -/
  | mullo64 (g : BitVec 4) (d : BitVec 6) (a : BitVec 6) (b : BitVec 6)
  /-- ROT_64 (R168). Rotates a 64-bit pair right by b[5:0]. -/
  | rot64 (g : BitVec 4) (d : BitVec 6) (a : BitVec 6) (b : BitVec 6)
  /-- MOV (R170). Copies a 32-bit register. -/
  | mov (g : BitVec 4) (x : BitVec 6) (y : BitVec 6)
  /-- CLZ (R170). Counts leading zero bits of a 32-bit register. -/
  | clz (g : BitVec 4) (x : BitVec 6) (y : BitVec 6)
  /-- POPC (R170). Counts one bits of a 32-bit register. -/
  | popc (g : BitVec 4) (x : BitVec 6) (y : BitVec 6)
  /-- BREV (R170). Reverses the bit order of a 32-bit register. -/
  | brev (g : BitVec 4) (x : BitVec 6) (y : BitVec 6)
  /-- ABS (R170). Absolute value of a signed 32-bit register with wrap. -/
  | abs (g : BitVec 4) (x : BitVec 6) (y : BitVec 6)
  /-- SHL_32_IMM (R170). Shifts a 32-bit register left by an immediate amount. -/
  | shl32Imm (g : BitVec 4) (x : BitVec 6) (y : BitVec 6) (m : BitVec 5)
  /-- SHR_32_IMM (R170). Shifts a 32-bit register right logically by an immediate amount. -/
  | shr32Imm (g : BitVec 4) (x : BitVec 6) (y : BitVec 6) (m : BitVec 5)
  /-- SHA_32_IMM (R170). Shifts a 32-bit register right arithmetically by an immediate amount. -/
  | sha32Imm (g : BitVec 4) (x : BitVec 6) (y : BitVec 6) (m : BitVec 5)
  /-- ROT_32_IMM (R170). Rotates a 32-bit register right by an immediate amount. -/
  | rot32Imm (g : BitVec 4) (x : BitVec 6) (y : BitVec 6) (m : BitVec 5)
  /-- MOV_64 (R170). Copies a 64-bit pair. -/
  | mov64 (g : BitVec 4) (x : BitVec 6) (y : BitVec 6)
  /-- SHL_64_IMM (R170). Shifts a 64-bit pair left by an immediate amount. -/
  | shl64Imm (g : BitVec 4) (x : BitVec 6) (y : BitVec 6) (m : BitVec 6)
  /-- SHR_64_IMM (R170). Shifts a 64-bit pair right logically by an immediate amount. -/
  | shr64Imm (g : BitVec 4) (x : BitVec 6) (y : BitVec 6) (m : BitVec 6)
  /-- SHA_64_IMM (R170). Shifts a 64-bit pair right arithmetically by an immediate amount. -/
  | sha64Imm (g : BitVec 4) (x : BitVec 6) (y : BitVec 6) (m : BitVec 6)
  /-- ROT_64_IMM (R170). Rotates a 64-bit pair right by an immediate amount. -/
  | rot64Imm (g : BitVec 4) (x : BitVec 6) (y : BitVec 6) (m : BitVec 6)
  /-- MULLO (R171). Low 32 bits of a 32-bit product. -/
  | mullo (g : BitVec 4) (d : BitVec 6) (a : BitVec 6) (b : BitVec 6)
  /-- MULHI (R171). High 32 bits of a signed 32-bit product. -/
  | mulhi (g : BitVec 4) (d : BitVec 6) (a : BitVec 6) (b : BitVec 6)
  /-- MULHU (R171). High 32 bits of an unsigned 32-bit product. -/
  | mulhu (g : BitVec 4) (d : BitVec 6) (a : BitVec 6) (b : BitVec 6)
  /-- MAD (R171). Multiplies and adds d, keeping the low 32 bits. -/
  | mad (g : BitVec 4) (d : BitVec 6) (a : BitVec 6) (b : BitVec 6)
  /-- MAD_WIDE (R171). Signed 32x32 multiply added into a 64-bit pair. -/
  | madWide (g : BitVec 4) (d : BitVec 6) (a : BitVec 6) (b : BitVec 6)
  /-- LEA (R171). Adds a sign-extended 32-bit offset to a 64-bit address. -/
  | lea (g : BitVec 4) (d : BitVec 6) (a : BitVec 6) (b : BitVec 6)
  /-- BFX (R171). Extracts a bit field described by b. -/
  | bfx (g : BitVec 4) (d : BitVec 6) (a : BitVec 6) (b : BitVec 6)
  /-- BFI (R171). Inserts a bit field of a into d. -/
  | bfi (g : BitVec 4) (d : BitVec 6) (a : BitVec 6) (b : BitVec 6)
  /-- SEL (R171). Selects a or b per lane by predicate %pN. -/
  | sel (g : BitVec 4) (d : BitVec 6) (a : BitVec 6) (b : BitVec 6) (n : BitVec 3)
  /-- DIV (R172). Signed 32-bit division that never faults. -/
  | div (g : BitVec 4) (d : BitVec 6) (a : BitVec 6) (b : BitVec 6)
  /-- DIVU (R172). Unsigned 32-bit division that never faults. -/
  | divu (g : BitVec 4) (d : BitVec 6) (a : BitVec 6) (b : BitVec 6)
  /-- REM (R172). Signed 32-bit remainder. -/
  | rem (g : BitVec 4) (d : BitVec 6) (a : BitVec 6) (b : BitVec 6)
  /-- REMU (R172). Unsigned 32-bit remainder. -/
  | remu (g : BitVec 4) (d : BitVec 6) (a : BitVec 6) (b : BitVec 6)
  /-- DIV_64 (R172). Signed 64-bit division. -/
  | div64 (g : BitVec 4) (d : BitVec 6) (a : BitVec 6) (b : BitVec 6)
  /-- DIVU_64 (R172). Unsigned 64-bit division. -/
  | divu64 (g : BitVec 4) (d : BitVec 6) (a : BitVec 6) (b : BitVec 6)
  /-- REM_64 (R172). Signed 64-bit remainder. -/
  | rem64 (g : BitVec 4) (d : BitVec 6) (a : BitVec 6) (b : BitVec 6)
  /-- REMU_64 (R172). Unsigned 64-bit remainder. -/
  | remu64 (g : BitVec 4) (d : BitVec 6) (a : BitVec 6) (b : BitVec 6)
  /-- ICMP_REG (R173). Sets a predicate from an integer comparison of two registers. -/
  | icmpReg (g : BitVec 4) (x : BitVec 6) (y : BitVec 6) (c : BitVec 3) (w : BitVec 1) (p : BitVec 3)
  /-- ICMP_IMM (R173). Sets a predicate from an integer comparison with a 5-bit immediate. -/
  | icmpImm (g : BitVec 4) (x : BitVec 6) (y : BitVec 3) (c : BitVec 3) (w : BitVec 1) (i : BitVec 5)
  /-- MOVI (R155). Writes a sign-extended or IMMX-widened immediate. -/
  | movi (g : BitVec 4) (d : BitVec 6) (i : BitVec 16)
  /-- MOVHI (R155). Writes the upper 32 bits of a pair from an immediate. -/
  | movhi (g : BitVec 4) (d : BitVec 6) (i : BitVec 16)
  /-- PAND (R175). AND of two predicates. -/
  | pand (g : BitVec 4) (d : BitVec 3) (a : BitVec 3) (b : BitVec 3)
  /-- POR (R175). OR of two predicates. -/
  | por (g : BitVec 4) (d : BitVec 3) (a : BitVec 3) (b : BitVec 3)
  /-- PXOR (R175). XOR of two predicates. -/
  | pxor (g : BitVec 4) (d : BitVec 3) (a : BitVec 3) (b : BitVec 3)
  /-- PNOT (R175). Negates a predicate. -/
  | pnot (g : BitVec 4) (d : BitVec 3) (a : BitVec 3)
  /-- PMOV (R175). Copies a predicate. -/
  | pmov (g : BitVec 4) (d : BitVec 3) (a : BitVec 3)
  /-- VOTE_ANY (R177). True in every active lane if the predicate is true in any active lane. -/
  | voteAny (g : BitVec 4) (x : BitVec 3) (y : BitVec 3)
  /-- VOTE_ALL (R177). True in every active lane if the predicate is true in all active lanes. -/
  | voteAll (g : BitVec 4) (x : BitVec 3) (y : BitVec 3)
  /-- BALLOT (R177). Writes a 64-bit mask of active lanes whose predicate is true. -/
  | ballot (g : BitVec 4) (x : BitVec 6) (y : BitVec 3)
  /-- ELECT (R177). Sets a predicate true only in the lowest active lane. -/
  | elect (g : BitVec 4) (x : BitVec 3)
  /-- SHFL_IDX (R178). Reads a register from a fixed source lane. -/
  | shflIdx (g : BitVec 4) (x : BitVec 6) (y : BitVec 6) (k : BitVec 6)
  /-- SHFL_UP (R178). Reads a register from lane l minus k. -/
  | shflUp (g : BitVec 4) (x : BitVec 6) (y : BitVec 6) (k : BitVec 6)
  /-- SHFL_DOWN (R178). Reads a register from lane l plus k. -/
  | shflDown (g : BitVec 4) (x : BitVec 6) (y : BitVec 6) (k : BitVec 6)
  /-- SHFL_XOR (R178). Reads a register from lane l XOR k. -/
  | shflXor (g : BitVec 4) (x : BitVec 6) (y : BitVec 6) (k : BitVec 6)
  /-- SHFL_VAR (R178). Reads a register from a per-lane source lane held in x. -/
  | shflVar (g : BitVec 4) (x : BitVec 6) (y : BitVec 6)
  /-- FRED (R179). Reduces one floating value per lane by the canonical tree and writes it to every active lane. -/
  | fred (g : BitVec 4) (x : BitVec 6) (y : BitVec 6) (t : BitVec 2) (o : BitVec 2)
  /-- FADD_F32 (R180). F32 addition rounded once in the mode. -/
  | faddF32 (g : BitVec 4) (d : BitVec 6) (a : BitVec 6) (b : BitVec 6)
  /-- FSUB_F32 (R180). F32 subtraction. -/
  | fsubF32 (g : BitVec 4) (d : BitVec 6) (a : BitVec 6) (b : BitVec 6)
  /-- FMUL_F32 (R180). F32 multiplication. -/
  | fmulF32 (g : BitVec 4) (d : BitVec 6) (a : BitVec 6) (b : BitVec 6)
  /-- FFMA_F32 (R180). F32 fused multiply-add with one rounding. -/
  | ffmaF32 (g : BitVec 4) (d : BitVec 6) (a : BitVec 6) (b : BitVec 6)
  /-- FMIN_F32 (R180). F32 minimumNumber. -/
  | fminF32 (g : BitVec 4) (d : BitVec 6) (a : BitVec 6) (b : BitVec 6)
  /-- FMAX_F32 (R180). F32 maximumNumber. -/
  | fmaxF32 (g : BitVec 4) (d : BitVec 6) (a : BitVec 6) (b : BitVec 6)
  /-- FADD_F64 (R180). F64 addition. -/
  | faddF64 (g : BitVec 4) (d : BitVec 6) (a : BitVec 6) (b : BitVec 6)
  /-- FSUB_F64 (R180). F64 subtraction. -/
  | fsubF64 (g : BitVec 4) (d : BitVec 6) (a : BitVec 6) (b : BitVec 6)
  /-- FMUL_F64 (R180). F64 multiplication. -/
  | fmulF64 (g : BitVec 4) (d : BitVec 6) (a : BitVec 6) (b : BitVec 6)
  /-- FFMA_F64 (R180). F64 fused multiply-add. -/
  | ffmaF64 (g : BitVec 4) (d : BitVec 6) (a : BitVec 6) (b : BitVec 6)
  /-- FMIN_F64 (R180). F64 minimumNumber. -/
  | fminF64 (g : BitVec 4) (d : BitVec 6) (a : BitVec 6) (b : BitVec 6)
  /-- FMAX_F64 (R180). F64 maximumNumber. -/
  | fmaxF64 (g : BitVec 4) (d : BitVec 6) (a : BitVec 6) (b : BitVec 6)
  /-- FADD_F16 (R180). F16 addition rounded once. -/
  | faddF16 (g : BitVec 4) (d : BitVec 6) (a : BitVec 6) (b : BitVec 6)
  /-- FSUB_F16 (R180). F16 subtraction. -/
  | fsubF16 (g : BitVec 4) (d : BitVec 6) (a : BitVec 6) (b : BitVec 6)
  /-- FMUL_F16 (R180). F16 multiplication. -/
  | fmulF16 (g : BitVec 4) (d : BitVec 6) (a : BitVec 6) (b : BitVec 6)
  /-- FFMA_F16 (R180). F16 fused multiply-add. -/
  | ffmaF16 (g : BitVec 4) (d : BitVec 6) (a : BitVec 6) (b : BitVec 6)
  /-- FMIN_F16 (R180). F16 minimumNumber. -/
  | fminF16 (g : BitVec 4) (d : BitVec 6) (a : BitVec 6) (b : BitVec 6)
  /-- FMAX_F16 (R180). F16 maximumNumber. -/
  | fmaxF16 (g : BitVec 4) (d : BitVec 6) (a : BitVec 6) (b : BitVec 6)
  /-- FADD_BF16 (R180). BF16 addition rounded once. -/
  | faddBf16 (g : BitVec 4) (d : BitVec 6) (a : BitVec 6) (b : BitVec 6)
  /-- FSUB_BF16 (R180). BF16 subtraction. -/
  | fsubBf16 (g : BitVec 4) (d : BitVec 6) (a : BitVec 6) (b : BitVec 6)
  /-- FMUL_BF16 (R180). BF16 multiplication. -/
  | fmulBf16 (g : BitVec 4) (d : BitVec 6) (a : BitVec 6) (b : BitVec 6)
  /-- FFMA_BF16 (R180). BF16 fused multiply-add. -/
  | ffmaBf16 (g : BitVec 4) (d : BitVec 6) (a : BitVec 6) (b : BitVec 6)
  /-- FMIN_BF16 (R180). BF16 minimumNumber. -/
  | fminBf16 (g : BitVec 4) (d : BitVec 6) (a : BitVec 6) (b : BitVec 6)
  /-- FMAX_BF16 (R180). BF16 maximumNumber. -/
  | fmaxBf16 (g : BitVec 4) (d : BitVec 6) (a : BitVec 6) (b : BitVec 6)
  /-- FCMP (R182). Sets a predicate from a floating-point comparison. -/
  | fcmp (g : BitVec 4) (x : BitVec 6) (y : BitVec 6) (p : BitVec 3) (c : BitVec 3) (t : BitVec 2)
  /-- FDIV_F32 (R181). Correctly rounded F32 division. -/
  | fdivF32 (g : BitVec 4) (d : BitVec 6) (a : BitVec 6) (b : BitVec 6)
  /-- FSQRT_F32 (R181). Correctly rounded F32 square root. -/
  | fsqrtF32 (g : BitVec 4) (d : BitVec 6) (a : BitVec 6)
  /-- FRCP_F32 (R181). Correctly rounded F32 reciprocal. -/
  | frcpF32 (g : BitVec 4) (d : BitVec 6) (a : BitVec 6)
  /-- FRSQ (R106). F32 reciprocal square root by the fixed procedure. -/
  | frsq (g : BitVec 4) (d : BitVec 6) (a : BitVec 6)
  /-- FEX2 (R107). F32 base-2 exponential by the fixed procedure. -/
  | fex2 (g : BitVec 4) (d : BitVec 6) (a : BitVec 6)
  /-- FLG2 (R108). F32 base-2 logarithm by the fixed procedure. -/
  | flg2 (g : BitVec 4) (d : BitVec 6) (a : BitVec 6)
  /-- FROUND_F32 (R181). Rounds an F32 to an integral value in the mode. -/
  | froundF32 (g : BitVec 4) (d : BitVec 6) (a : BitVec 6)
  /-- FCLASS_F32 (R181). Writes the class mask of an F32. -/
  | fclassF32 (g : BitVec 4) (d : BitVec 6) (a : BitVec 6)
  /-- FDIV_F64 (R181). Correctly rounded F64 division. -/
  | fdivF64 (g : BitVec 4) (d : BitVec 6) (a : BitVec 6) (b : BitVec 6)
  /-- FSQRT_F64 (R181). Correctly rounded F64 square root. -/
  | fsqrtF64 (g : BitVec 4) (d : BitVec 6) (a : BitVec 6)
  /-- FRCP_F64 (R181). Correctly rounded F64 reciprocal. -/
  | frcpF64 (g : BitVec 4) (d : BitVec 6) (a : BitVec 6)
  /-- FROUND_F64 (R181). Rounds an F64 to an integral value. -/
  | froundF64 (g : BitVec 4) (d : BitVec 6) (a : BitVec 6)
  /-- FCLASS_F64 (R181). Writes the class mask of an F64. -/
  | fclassF64 (g : BitVec 4) (d : BitVec 6) (a : BitVec 6)
  /-- FCLASS_F16 (R181). Writes the class mask of an F16. -/
  | fclassF16 (g : BitVec 4) (d : BitVec 6) (a : BitVec 6)
  /-- FCLASS_BF16 (R181). Writes the class mask of a BF16. -/
  | fclassBf16 (g : BitVec 4) (d : BitVec 6) (a : BitVec 6)
  /-- FCVT (R183). Converts between integer and floating-point types. -/
  | fcvt (g : BitVec 4) (x : BitVec 6) (y : BitVec 6) (t : BitVec 4) (s : BitVec 4)
  /-- SXPACK (R184). Encodes 16 F32 lanes of a stroke into one SX block. -/
  | sxpack (g : BitVec 4) (x : BitVec 6) (y : BitVec 6) (f : BitVec 2)
  /-- SXUNPACK (R184). Decodes one SX block per stroke into 16 lanes. -/
  | sxunpack (g : BitVec 4) (x : BitVec 6) (y : BitVec 6) (f : BitVec 2) (t : BitVec 2)
  /-- BRA (R187). Branches each active lane by a word displacement. -/
  | bra (g : BitVec 4) (i : BitVec 22)
  /-- CALL (R187). Moves the window down, writes the link and branches. -/
  | call (g : BitVec 4) (i : BitVec 22)
  /-- BRX (R188). Jumps to a register target that must land on a TGT word. -/
  | brx (g : BitVec 4) (x : BitVec 6)
  /-- CALLX (R188). Calls a register target that must land on a TGT word. -/
  | callx (g : BitVec 4) (x : BitVec 6)
  /-- RET (R189). Returns to the link and moves the window up. -/
  | ret (g : BitVec 4)
  /-- EXIT (R192). Moves each active lane to Exited. -/
  | exit (g : BitVec 4)
  /-- YIELD (R194). Ends the crew's waiting period or is a switch point. -/
  | yield (g : BitVec 4)
  /-- TRAP (R195). Raises the TRAP fault with a user code. -/
  | trap (g : BitVec 4) (c : BitVec 6)
  /-- BKPT (R195). Raises the BKPT fault, or halts for an attached debugger. -/
  | bkpt (g : BitVec 4) (c : BitVec 6)
  /-- ERET (R199). Issues the record load that ends a trap handler. -/
  | eret (g : BitVec 4)
  /-- LAUNCH (R202). Team leader issues the read of a child launch record. -/
  | launch (g : BitVec 4) (y : BitVec 6)
  /-- LD_N8 (R211). Loads a zero-extended byte. -/
  | ldN8 (g : BitVec 4) (d : BitVec 6) (b : BitVec 6) (o : BitVec 7)
  /-- LD_I8 (R211). Loads a sign-extended byte. -/
  | ldI8 (g : BitVec 4) (d : BitVec 6) (b : BitVec 6) (o : BitVec 7)
  /-- LD_N16 (R211). Loads a zero-extended halfword. -/
  | ldN16 (g : BitVec 4) (d : BitVec 6) (b : BitVec 6) (o : BitVec 7)
  /-- LD_I16 (R211). Loads a sign-extended halfword. -/
  | ldI16 (g : BitVec 4) (d : BitVec 6) (b : BitVec 6) (o : BitVec 7)
  /-- LD_32 (R211). Loads a 32-bit word. -/
  | ld32 (g : BitVec 4) (d : BitVec 6) (b : BitVec 6) (o : BitVec 7)
  /-- LD_64 (R211). Loads 64 bits into a pair. -/
  | ld64 (g : BitVec 4) (d : BitVec 6) (b : BitVec 6) (o : BitVec 7)
  /-- LD_128 (R211). Loads 128 bits into four registers. -/
  | ld128 (g : BitVec 4) (d : BitVec 6) (b : BitVec 6) (o : BitVec 7)
  /-- ST_8 (R211). Enters a byte store in the store FIFO. -/
  | st8 (g : BitVec 4) (d : BitVec 6) (b : BitVec 6) (o : BitVec 7)
  /-- ST_16 (R211). Enters a halfword store in the store FIFO. -/
  | st16 (g : BitVec 4) (d : BitVec 6) (b : BitVec 6) (o : BitVec 7)
  /-- ST_32 (R211). Enters a word store in the store FIFO. -/
  | st32 (g : BitVec 4) (d : BitVec 6) (b : BitVec 6) (o : BitVec 7)
  /-- ST_64 (R211). Enters a 64-bit store in the store FIFO. -/
  | st64 (g : BitVec 4) (d : BitVec 6) (b : BitVec 6) (o : BitVec 7)
  /-- ST_128 (R211). Enters a 128-bit store in the store FIFO. -/
  | st128 (g : BitVec 4) (d : BitVec 6) (b : BitVec 6) (o : BitVec 7)
  /-- LDK (R212). Loads one value into a %k register once per run. -/
  | ldk (g : BitVec 4) (x : BitVec 6) (y : BitVec 6) (w : BitVec 1) (o : BitVec 8)
  /-- STK (R212). Stores a %k register once per run. -/
  | stk (g : BitVec 4) (x : BitVec 6) (y : BitVec 6) (w : BitVec 1) (o : BitVec 8)
  /-- ATOM_ADD (R222). Atomic add at the home slice. -/
  | atomAdd (g : BitVec 4) (x : BitVec 6) (y : BitVec 6) (w : BitVec 1) (r : BitVec 1)
  /-- ATOM_MIN (R222). Atomic signed minimum at the home slice. -/
  | atomMin (g : BitVec 4) (x : BitVec 6) (y : BitVec 6) (w : BitVec 1) (r : BitVec 1)
  /-- ATOM_MAX (R222). Atomic signed maximum at the home slice. -/
  | atomMax (g : BitVec 4) (x : BitVec 6) (y : BitVec 6) (w : BitVec 1) (r : BitVec 1)
  /-- ATOM_MINU (R222). Atomic unsigned minimum at the home slice. -/
  | atomMinu (g : BitVec 4) (x : BitVec 6) (y : BitVec 6) (w : BitVec 1) (r : BitVec 1)
  /-- ATOM_MAXU (R222). Atomic unsigned maximum at the home slice. -/
  | atomMaxu (g : BitVec 4) (x : BitVec 6) (y : BitVec 6) (w : BitVec 1) (r : BitVec 1)
  /-- ATOM_AND (R222). Atomic AND at the home slice. -/
  | atomAnd (g : BitVec 4) (x : BitVec 6) (y : BitVec 6) (w : BitVec 1) (r : BitVec 1)
  /-- ATOM_OR (R222). Atomic OR at the home slice. -/
  | atomOr (g : BitVec 4) (x : BitVec 6) (y : BitVec 6) (w : BitVec 1) (r : BitVec 1)
  /-- ATOM_XOR (R222). Atomic XOR at the home slice. -/
  | atomXor (g : BitVec 4) (x : BitVec 6) (y : BitVec 6) (w : BitVec 1) (r : BitVec 1)
  /-- ATOM_XCHG (R222). Atomic exchange at the home slice. -/
  | atomXchg (g : BitVec 4) (x : BitVec 6) (y : BitVec 6) (w : BitVec 1) (r : BitVec 1)
  /-- ATOM_CAS (R222). Atomic compare-and-swap at the home slice. -/
  | atomCas (g : BitVec 4) (x : BitVec 6) (y : BitVec 6) (w : BitVec 1) (r : BitVec 1)
  /-- ATOM_FADD (R222). Atomic F32 add at the home slice. -/
  | atomFadd (g : BitVec 4) (x : BitVec 6) (y : BitVec 6) (r : BitVec 1)
  /-- SCADD (R219). Adds a lane value to a deck location indivisibly. -/
  | scadd (g : BitVec 4) (x : BitVec 6) (y : BitVec 6) (t : BitVec 2)
  /-- BINAPP (R220). Appends to a deck bin and returns the slot. -/
  | binapp (g : BitVec 4) (x : BitVec 6) (y : BitVec 6)
  /-- MCAST_LD (R216). Reads a line and writes it into the decks named by a control word. -/
  | mcastLd (g : BitVec 4) (x : BitVec 6) (y : BitVec 6)
  /-- PREFETCH (R213). Asks for a line to be brought to a cache level. -/
  | prefetch (g : BitVec 4) (y : BitVec 6) (l : BitVec 2)
  /-- CCTL_IINV (R214). Removes a line from the core's instruction cache. -/
  | cctlIinv (g : BitVec 4) (y : BitVec 6)
  /-- CCTL_L1INV (R214). Removes the core's L1 lease on a line. -/
  | cctlL1inv (g : BitVec 4) (y : BitVec 6)
  /-- CCTL_L2WB (R214). Writes a dirty line back from its home slice. -/
  | cctlL2wb (g : BitVec 4) (y : BitVec 6)
  /-- CCTL_L2INV (R214). Writes back and removes a line from its home and sector copies. -/
  | cctlL2inv (g : BitVec 4) (y : BitVec 6)
  /-- FENCE (R215). Orders the crew's accesses at a scope. -/
  | fence (g : BitVec 4) (s : BitVec 3)
  /-- RPUT (R227). Delivers a value to a mailbox register of another thread. -/
  | rput (g : BitVec 4) (x : BitVec 6) (y : BitVec 6) (m : BitVec 3)
  /-- CALLOC (R76). Allocates a counter at the caller's home for a scope. -/
  | calloc (g : BitVec 4) (x : BitVec 6) (s : BitVec 3)
  /-- CFREE (R78). Frees a counter. -/
  | cfree (g : BitVec 4) (y : BitVec 6)
  /-- CREAD (R83). Reads a counter's value with acquire. -/
  | cread (g : BitVec 4) (x : BitVec 6) (y : BitVec 6)
  /-- CTEST (R83). Sets a predicate from value at least threshold, with acquire when true. -/
  | ctest (g : BitVec 4) (x : BitVec 6) (y : BitVec 6) (p : BitVec 3)
  /-- CADD_REG (R79). Adds a register increment to a counter with release. -/
  | caddReg (g : BitVec 4) (x : BitVec 6) (y : BitVec 6)
  /-- CADD_IMM (R79). Adds an 8-bit immediate to a counter with release. -/
  | caddImm (g : BitVec 4) (y : BitVec 6) (i : BitVec 8)
  /-- CADDR_REG (R79). Adds a register increment and returns the old value. -/
  | caddrReg (g : BitVec 4) (x : BitVec 6) (y : BitVec 6)
  /-- CADDR_IMM (R79). Adds an immediate and returns the old value. -/
  | caddrImm (g : BitVec 4) (x : BitVec 6) (y : BitVec 6) (i : BitVec 8)
  /-- CWAIT (R84). Waits until a counter reaches a threshold. -/
  | cwait (g : BitVec 4) (x : BitVec 6) (y : BitVec 6)
  /-- CWAIT_TO (R85). Waits on a counter with a timeout and a result predicate. -/
  | cwaitTo (g : BitVec 4) (x : BitVec 6) (y : BitVec 6) (p : BitVec 3)
  /-- WAITE (R90). Waits until an engine class's DONE covers all but the k latest commands. -/
  | waite (g : BitVec 4) (c : BitVec 2) (k : BitVec 7)
  /-- XCOPY (R235). Posts a copy command whose block is in the deck. -/
  | xcopy (g : BitVec 4) (y : BitVec 6)
  /-- XCOPY_K (R235). Posts a copy command whose block is in %k8-%k15. -/
  | xcopyK (g : BitVec 4)
  /-- MXCMD (R245). Posts a matrix command whose block is in the deck. -/
  | mxcmd (g : BitVec 4) (y : BitVec 6)
  /-- MXCMD_K (R245). Posts a matrix command whose block is in %k8-%k15. -/
  | mxcmdK (g : BitVec 4)
  /-- MXTAB (R245). Posts an activation-table load to the matrix FIFO. -/
  | mxtab (g : BitVec 4) (y : BitVec 6) (t : BitVec 2)
  /-- ACCLD (R250). Loads an accumulator word into a register. -/
  | accld (g : BitVec 4) (x : BitVec 6) (y : BitVec 6)
  /-- ACCST (R250). Stores a register into an accumulator word. -/
  | accst (g : BitVec 4) (x : BitVec 6) (y : BitVec 6)
  /-- OBRES (R242). Makes an operand-buffer reservation record live from a descriptor. -/
  | obres (g : BitVec 4) (y : BitVec 6) (r : BitVec 5)
  /-- OBREL (R242). Releases a reservation record once no command names it. -/
  | obrel (g : BitVec 4) (r : BitVec 5)
  /-- COLL_ALLREDUCE (R251). Posts an all-reduce collective. -/
  | collAllreduce (g : BitVec 4) (y : BitVec 6)
  /-- COLL_REDUCESCATTER (R251). Posts a reduce-scatter collective. -/
  | collReducescatter (g : BitVec 4) (y : BitVec 6)
  /-- COLL_ALLGATHER (R251). Posts an all-gather collective. -/
  | collAllgather (g : BitVec 4) (y : BitVec 6)
  /-- COLL_GATHER (R251). Posts a gather collective. -/
  | collGather (g : BitVec 4) (y : BitVec 6)
  /-- COLL_SCATTER (R251). Posts a scatter collective. -/
  | collScatter (g : BitVec 4) (y : BitVec 6)
  /-- COLL_ALLTOALL (R251). Posts an all-to-all collective. -/
  | collAlltoall (g : BitVec 4) (y : BitVec 6)
  /-- ATOMR (R225). Runs an installed routine on a locked line at its home slice. -/
  | atomr (g : BitVec 4) (x : BitVec 6) (y : BitVec 6) (r : BitVec 6)
  /-- SSEED (R263). Sets a generator's mode, seed and position. -/
  | sseed (n : BitVec 4) (m : BitVec 2)
  /-- SGEN (R264). Draws a stream from a generator against per-lane %w thresholds. -/
  | sgen (d : BitVec 3) (s : BitVec 3) (n : BitVec 4)
  /-- SGENK (R264). Draws a stream from a generator against a %k threshold. -/
  | sgenk (d : BitVec 3) (s : BitVec 3) (n : BitVec 4)
  /-- SLEN (R265). Writes the crew's stream length. -/
  | slen (l : BitVec 2)
  /-- SAND (R267). AND of two independent streams. -/
  | sand (d : BitVec 3) (a : BitVec 3) (b : BitVec 3)
  /-- SXNOR (R267). XNOR of two independent streams. -/
  | sxnor (d : BitVec 3) (a : BitVec 3) (b : BitVec 3)
  /-- SOR (R267). OR of two streams. -/
  | sor (d : BitVec 3) (a : BitVec 3) (b : BitVec 3)
  /-- SSUB (R267). XOR of two streams of one generator. -/
  | ssub (d : BitVec 3) (a : BitVec 3) (b : BitVec 3)
  /-- SMIN (R267). AND of two streams of one generator. -/
  | smin (d : BitVec 3) (a : BitVec 3) (b : BitVec 3)
  /-- SMAX (R267). OR of two streams of one generator. -/
  | smax (d : BitVec 3) (a : BitVec 3) (b : BitVec 3)
  /-- SNOT (R267). Negates a stream. -/
  | snot (d : BitVec 3) (a : BitVec 3)
  /-- SMUX (R267). Selects between two streams by a select stream. -/
  | smux (d : BitVec 3) (a : BitVec 3) (b : BitVec 3) (s : BitVec 3)
  /-- SCNT (R268). Counts a stream's ones into %w0-%w7. -/
  | scnt (a : BitVec 3) (s : BitVec 3)
  /-- SDOT (R269). Forms a 64-lane stochastic dot product. -/
  | sdot (a : BitVec 3) (b : BitVec 3) (s : BitVec 3)
  /-- SREGEN (R266). Re-draws a stream's count from a generator. -/
  | sregen (d : BitVec 3) (a : BitVec 3) (n : BitVec 4)
  /-- STAG (R268). Reads a stream register's tag and EMPTY flag. -/
  | stag (a : BitVec 3) (s : BitVec 3)
  /-- SMOV (R270). Copies a stream. -/
  | smov (d : BitVec 3) (a : BitVec 3)
  /-- SROT (R270). Rotates a stream. -/
  | srot (d : BitVec 3) (a : BitVec 3) (m : BitVec 6)
  /-- CSRR (R204). Reads a special register. -/
  | csrr (g : BitVec 4) (x : BitVec 6) (n : BitVec 10)
  /-- CSRW (R204). Writes a special register. -/
  | csrw (g : BitVec 4) (y : BitVec 6) (n : BitVec 10)
  /-- SVC (R203). Posts a Coxswain service call once per run. -/
  | svc (g : BitVec 4) (y : BitVec 6) (n : BitVec 6)
  /-- SPILLF (R201). Spills the lowest resident frame in a handler. -/
  | spillf (g : BitVec 4)
  /-- FILLF (R201). Issues the load that fills a frame in a handler. -/
  | fillf (g : BitVec 4)
  /-- TLBI (R379). Invalidates TLB entries package-wide. -/
  | tlbi (g : BitVec 4) (y : BitVec 6)
  /-- CTXSAVE (R373). Pre-empts and holds another context. -/
  | ctxsave (g : BitVec 4) (y : BitVec 6)
  /-- CTXLOAD (R373). Sets a held context's image base and ends its hold. -/
  | ctxload (g : BitVec 4) (y : BitVec 6)
  /-- IMMX (R135). Adds upper immediate bits to the pending hint state. -/
  | immx (p : BitVec 22)
  /-- MODX (R136). Adds rounding, saturation, FFMA source and cache policy to the pending state. -/
  | modx (p : BitVec 3) (v : BitVec 1) (c : BitVec 6) (s : BitVec 1) (r : BitVec 2)
  /-- SCHED (R137). Adds a pipe choice to the pending state. -/
  | sched (p : BitVec 2)
  /-- TGT (R138). Landing hint for BRX and CALLX. -/
  | tgt (l : BitVec 2)
  /-- CONVERGE (R139). Marks a join point for stall sampling. -/
  | converge (j : BitVec 22)
  /-- UNDEFINED_HINT (R133). Hint kinds 5-15 execute as no-ops. -/
  | undefinedHint (k : BitVec 4) (p : BitVec 22)
  /-- INSTRUCTION_FETCH (R127). Fetch of an instruction word returns or faults. -/
  | instructionFetch (slot : Nat)
  /-- PROGRESS_COUNT_EXPIRY (R47). The promised thread's stall count reaches 1,024 and its run is forced to issue. -/
  | progressCountExpiry (sub : Nat)
  /-- PROGRESS_ISSUE_COUNT_EXPIRY (R48). In deterministic mode the issue count reaches 1,024 and the promised crew is chosen next. -/
  | progressIssueCountExpiry (sub : Nat)
  /-- ISSUE_BUDGET_EXPIRY (R44). The current crew's 65,536th issue is a switch point. -/
  | issueBudgetExpiry (sub : Nat)
  /-- MAILBOX_DELIVERY (R68). An RPUT delivery arrives at the target subcore and writes a mailbox register. -/
  | mailboxDelivery (id : Nat)
  /-- STORE_FIFO_SEND (R298). A subcore sends the oldest unsent entry of one crew. -/
  | storeFifoSend (slot : Nat)
  /-- STORE_ACK (R206). An acknowledgement removes an entry and decrements %UNACK. -/
  | storeAck (id : Nat)
  /-- LOAD_RESPONSE (R211). Load data returns and is written, or a response fault is taken. -/
  | loadResponse (id : Nat)
  /-- ERET_RECORD_RETURN (R199). ERET's record load returns and the thread resumes or double-faults. -/
  | eretRecordReturn (slot : Nat)
  /-- LAUNCH_RECORD_RETURN (R202). LAUNCH's record read returns and the record goes to the Ringmaster. -/
  | launchRecordReturn (slot : Nat)
  /-- FILLF_RETURN (R201). FILLF's loads return and the frame is filled. -/
  | fillfReturn (slot : Nat)
  /-- POSTING_END (R230). Block ready and checks done: the engine command is posted or faults. -/
  | postingEnd (slot : Nat)
  /-- CTX_BLOCK_RETURN (R373). The CTXSAVE or CTXLOAD block read returns and is checked. -/
  | ctxBlockReturn (slot : Nat)
  /-- COUNTER_HOME_ADD (R79). A home applies an add, saturating under R80. -/
  | counterHomeAdd (slot : Nat) (id : Nat)
  /-- COUNTER_HOME_ALLOC (R76). A home allocates the lowest counter that is not live. -/
  | counterHomeAlloc (slot : Nat) (id : Nat)
  /-- COUNTER_HOME_FREE (R78). A home clears a counter's live bit and wakes its waiters with CSTALE. -/
  | counterHomeFree (slot : Nat) (id : Nat)
  /-- COUNTER_HOME_READ (R83). A home serves a read or test and returns the value and logical time. -/
  | counterHomeRead (slot : Nat) (id : Nat)
  /-- COUNTER_WAITER_REGISTER (R84). A home registers a waiter entry or makes the waiter a poller. -/
  | counterWaiterRegister (slot : Nat) (id : Nat)
  /-- OVERFLOW_COUNTER_APPLY (R87). An operation on an overflow counter is applied 220 c after it is taken. -/
  | overflowCounterApply (die : Nat)
  /-- COUNTER_WAKE (R87). A wake reaches the subcore and the thread becomes runnable with acquire. -/
  | counterWake (id : Nat)
  /-- COUNTER_ANSWER (R441). A home's answer reaches the subcore, setting a destination or the pending engine fault. -/
  | counterAnswer (id : Nat)
  /-- CWAIT_TIMEOUT (R85). A CWAIT timeout expires and the lane resumes with false. -/
  | cwaitTimeout (slot : Nat) (lane : Nat)
  /-- POLLER_RECHECK (R88). A poller re-presents its CWAIT every 256 c. -/
  | pollerRecheck (slot : Nat) (lane : Nat)
  /-- LTS_TICK (R279). Every 256 c each resident crew's logical time increases by 1. -/
  | ltsTick
  /-- PAGE_WALK (R377). A walker completes a translation walk or finds a fault. -/
  | pageWalk (slot : Nat) (lane : Nat) (va : BitVec 64) (kind : WalkKind)
  /-- SLICE_REQUEST (R284). A slice takes one request from ingress and serves, merges or holds it. -/
  | sliceRequest (slice : Nat)
  /-- LINE_FILL (R284). A miss's data arrives and merged requests are answered in order. -/
  | lineFill (slice : Nat) (line : Nat) (victim : Option Nat)
  /-- SLICE_ATOMIC (R222). The home slice applies an ATOM indivisibly. -/
  | sliceAtomic (slice : Nat)
  /-- ATOMR_ROUTINE (R225). A slice routine core runs a routine on a locked line. -/
  | atomrRoutine (slice : Nat)
  /-- DECK_REQUEST (R218). A deck serves an arriving access or SCADD/BINAPP operation. -/
  | deckRequest (core : Nat)
  /-- MULTICAST_RESPONSE (R292). A multicast response writes every listed target deck. -/
  | multicastResponse (slice : Nat)
  /-- RELAY_BEAT (R289). A relayed beat crosses neighbour links into the target deck. -/
  | relayBeat (core : Nat)
  /-- NACK (R287). A NACK for a dropped packet reaches its source. -/
  | nack (core : Nat) (id : Nat)
  /-- RETRY_RESEND (R287). A source resends a request 8 × n c after its NACK. -/
  | retryResend (core : Nat) (id : Nat)
  /-- REMAP_NACK (R290). A source rehashes under the current map and resends after 8 c. -/
  | remapNack (core : Nat) (id : Nat)
  /-- MAP_ACTIVATE (R290). All slice-map copies switch at the activation cycle. -/
  | mapActivate (die : Nat)
  /-- SLICE_RETIRE_COMPLETE (R290). Retirement completes when no request of the old GEN remains. -/
  | sliceRetireComplete (slice : Nat)
  /-- SLICE_POWER_DOWN (R351). A gating slice powers down once its flush buffer is written back. -/
  | slicePowerDown (slice : Nat)
  /-- COPY_COMMAND_START (R237). The copy engine starts a command once older stores are acknowledged. -/
  | copyCommandStart (core : Nat) (chan : Nat)
  /-- COPY_COMMAND_COMPLETE (R231). A copy command's writes are acknowledged; completion add and DONE follow. -/
  | copyCommandComplete (core : Nat) (chan : Nat)
  /-- CAROUSEL_ITEM_START (R238). A carousel item's FREED wait is met and its rows are copied. -/
  | carouselItemStart (core : Nat) (chan : Nat)
  /-- CAROUSEL_ITEM_DONE (R238). An item's writes are acknowledged and FILLED is added to. -/
  | carouselItemDone (core : Nat) (chan : Nat)
  /-- MXTAB_LOAD (R245). MXTAB at the FIFO head replaces an activation table. -/
  | mxtabLoad (core : Nat)
  /-- MXCMD_START (R248). The matrix engine starts a command from its FIFO. -/
  | mxcmdStart (core : Nat)
  /-- MXCMD_COMPLETE (R248). The command's span and writes end; its completion add is made. -/
  | mxcmdComplete (core : Nat)
  /-- MATRIX_SPLIT_STOP (R249). A matrix command stops at a split point and writes its save area. -/
  | matrixSplitStop (core : Nat) (tile : Nat) (kdone : Nat)
  /-- ENGINE_SPLIT_STOP (R54). An engine stops between commands or at a split point for pre-emption. -/
  | engineSplitStop (core : Nat)
  /-- COLLECTIVE_START (R252). A collective starts when all members have arrived. -/
  | collectiveStart (group : Nat) (seq : Nat)
  /-- COLLECTIVE_COMPLETE (R253). A rank's RECV writes are acknowledged and its SEND read. -/
  | collectiveComplete (die : Nat) (group : Nat)
  /-- COLLECTIVE_STALL_TIMEOUT (R255). No progress for 2^24 c stops the collective with REMOTE. -/
  | collectiveStallTimeout (die : Nat) (group : Nat)
  /-- STREAM_OP_START (R259). The stream engine starts the next queued operation. -/
  | streamOpStart (core : Nat)
  /-- LAUNCH_RECORD_CHECK (R321). Each fc the Ringmaster checks one head record and accepts or rejects it. -/
  | launchRecordCheck
  /-- GRID_START (R324). A grid's last dependence is met and it starts with acquire. -/
  | gridStart (serial : Nat)
  /-- GRID_DEPENDENCE_STALE (R325). A freed dependence counter retires a pending grid. -/
  | gridDependenceStale (serial : Nat)
  /-- TEAM_DISPATCH (R331). The fc's placement dispatches a team to a core. -/
  | teamDispatch
  /-- TEAM_RESTORE (R331). The fc's placement restores a parked or pre-empted team. -/
  | teamRestore
  /-- TEAM_PARK (R28). The Ringmaster parks a fully blocked team to make room. -/
  | teamPark (serial : Nat) (team : Nat)
  /-- CREW_RELEASE (R193). A crew with all threads exited, no stores and no commands is released. -/
  | crewRelease (slot : Nat)
  /-- GRID_RETIRE (R326). A grid retires and its DONE counter is added to. -/
  | gridRetire (serial : Nat)
  /-- SLICE_EXPIRY (R333). A context's slice timer expires and the context is pre-empted. -/
  | sliceExpiry (ctx : Nat)
  /-- PREEMPT_CORE (R52). A pre-emption request reaches a core and issue stops. -/
  | preemptCore (core : Nat)
  /-- CREW_SAVE (R53). A crew's save begins once its writes, steps and engines have settled. -/
  | crewSave (slot : Nat)
  /-- IMAGE_COMPLETE (R372). An image's stores and sent entries are credited and it is complete. -/
  | imageComplete (ctx : Nat)
  /-- CORE_CONTEXT_CLEAR (R234). A core passing to a new context finishes clearing its state. -/
  | coreContextClear (core : Nat)
  /-- CLUSTER_POWER_GATE (R438). A cluster idle for 65,536 c is power-gated. -/
  | clusterPowerGate (cluster : Nat)
  /-- QCFG_WRITE (R327). A write to a queue configuration register, with its EN rules. -/
  | qcfgWrite (q : Nat) (value : BitVec 64)
  /-- CONTEXT_REGISTER_WRITE (R328). A write to a context's spill pool and slice registers. -/
  | contextRegisterWrite (ctx : Nat) (off : Nat) (value : BitVec 64)
  /-- CONTEXT_TRANS_WRITE (R367). A write to a context's TRANS or IMG register. -/
  | contextTransWrite (ctx : Nat) (off : Nat) (value : BitVec 64)
  /-- KICK (R338). A KICK write patches a graph image and enqueues its nodes. -/
  | kick (q : Nat) (value : BitVec 64)
  /-- KICK_ENQUEUE (R338). A kick waiting for queue room enqueues its nodes. -/
  | kickEnqueue (q : Nat)
  /-- LAUNCH_WINDOW_TRIGGER (R335). A host write covering byte 63 of a slot submits its record. -/
  | launchWindowTrigger (q : Nat) (wslot : Nat) (record : BitVec 512)
  /-- REGISTER_WRITE (R8). A host write to a register with no behaviour of its own. -/
  | registerWrite (off : Nat) (value : BitVec 64)
  /-- COUNTER_WINDOW_READ_VALUE (R95). A host 8-byte read of a counter's value. -/
  | counterWindowReadValue (die : Nat) (index : Nat)
  /-- COUNTER_WINDOW_READ_STATUS (R95). A host read of a counter's status word. -/
  | counterWindowReadStatus (die : Nat) (index : Nat)
  /-- COUNTER_WINDOW_ADD (R95). A host add to a counter with a generation check. -/
  | counterWindowAdd (die : Nat) (index : Nat) (value : BitVec 64)
  /-- HOST_MEM_READ (R344). A CXL.mem read of device memory at the home slice. -/
  | hostMemRead (addr : Nat) (size : Nat)
  /-- HOST_MEM_WRITE (R344). A CXL.mem write of device memory at the home slice. -/
  | hostMemWrite (addr : Nat) (data : List (BitVec 8))
  /-- SNPCUR (R350). A host SnpCur snoop is answered by the home slice. -/
  | snpcur (line : Nat)
  /-- SNPDATA (R350). A host SnpData snoop is answered and the line kept shared. -/
  | snpdata (line : Nat)
  /-- SNPINV (R350). A host SnpInv snoop is answered and the line dropped. -/
  | snpinv (line : Nat)
  /-- PCIE_COMPLETION (R355). A PCIe read or AtomicOp completion returns to the requesting lanes. -/
  | pcieCompletion (id : Nat) (ok : Bool) (data : List (BitVec 8))
  /-- COMPLETION_TIMEOUT (R355). A lost PCIe completion faults its lanes after the timeout range. -/
  | completionTimeout (id : Nat)
  /-- PFLUSH (R348). A PCIe read that completes after every earlier posted write. -/
  | pflush
  /-- CXLFLUSH (R348). A CXL.mem read that completes after earlier CXL writes are performed. -/
  | cxlflush
  /-- LINK_DOWN (R352). A host link's loss sets LINKDOWN, poisons and logs lines. -/
  | linkDown (cxl : Bool)
  /-- LINKSTAT_CLEAR (R354). Clearing a link-down latch ends LINKDOWN for that path. -/
  | linkstatClear (value : BitVec 64)
  /-- WRST (R393). Writing IDENT WRST starts a warm reset into recovery. -/
  | wrst
  /-- RVERIFY (R393). Writing IDENT RVERIFY verifies the staged image in recovery. -/
  | rverify
  /-- RESET_RELEASE (R391). Reset release runs the boot stages in order. -/
  | resetRelease (slotA : List (BitVec 8)) (slotB : List (BitVec 8))
  /-- LOCKSTEP_MISMATCH (R391). A boot-pair output mismatch halts both and shows 0xFF. -/
  | lockstepMismatch
  /-- EPOCH (R406). The first multiple of 28,311,552 c after boot becomes the start point. -/
  | epoch
  /-- SPDM_REQUEST (R394). The boot pair answers an SPDM 1.2 request. -/
  | spdmRequest (request : SpdmRequest)
  /-- LOCK_INTERFACE_REQUEST (R396). Locks the TDI and freezes registers. -/
  | lockInterfaceRequest (nonce : BitVec 256)
  /-- START_INTERFACE_REQUEST (R396). Moves a locked TDI to RUN with the lock's nonce. -/
  | startInterfaceRequest (nonce : BitVec 256)
  /-- STOP_INTERFACE_REQUEST (R400). Ends every context, scrubs and unlocks the TDI. -/
  | stopInterfaceRequest
  /-- GET_DEVICE_INTERFACE_REPORT (R401). Returns the TDISP interface report. -/
  | getDeviceInterfaceReport
  /-- IDE_FAILURE (R396). An IDE integrity failure or key expiry moves the TDI to ERROR. -/
  | ideFailure (stream : Nat)
  /-- FLR (R396). A function-level reset moves a locked or running TDI to ERROR. -/
  | flr
  /-- ARRIVAL_ADMIT (R407). A Turnstile stamps an arrival and logs it in record mode. -/
  | arrivalAdmit (source : Nat) (access : Access)
  /-- ARRIVAL_PRESENT (R407). An admitted arrival is presented to the package at A + 32. -/
  | arrivalPresent
  /-- LOG_RECORD_PRESENT (R413). In replay, a log record is presented at EPOCH + CYCLE + 32. -/
  | logRecordPresent
  /-- EGRESS_DIGEST_CHECK (R414). Every 2^20 c the egress CRC is logged or compared. -/
  | egressDigestCheck (source : Nat)
  /-- FREEZE (R415). The package freezes before the first even c at or after STOPCYC. -/
  | freeze
  /-- XMODE_WRITE (R408). A host write changes the execution mode at A + 32. -/
  | xmodeWrite (value : BitVec 64)
  /-- RPLCTL_WRITE (R409). Sets replay mode and log bandwidth for the next start point. -/
  | rplctlWrite (value : BitVec 64)
  /-- SCAN_OUT (R417). Writes the frozen package's image to host memory. -/
  | scanOut (haddr : Nat)
  /-- SCAN_IN (R419). Reads, checks and loads an image into the frozen package. -/
  | scanIn (haddr : Nat)
  /-- RELEASE (R417). Ends the freeze; after a scan-in it is a start point. -/
  | release
  /-- SCAN_COMPLETE (R417). A scan operation ends and SCANSTAT reports its code and CRC. -/
  | scanComplete
  /-- SYNCCMD (R421). A write starts alignment with the master module through a port. -/
  | synccmd (value : BitVec 64)
  /-- SYNC (R421). The master's SYNC arrives and is stamped; the follower sends DREQ. -/
  | sync (t1 : Int)
  /-- DREQ (R421). The master stamps DREQ and returns its time; the follower sets SYSOFF. -/
  | dreq (t4 : Int)
  /-- SAMPLE_POINT (R423). At each sample point one subcore of every core is sampled. -/
  | samplePoint
  /-- POWER_WINDOW (R436). Every 10 µs the governor adjusts clock stops against the power limit. -/
  | powerWindow (meanWatts : Nat)
  /-- THERMAL_STOP (R437). A sensor at 105 °C stops the package clock. -/
  | thermalStop (temps : List Int)
  /-- THERMAL_RESTART (R437). Every sensor at 100 °C or less restarts the clock. -/
  | thermalRestart (temps : List Int)
  /-- THERMTRIP (R437). At 115 °C THERMTRIP# is asserted and the device halts. -/
  | thermtrip
  /-- FLIT_CRC_RESEND (R432). A Rolper flit with a bad CRC is resent from the replay buffer. -/
  | flitCrcResend (port : Nat)
  /-- PORT_STATE_CHANGE (R433). A Rolper port changes state as a logged arrival. -/
  | portStateChange (port : Nat) (state : Nat) (peer : Nat)
  /-- COUNTER_NOTIFICATION (R386). A CNOTIFY counter reaches its threshold and raises event kind 5. -/
  | counterNotification (id : Nat)
  /-- INFO (R386). Returns module number, firmware version and serial. -/
  | info
  /-- SETMOD (R386). Sets the module number. -/
  | setmod
  /-- NOP (R386). Completes in queue order. -/
  | nop
  /-- PING (R386). Tests reachability and round trip to a module. -/
  | ping
  /-- ARENA (R386). Sets a context's arena. -/
  | arena
  /-- ALLOC (R387). Allocates the lowest aligned free range of the arena. -/
  | alloc
  /-- FREE (R387). Frees an allocation. -/
  | free
  /-- AQUERY (R386). Returns arena free space and allocation count. -/
  | aquery
  /-- ARESET (R386). Frees every allocation of a context. -/
  | areset
  /-- SLOG (R386). Sets the stranded-line log. -/
  | slog
  /-- SVC_CALLOC (R386). Allocates a package or system counter for the poster. -/
  | svcCalloc
  /-- SVC_CFREE (R386). Frees a counter for the poster. -/
  | svcCfree
  /-- CNOTIFY (R386). Registers a counter notification. -/
  | cnotify
  /-- CCANCEL (R386). Removes a counter notification. -/
  | ccancel
  /-- OVFPAGES (R74). Grants counter overflow pages to a die. -/
  | ovfpages
  /-- CINFO (R386). Returns a counter's value and status. -/
  | cinfo
  /-- EVRING (R386). Sets the event ring and resets HEAD and TAIL. -/
  | evring
  /-- EVPOST (R386). Raises a program event of kind 6. -/
  | evpost
  /-- TRAPFWD (R386). Forwards a trap record as event kind 3. -/
  | trapfwd
  /-- EVFLUSH (R386). Completes when every earlier event is in the ring. -/
  | evflush
  /-- EVVEC (R386). Sets the MSI-X vector of an event kind. -/
  | evvec
  /-- EVMASK (R386). Masks event kinds. -/
  | evmask
  /-- FLTANS (R364). Answers a replay report with RETRY or DELIVER. -/
  | fltans
  /-- DBGATT (R390). Attaches a debugger to a context. -/
  | dbgatt
  /-- DBGDET (R386). Detaches a debugger. -/
  | dbgdet
  /-- DBGRES (R390). Ends a debugger halt and restores the images. -/
  | dbgres
  /-- CTXKILL (R386). Stops every grid of a context and discards its images. -/
  | ctxkill
  /-- TLBINV (R386). Invalidates TLB entries as TLBI does. -/
  | tlbinv
  /-- RTNINST (R226). Installs an ATOMR routine after checking it. -/
  | rtninst
  /-- RTNDEL (R386). Deletes an ATOMR routine. -/
  | rtndel
  /-- GRPDEF (R252). Defines a collective group. -/
  | grpdef
  /-- GRPDEL (R386). Deletes a collective group. -/
  | grpdel
  /-- GRPCANCEL (R254). Cancels a waiting collective with REMOTE. -/
  | grpcancel
  /-- RPORT (R433). Returns a Rolper port's state, peer and resend count. -/
  | rport
  /-- MAPSET (R290). Writes a new slice map with an activation cycle. -/
  | mapset
  /-- SLRETIRE (R291). Retires a slice through a map change. -/
  | slretire
  /-- RASREAD (R429). Writes error-count entries. -/
  | rasread
  /-- RASCLR (R429). Clears error counts. -/
  | rasclr
  /-- SMPSTART (R423). Starts stall sampling. -/
  | smpstart
  /-- SMPSTOP (R426). Stops stall sampling and returns the dropped count. -/
  | smpstop
  /-- PWRCAP (R436). Sets the power limit. -/
  | pwrcap
  /-- THERM (R386). Returns the eight die temperatures. -/
  | therm
  /-- RPLCFG (R409). Writes the replay log base and mode. -/
  | rplcfg
  /-- STOPSET (R415). Writes STOPCYC. -/
  | stopset
  /-- ATTMEAS (R394). Returns one measurement. -/
  | attmeas
  /-- ATTSIGN (R394). Signs a nonce and the measurements. -/
  | attsign
  /-- TDIREPORT (R401). Writes the TDISP interface report. -/
  | tdireport
  /-- FWSTAGE (R392). Verifies a firmware image and writes it to the spare flash slot. -/
  | fwstage
  /-- UNDEFINED_WORD (R141). Issue of a word that is not an instruction (major 0x00, an UNDEF major, an unassigned code, a nonzero RES0 bit or a guarded S word) raises UNDEF. -/
  | undefinedWord (w : BitVec 32)
  /-- LINK_UP (R354). A PCIe or CXL host link trains up again, setting PUP or CUP and its generation and width, and the Turnstile logs it. -/
  | linkUp (cxl : Bool) (gen : Nat) (x8 : Bool)
  /-- PERST_ASSERT (R391). The board asserts PERST#, putting the package into reset and ending a lock-step halt. -/
  | perstAssert
  /-- POWER_LOSS (R437). Board power is removed, the only way out of a THERMTRIP halt. -/
  | powerLoss
  /-- HCALL (R384). A host write to HCALL posts a call to the Coxswain queue, or is dropped and counted when the queue is full or a RES0 bit is set. -/
  | hcall (value : BitVec 64)
  /-- BADCALL (R386). The Coxswain takes a host post of call number 48 to 63 and ends it with status BADCALL. -/
  | badcall
  /-- FUSED_MINIMUM_RAISE (R392). A request through the management port raises the fused minimum security version. -/
  | fusedMinimumRaise (svn : Nat)
  /-- LPDDR_REFRESH (R404). Each memory controller refreshes its LPDDR-5X on a fixed schedule set by %CYCLE. -/
  | lpddrRefresh (mdie : Nat)
  /-- SOFT_ERROR (R405). A stored or transmitted bit flips of itself, to be corrected, counted or found poisoned when next checked. -/
  | softError (site : ErrorSite) (corrected : Bool)
deriving DecidableEq, Repr

end Sys2Proof
end

