-- ==== Sys2Proof/Machine/State.lean ====
section
/-! DEFINITION. The state of the HZ-70 as plain data: threads, crews, subcores, cores, clusters, C-dies, L2
slices, the Ringmaster, the Coxswain, the host links, the Turnstiles and the boot pair, and the state right
after reset release. INVENTORY.md lists every field with the rule that names it. -/

namespace Sys2Proof.Machine

/-- Why the machine stops: states the spec says nothing leaves except from outside the package. -/
inductive Fault where
  /-- Raised by step when THERMTRIP# is asserted (R437) and the next agenda move is not the loss of power:
  the device has halted. Safe: nothing runs. -/
  | thermtripHalt
  /-- Raised by step after a lock-step mismatch (R391) when the next agenda move is none of those the halted
  package still takes. Safe: nothing runs. -/
  | lockstepHalt
deriving DecidableEq, Repr

/-- Why a step has no meaning. -/
inductive Refusal where
  /-- An arm of exec that has no meaning yet. Safe: the machine stops. -/
  | notModelled (mnemonic : String)
deriving DecidableEq, Repr

/-- Memory: (address, byte) pairs in canonical form; an unlisted address reads as zero (R391 stage 4, R400). -/
abbrev Memory := List Host.Cell

/-! ## Threads (R24, R34, R56, R64) -/

/-- Pending hint state, one payload for each of the five kinds (R132, R134). -/
structure Hints where
  immx : Option (BitVec 22) := none
  modx : Option (BitVec 22) := none
  sched : Option (BitVec 22) := none
  tgt : Option (BitVec 22) := none
  conv : Option (BitVec 22) := none
deriving DecidableEq, Repr

/-- What a lane blocked in CWAIT waits for (R84, R85, R88). -/
structure CounterWait where
  handle : DWord
  threshold : DWord
  /-- The cycle at which the timeout expires, if the CWAIT carries one (R85). -/
  expiry : Option Nat
  /-- The predicate of the timeout form. -/
  pred : Option (BitVec 3)
  /-- The cycle of the next check, when the lane is a poller (R88). -/
  poller : Option Nat
  /-- The wait's own number, which its waiter entry and wakes carry (the model's own). -/
  op : Nat
deriving DecidableEq, Repr

/-- A replayable translation fault a lane is blocked on (R364). -/
structure ReplayFault where
  code : BitVec 8
  addr : DWord
  level : Nat
  cause : Nat
  /-- The report that covers it. -/
  report : Nat
deriving DecidableEq, Repr

/-- The thread states of R34. -/
inductive ThreadState where
  | runnable
  | waitCounter (w : CounterWait)
  /-- Class, k and the ISSUED value at the WAITE (R90, R370 table 6). -/
  | waitTicket (cls k issued : Nat)
  | replay (f : ReplayFault)
  | exited
deriving DecidableEq, Repr

/-- One thread of a crew. -/
structure Thread where
  /-- Byte offset from the code base (R185). -/
  pc : Word
  st : ThreadState
  /-- Stands outside the PC table while a completion step lasts (R440). -/
  outside : Bool
  /-- Word 0-15 are %g0-%g15; word 16 + 16f + e is entry e of physical frame f (R64, R370). Unlisted: 0. -/
  regs : List (Nat × Word)
  /-- Bit n is %pn; bit 0 always reads true (R56). -/
  preds : BitVec 8
  /-- %FPFLAGS (R63). -/
  fpflags : Word
  /-- WINSTATE.TRAP, LIMIT, LO and DEPTH (R64 table 4). -/
  trap : Bool
  limit : Bool
  lo : Nat
  depth : Nat
  /-- %SPILLB (R71). -/
  spillb : DWord
  /-- %TRAPINFO, %TRAPPC, %TRAPADDR (R62, R359). -/
  trapinfo : Word
  trappc : Word
  trapaddr : DWord
  hints : Hints
deriving DecidableEq, Repr

/-- A thread that has exited, the value a lane number outside the crew reads as. -/
def Thread.gone : Thread where
  pc := 0
  st := .exited
  outside := false
  regs := []
  preds := 1
  fpflags := 0
  trap := false
  limit := false
  lo := 0
  depth := 0
  spillb := 0
  trapinfo := 0
  trappc := 0
  trapaddr := 0
  hints := {}

/-! ## Faults on their way into a lane (R358, R359, R377) -/

/-- Why a translation fails (R377): LEVEL and CAUSE. -/
structure WalkFault where
  level : Nat
  cause : Nat
deriving DecidableEq, Repr

/-- A fault on its way into a lane: code, %TRAPADDR, user code, EXT byte, SRC, RESUME as an offset from the
faulting PC, and the walk's LEVEL and CAUSE (R358, R359). -/
structure Trap where
  code : BitVec 8
  addr : DWord := 0
  user : BitVec 6 := 0
  ext : BitVec 8 := 0
  src : BitVec 2 := 0
  resume : Word := 0
  walk : Option WalkFault := none
deriving DecidableEq, Repr

/-! ## Accesses under way -/

/-- A byte's address space (R294): global memory by physical address, the deck or operand buffer of a core. -/
inductive Space where
  | global
  | deck (core : Nat)
  | obuf (core : Nat)
  /-- A mailbox register: the line of an entry is then the target G (R370). -/
  | mailbox
deriving DecidableEq, Repr

/-- Where a value read by an access goes: owed registers of the scoreboard (R140) as physical entries. -/
inductive Dest where
  /-- One 32-bit thread register, the value zero- or sign-extended (R210). -/
  | regs (entries : List Nat) (signed : Bool)
  /-- A crew register, whole or low half with the high half cleared (R58). -/
  | kreg (k : Nat) (wide : Bool)
  /-- A predicate (R228). -/
  | pred (p : Nat)
  /-- The completion step of a number (R440). -/
  | step (id : Nat)
  | discard
deriving DecidableEq, Repr

/-- What a store-FIFO entry does where it is performed (R206, R370). -/
inductive EntryOp where
  | store
  | spill
  | record
  | atom (op : BitVec 4) (wide ret : Bool)
  | atomr (routine : Nat)
  | scadd (type : BitVec 2)
  | binapp
  | rput (mbox : Nat)
  | mcast (control : DWord)
  | cctl (op : Nat)
deriving DecidableEq, Repr

/-- One lane's operands in an atomic, deck-operation or mailbox entry (R370: 16 B per lane). -/
structure Item where
  lane : Nat
  /-- Virtual address, deck offset or global identifier as the lane gave it, for %TRAPADDR. -/
  va : DWord
  /-- Byte address within the entry's space. -/
  addr : Nat
  /-- Operand, and for CAS the new value. -/
  data : DWord
  data2 : DWord
  dest : Dest
  /-- Pending hints of the lane at the instruction, for a late fault (R132, R196). -/
  hints : Hints
deriving DecidableEq, Repr

/-- An entry of a crew's store FIFO: the accesses one stroke makes to one 128 B line (R206). -/
structure Entry where
  id : Nat
  op : EntryOp
  space : Space
  /-- Address of the line, or the target G of an RPUT. -/
  line : Nat
  /-- Bytes a store writes, by offset in the line. -/
  bytes : List (Nat × Byte)
  items : List Item
  /-- Lowest lane. -/
  lane : Nat
  /-- Access size in bytes. -/
  size : Nat
  /-- Path bit of a host-homed line (R345). -/
  cxl : Bool
  /-- Cache policy (R282). -/
  policy : Nat
  /-- The slice whose series its sequence number is of, and the number (R224, R285). -/
  series : Nat
  seq : Nat
  sent : Bool
  pc : Word
  cycle : Nat
  /-- The line's bytes as the entry left them where it was performed, which the core's L1 copy takes (R280). -/
  after : List Byte
deriving DecidableEq, Repr

/-- One lane's part of a load under way. -/
structure LaneLoad where
  lane : Nat
  va : DWord
  addr : Nat
  size : Nat
  /-- Byte j when it was taken from the crew's own store FIFO (R211). -/
  fwd : List (Option Byte)
  dest : Dest
  /-- The lanes that take this part's faults, each with its pending hints: the lane, or for LDK every active lane
  (R132, R207). -/
  takers : List (Nat × Hints)
  /-- Watched: the takers trap WATCH after the write (R362). -/
  watch : Bool
deriving DecidableEq, Repr

/-- A load under way: the accesses of one stroke to one line form one request (R278). -/
structure Load where
  id : Nat
  space : Space
  line : Nat
  lanes : List LaneLoad
  cxl : Bool
  policy : Nat
  pc : Word
  cycle : Nat
deriving DecidableEq, Repr

/-- What the operation of a counter instruction asks of the home (R228). -/
inductive CtrKind where
  | alloc (scope : Nat)
  | free
  | read
  | test
  | add (inc : Word)
  | addr (inc : Word)
  | wait
deriving DecidableEq, Repr

/-- A counter operation of a crew that its home has not yet answered (R82, R229, R441). -/
structure CtrOp where
  id : Nat
  kind : CtrKind
  handle : DWord
  threshold : DWord
  lanes : List Nat
  dest : Dest
  /-- Loads and atomics issued before it that an add of wider scope than crew waits for (R82). -/
  older : List Nat
  /-- Taken from the crew by its home, or in transit to another die's overflow area. -/
  taken : Bool
  lts : Nat
  pc : Word
  /-- Pending hints of its lanes at the instruction (R132, R196). -/
  hints : List (Nat × Hints)
  cycle : Nat
deriving DecidableEq, Repr

/-- The class of an engine command (R89). -/
inductive CmdClass where
  | copy | matrix | coll
deriving DecidableEq, Repr

/-- What a posting word posts (R230, R242). -/
inductive PostKind where
  | xcopy
  | mxcmd
  | mxtab (table : Nat) (addr : DWord)
  | coll (kind : Nat)
  | obres (record : Nat)
deriving DecidableEq, Repr

/-- A completion step under way (R440): its threads stand outside the PC table until it ends. -/
inductive StepKind where
  | eret
  | fillf
  | launch (addr : DWord)
  /-- A posting word: block from the deck at an offset, or the eight %k values read at issue. -/
  | post (kind : PostKind) (deckOff : Option Nat) (block : List Byte)
  | ctxsave (addr : DWord)
  | ctxload (addr : DWord)
  /-- A TLBI that waits for the accesses made with the translations it has invalidated (R379). -/
  | tlbi
deriving DecidableEq, Repr

/-- What a completion step's read has brought: its bytes, or the fault it meets (R440). -/
inductive StepData where
  | bytes (data : List Byte)
  | fault (t : Trap)
deriving DecidableEq, Repr

/-- A completion step and the threads that wait for it. -/
structure Pending where
  id : Nat
  kind : StepKind
  lanes : List Nat
  pc : Word
  cycle : Nat
  /-- Entries of the crew older than the word (R231). -/
  older : List Nat
  /-- Lanes whose read is still under way, and what the reads done have brought. -/
  due : List Nat
  got : List (Nat × StepData)
deriving DecidableEq, Repr

/-! ## Counters (R72 to R96) -/

/-- One counter (R75). -/
structure Counter where
  value : Nat
  live : Bool
  gen : Nat
  lts : Nat
  /-- The scope it was allocated with, which its status shows (R95). -/
  scope : Nat
deriving DecidableEq, Repr

/-- A counter that is not live and has stored generation 0 (R76). -/
def Counter.reset : Counter := ⟨0, false, 0, 0, 0⟩

/-- Who waits at a home (R84, R238, R324). -/
inductive WaitWho where
  | lanes (op : Nat)
  | carousel (core chan : Nat)
  | dependence (serial : Nat) (n : Nat)
  /-- A wait of another module, by its number there (R96). -/
  | peer (id : Nat)
deriving DecidableEq, Repr

/-- A waiter entry of a home, in registration order (R84, R86). -/
structure Waiter where
  index : Nat
  handle : DWord
  threshold : Nat
  who : WaitWho
deriving DecidableEq, Repr

/-- A counter home: its counters (unlisted: not live, generation 0) and its waiter list (R73, R87). -/
structure CtrHome where
  ctrs : List (Nat × Counter)
  waiters : List Waiter
  /-- The c in which the home served its latest operation, with that operation's place in the order of R86, and the waiters
  whose wakes it sent in that c, with their counter's index. -/
  served : Nat × Nat
  woken : List (Nat × WaitWho)
deriving DecidableEq, Repr

/-- A home that holds nothing. -/
def CtrHome.reset : CtrHome := ⟨[], [], (0, 0), []⟩

/-- A pending engine fault (R92): code, handle or address, and the remote or EXT byte. -/
structure EngFault where
  code : BitVec 8
  addr : DWord
  ext : BitVec 8
deriving DecidableEq, Repr

/-- A stream register (R256): lane l holds 1,024 bits. -/
structure Stream where
  lanes : List (Nat × BitVec 1024)
  tag : BitVec 16
  empty : Bool
  /-- (lane, word) pairs whose parity bit no longer matches (R271). -/
  bad : List (Nat × Nat)
deriving DecidableEq, Repr

/-- An empty stream register (R256). -/
def Stream.reset : Stream := ⟨[], 0, true, []⟩

/-- A stream operation in the core's queue (R259): the word's instruction with what it read at issue. -/
structure StreamOp where
  slot : Nat
  instr : Instr
  /-- Active lanes at issue. -/
  lanes : List Nat
  /-- Lanes of the crew that had exited at issue (R260). -/
  exited : List Nat
  /-- Thresholds by lane, or the uniform values an SSEED reads. -/
  vals : List DWord
  /-- Physical destination entry of each active lane. -/
  dests : List (Nat × Nat)
deriving DecidableEq, Repr

/-! ## Crews (R24) -/

/-- A waiting period: the first c in which the head run's word was ready, and that run (R43). -/
structure Period where
  since : Nat
  pc : Word
  lanes : List Nat
deriving DecidableEq, Repr

/-- A resident crew. -/
structure Crew where
  grid : Word
  team : Nat
  crew : Nat
  nCrew : Nat
  nTeam : Nat
  depth : Nat
  ctx : Nat
  cluster : Bool
  ldet : Bool
  /-- Code base CB and trap vector PC (R185, R196). -/
  cb : DWord
  trapv : Option Word
  deckBase : Nat
  deckSize : Nat
  nStreams : Nat
  /-- Spill-pool area a (R329). -/
  area : Nat
  threads : List Thread
  /-- %k0-%k15; unlisted: 0. -/
  kregs : List (Nat × DWord)
  /-- R69 tags in the order of R370: true for U. -/
  utags : BitVec 128
  ctrs : CtrHome
  /-- ISSUED and DONE of the copy, matrix and collective classes (R89). -/
  issued : List Nat
  done : List Nat
  efault : Option EngFault
  lost : Nat
  fifo : List Entry
  loads : List Load
  ctrOps : List CtrOp
  steps : List Pending
  /-- Logical time (R279). -/
  lts : Nat
  /-- %SLEN and stream registers as the engine holds them (R256, R257). -/
  slen : Nat
  streams : List Stream
  /-- The subcore's copy: length, tags and EMPTY flags as they will be (R318). -/
  scopyLen : Nat
  scopy : List (BitVec 16 × Bool)
  watch : List DWord
  /-- Join point of the latest CONVERGE (R425). -/
  join : Option Word
  /-- A PCIe-path write since the last system fence (R346). -/
  pcieWrites : Bool
  /-- Largest write time of completed commands by class, for WAITE (R305). -/
  cmdTime : List Nat
  /-- Commands completed before an older one of their class, as (class, ticket): DONE waits for it (R89). -/
  early : List (Nat × Nat)
  /-- The current waiting period (R43). -/
  period : Option Period
  /-- First cycle in which it may issue (R331, R438). -/
  startAt : Nat
  /-- Lanes whose register storage holds an uncorrectable word not yet read (R428). -/
  badLanes : List Nat
  /-- Instruction words fetched for the crew and not yet issued (R127): virtual address and word. -/
  fetched : Option (DWord × Word)
deriving DecidableEq, Repr

/-! ## Subcores and cores (R19) -/

/-- The count of R47 and R48 for one grid: its promised thread, the cycle from which the thread has been
runnable without issuing, and the subcore's issues since then. -/
structure Stall where
  grid : Nat
  g : Nat
  slot : Nat
  lane : Nat
  since : Nat
  issues : Nat
deriving DecidableEq, Repr

/-- Issue state of a subcore (R43, R44, R47 to R49). -/
structure Subcore where
  /-- Current crew in logically deterministic mode, and its issues since chosen. -/
  current : Option Nat
  budget : Nat
  /-- Counts of the promised threads of the resident grids. -/
  stalls : List Stall
  /-- The crew and PC that must issue next (R47, R48). -/
  forced : Option (Nat × Word)
  /-- Round-robin pointer of the store FIFOs (R298): the slot that sent last, and the c in which it did. -/
  lastSent : Nat
  sentAt : Option Nat
deriving DecidableEq, Repr

/-- A subcore at reset. -/
def Subcore.reset : Subcore := ⟨none, 0, [], none, 7, none⟩

/-- The stream generator modes of R124. -/
inductive GenMode where
  | xs | vdc | ramp
deriving DecidableEq, Repr

/-- A generator (R124): mode, seed, position P, 64 lane states. -/
structure Generator where
  mode : GenMode
  seed : DWord
  pos : Nat
  lanes : List DWord
deriving DecidableEq, Repr

/-- A reservation record's descriptor (R243). -/
structure ResRecord where
  base : Nat
  len : Nat
  fmt : Nat
  layout : Nat
  pitch : Nat
  bstr : Nat
  soff : Nat
  spitch : Nat
deriving DecidableEq, Repr

/-- A copy command in a channel (R235, R240). -/
structure CopyCmd where
  slot : Nat
  /-- Its number in its class: the crew's ISSUED after its posting (R89). -/
  ticket : Nat
  block : List Byte
  cnt : DWord
  lts : Nat
  /-- Entries of the crew that must be acknowledged before it reads (R231). -/
  older : List Nat
  started : Bool
  /-- All rows moved; completion is due. -/
  moved : Bool
  /-- Next row, and in carousel mode i0 and the next item (R241). -/
  row : Nat
  i0 : Nat
  item : Nat
  /-- An item's rows are written and its FILLED add is due. -/
  itemMoved : Bool
  /-- A wait on FREED is registered at its home for the next item. -/
  waiting : Bool
  /-- The replay report that its held access waits for (R232). -/
  held : Option Nat
  /-- The bytes of a row that has been read and is not yet written whole, and how many of them are written (R232, R237). -/
  part : Option (List Byte × Nat)
  /-- Largest write time among its writes (R305). -/
  wtime : Nat
  pcieWrites : Bool
deriving DecidableEq, Repr

/-- A command of the matrix FIFO (R245): MXCMD with its block, or MXTAB with table and address. -/
structure MatrixCmd where
  slot : Nat
  ticket : Nat
  table : Option (Nat × DWord)
  block : List Byte
  lts : Nat
  older : List Nat
  started : Bool
  done : Bool
  /-- Where a stopped command resumes: tile and K done, and whether a save area holds it (R249). -/
  tile : Nat
  kdone : Nat
  saved : Bool
  /-- Bias values, read when the command starts (R248). -/
  bias : List Word
  /-- The tile's elements are done: the next row of its outputs, and how many bytes of it are written (R232, R248). -/
  written : Option (Nat × Nat)
  held : Option Nat
  wtime : Nat
  pcieWrites : Bool
deriving DecidableEq, Repr

/-- A collective command at a collective engine (R251). -/
structure CollCmd where
  slot : Nat
  ticket : Nat
  core : Nat
  block : List Byte
  kind : Nat
  lts : Nat
  older : List Nat
  started : Bool
  done : Bool
  /-- When it was posted: the fc, and its place among the posts of one fc (R251). -/
  posted : Nat × Nat
  /-- What its RECV area is to receive, once the collective has started, and how many bytes of it are written (R252). -/
  data : List Byte
  written : Nat
  /-- Cycle of the rank's latest progress (R255). -/
  since : Nat
  wtime : Nat
  pcieWrites : Bool
  held : Option Nat
deriving DecidableEq, Repr

/-- A collective command withdrawn into a core image (R255, R371 COLLQ). -/
structure Withdrawn where
  area : Nat
  cmd : CollCmd
deriving DecidableEq, Repr

/-- A line copy held in an L1 or at a proxy slice (R280, R281). -/
structure LineCopy where
  data : List Byte
  wts : Nat
  rts : Nat
deriving DecidableEq, Repr

/-- The host snoops of R350. -/
inductive SnoopKind where
  | cur | data | inv
deriving DecidableEq, Repr

/-- What a request asks of a slice. -/
inductive ReqKind where
  /-- A load of a crew; `proxy` while it is at the proxy slice (R281). -/
  | load (slot id : Nat) (proxy : Bool)
  /-- A store-FIFO entry of a crew. -/
  | entry (slot id : Nat)
  /-- A prefetch of a line (R213): core and level. -/
  | prefetch (core level : Nat)
  /-- A host snoop that found the slice's own request for its line under way (R350). -/
  | snoop (kind : SnoopKind)
deriving DecidableEq, Repr

/-- A request in a slice's ingress queue or merged on a miss (R284). -/
structure Req where
  id : Nat
  core : Nat
  line : Nat
  kind : ReqKind
  lts : Nat
  policy : Nat
  cxl : Bool
  gen : Nat
  /-- Attempt number, counted from 1 (R287). -/
  attempt : Nat
deriving DecidableEq, Repr

/-- A request that a core resends when it is due (R287), or rehashes and resends (R290). -/
structure Retry where
  req : Req
  remap : Bool
  due : Nat
deriving DecidableEq, Repr

/-- A request in a deck's queue (R218): a load of a crew or an entry of a FIFO. -/
inductive DeckReq where
  | load (slot id : Nat)
  | entry (slot id : Nat)
deriving DecidableEq, Repr

/-- A translation cached in a TLB (R378): context, first virtual byte, size, physical page, permissions, HP. -/
structure TlbEntry where
  ctx : Nat
  va : Nat
  size : Nat
  pa : Nat
  perms : BitVec 3
  hp : Bool
deriving DecidableEq, Repr

/-- The ways of a set-associative cache (R283): way set × ways + k to the line in it, and node set × ways + n to the side
its tree pseudo-LRU bit points to (true: right). -/
structure Ways where
  held : List (Nat × Nat)
  tree : List (Nat × Bool)
deriving DecidableEq, Repr

/-- An empty cache. -/
def Ways.reset : Ways := ⟨[], []⟩

/-- A fully associative or set-associative translation cache with its tree pseudo-LRU bits (R378). -/
structure Tlb where
  ways : List (Nat × TlbEntry)
  tree : List (Nat × Bool)
deriving DecidableEq, Repr

/-- An empty TLB. -/
def Tlb.reset : Tlb := ⟨[], []⟩

/-- A relayed beat on its way into a target deck (R239, R289). -/
structure Beat where
  core : Nat
  chan : Nat
  ctx : Nat
  off : Nat
  data : List Byte
deriving DecidableEq, Repr

/-- A core. -/
structure Core where
  ctx : Option Nat
  ldet : Bool
  /-- A pre-emption request has reached the core (R52). -/
  preempt : Bool
  /-- The latest context of its crews, whose bytes it holds until it passes to another (R234, R317). -/
  last : Option Nat
  /-- Every engine has stopped for pre-emption (R53, R54). -/
  stopped : Bool
  deck : Memory
  obuf : Memory
  acc : Memory
  /-- Words of deck, operand buffer and accumulator store with an uncorrectable error (R428). -/
  badDeck : List Nat
  badObuf : List Nat
  badAcc : List Nat
  /-- (crew slot that the team's first crew took, base, size) of the placed teams' decks. -/
  placed : List (Nat × Nat × Nat)
  records : List (Nat × ResRecord)
  /-- Activation tables: word index (table × 512 + entry × 2 + half) to F32 bits (R117). -/
  acttab : List (Nat × Word)
  ctrs : CtrHome
  /-- The counters an empty crew slot keeps from its last crew, none live: their generations go on (R76, R193). -/
  slotCtrs : List (Nat × List (Nat × Counter))
  /-- Core counters allocated by crews: index to (grid, team), which parking asks for (R94). -/
  allocs : List (Nat × (Nat × Nat))
  gens : List (Nat × Generator)
  copyq : List (Nat × List CopyCmd)
  matrixq : List MatrixCmd
  streamq : List StreamOp
  deckq : List DeckReq
  beats : List Beat
  l1 : List (Nat × LineCopy)
  l1ways : Ways
  icache : List (Nat × List Byte)
  tlb : Tlb
  retry : List Retry
  /-- Copies of the requests that are not yet answered, and the requests that wait for room among them (R287). -/
  unanswered : List Req
  sendq : List Req
  /-- Next sequence number per slice, for atomics and for stores (R224, R285). -/
  atomSeq : List (Nat × Nat)
  storeSeq : List (Nat × Nat)
  softErrors : Nat
  subcores : List (Nat × Subcore)
  /-- Cycle at which the core may hold a team again (R234, R438). -/
  freeAt : Nat
deriving DecidableEq, Repr

/-- A core that no context holds. -/
def Core.reset : Core where
  ctx := none
  ldet := false
  preempt := false
  last := none
  stopped := false
  deck := []
  obuf := []
  acc := []
  badDeck := []
  badObuf := []
  badAcc := []
  placed := []
  records := []
  acttab := []
  ctrs := CtrHome.reset
  slotCtrs := []
  allocs := []
  gens := []
  copyq := []
  matrixq := []
  streamq := []
  deckq := []
  beats := []
  l1 := []
  l1ways := Ways.reset
  icache := []
  tlb := Tlb.reset
  retry := []
  unanswered := []
  sendq := []
  atomSeq := []
  storeSeq := []
  softErrors := 0
  subcores := []
  freeAt := 0

/-- A cluster (R76, R438). -/
structure Cluster where
  owner : Option Nat
  ctrs : CtrHome
  /-- Cycle since which its four cores have held no crew. -/
  idleSince : Nat
  gated : Bool
deriving DecidableEq, Repr

/-- A cluster at reset. -/
def Cluster.reset : Cluster := ⟨none, CtrHome.reset, 0, false⟩

/-- The unit that an add of no crew comes from (R81, R87, R91, R95, R96): an engine for a crew's command, the host by its
source, another module, or a unit whose lost adds are logged, with the context shown. -/
inductive AddSource where
  | engine (slot : Nat)
  | logged (source ctx : Nat)
  | peer
deriving DecidableEq, Repr

/-- What a die counter engine has taken on an overflow counter and not yet applied (R87). -/
inductive LateCtr where
  | op (slot : Nat) (o : CtrOp)
  | add (source : AddSource) (handle : DWord) (inc lts : Nat)
  | peer (op : PeerOp) (handle : DWord) (id : Nat)
deriving DecidableEq, Repr

/-- An operation on an overflow counter with the c in which it is applied (R87). -/
structure OverflowOp where
  late : LateCtr
  due : Nat
deriving DecidableEq, Repr

/-- A slice-map change on its way (R290). -/
structure MapChange where
  map : List Nat
  gen : Nat
  cycle : Nat
deriving DecidableEq, Repr

/-- A C-die's shared units. -/
structure Die where
  ctrs : CtrHome
  /-- Overflow pages granted (R74). -/
  pages : Nat
  overflow : List OverflowOp
  tlb : Tlb
  /-- MAP: bucket to local slice; an unlisted bucket b reads b mod 48 (R276). -/
  map : List (Nat × Nat)
  gen : Nat
  pending : Option MapChange
  collq : List CollCmd
  /-- (GROUP, SEQ) of the collectives that this die's member has ended (R254). -/
  collDone : List (Nat × Nat)
  /-- The memory-side LLC of the M-die linked to the C-die: its ways, and the lines newer there than in LPDDR-5X
  (R17, R18, R283). -/
  llc : Ways
  llcDirty : List Nat
  /-- Lines of page tables that the die's walkers have read, their use at their home slices still to come (R377; the
  model's own, log 7). -/
  walks : List Nat
deriving DecidableEq, Repr

/-- A C-die at reset (R276, R391 stage 4). -/
def Die.reset : Die where
  ctrs := CtrHome.reset
  pages := 0
  overflow := []
  tlb := Tlb.reset
  map := []
  gen := 0
  pending := none
  collq := []
  collDone := []
  llc := Ways.reset
  llcDirty := []
  walks := []

/-! ## Slices (R276 to R292) -/

/-- A line present at its home slice (R279, R282, R283, R345). -/
structure LineMeta where
  /-- Whether the slice holds the line; its times outlast an eviction (log 7). -/
  present : Bool
  wts : Nat
  rts : Nat
  dirty : Bool
  keep : Bool
  /-- Held exclusive or modified, for a host-homed line (R345). -/
  exclusive : Bool
  /-- Bytes of a host-homed line; device lines rest in `mem`. -/
  data : List Byte
deriving DecidableEq, Repr

/-- An atomic or routine being served at a slice (R222, R225): the request, ready to apply. -/
structure Serving where
  req : Req
deriving DecidableEq, Repr

/-- What a replay or store filter keeps (R224, R285): the source core, the slice whose series the number is of, the number,
an atomic's old values by lane, and the write time. -/
structure Filtered where
  core : Nat
  series : Nat
  seq : Nat
  results : List (Nat × DWord)
  wts : Nat
deriving DecidableEq, Repr

/-- A multicast list open for a line (R292): requests (crew slot, entry, the crew's LTS) and their targets (entry, core,
DOFF). -/
structure McastList where
  line : Nat
  reqs : List (Nat × Nat × Nat)
  targets : List (Nat × Nat × Nat)
deriving DecidableEq, Repr

/-- An L2 slice. -/
structure Slice where
  ingress : List Req
  /-- Miss-status entries: line to merged requests, oldest first. -/
  mshr : List (Nat × List Req)
  lines : List (Nat × LineMeta)
  copies : List (Nat × LineCopy)
  /-- The ways that the lines present and the sector copies take (R281, R283). -/
  ways : Ways
  replay : List Filtered
  /-- The store filter (R285). -/
  stores : List Filtered
  mcast : List McastList
  serving : List Serving
  /-- Retired (R290, R291); gating and its flush buffer of host-homed lines (R351). -/
  retired : Bool
  gating : Bool
  flush : List (Nat × List Byte)
  off : Bool
deriving DecidableEq, Repr

/-- A slice that holds nothing. -/
def Slice.reset : Slice where
  ingress := []
  mshr := []
  lines := []
  copies := []
  ways := Ways.reset
  replay := []
  stores := []
  mcast := []
  serving := []
  retired := false
  gating := false
  flush := []
  off := false

/-! ## Messages under way -/

/-- What a load's response carries (R211). -/
inductive LoadResult where
  | bytes (data : List Byte)
  /-- Bytes of a deck or operand buffer, with the lanes that read a word with an uncorrectable error (R428). -/
  | partly (data : List Byte) (bad : List Nat)
  | poison
  | linkdown
  | hostatom
  | remaplost
deriving DecidableEq, Repr

/-- What a home answers (R77, R80, R96). -/
inductive CtrResult where
  | ok (value : Nat) (lts : Nat)
  | blocked
  | fault (code : BitVec 8) (ext : BitVec 8) (value : Option Nat)
deriving DecidableEq, Repr

/-- A message on its way to a subcore, in no queue of a unit. -/
inductive Msg where
  | load (slot id : Nat) (result : LoadResult)
  /-- An atomic's or deck operation's returned values, or its fault, before the acknowledgement. -/
  | atomic (slot entry : Nat) (results : List (Nat × DWord)) (fault : Option (BitVec 8))
  | ack (slot entry : Nat) (wts : Nat)
  | mailbox (slot entry : Nat)
  | wake (op : Nat) (lts : Nat) (stale : Bool)
  | carouselWake (core chan : Nat) (lts : Nat) (stale : Bool)
  | dependenceWake (serial n lts : Nat) (stale : Bool)
  | answer (slot op : Nat) (result : CtrResult)
deriving DecidableEq, Repr

/-! ## The Ringmaster (R320 to R338, R367 to R373) -/

/-- Where a launch record came from. -/
inductive RecordSource where
  | window (wslot : Nat)
  | graph
  | child (parent : Nat) (depth : Nat)
deriving DecidableEq, Repr

/-- A launch record waiting in a queue (R320). -/
structure LaunchRecord where
  bits : BitVec 512
  addr : Nat
  source : RecordSource
  /-- Logical time of the launching crew (R202). -/
  lts : Nat
deriving DecidableEq, Repr

/-- A kick waiting for room (R338): its value, and the records of its graph once it has patched the image. -/
structure Kick where
  value : BitVec 64
  nodes : Option (List LaunchRecord)
deriving DecidableEq, Repr

/-- A queue (R327). -/
structure Queue where
  path : Bool
  en : Bool
  ctx : Nat
  prio : Nat
  records : List LaunchRecord
  children : List LaunchRecord
  kicks : List Kick
  arrivals : Nat
deriving DecidableEq, Repr

/-- A queue at reset. -/
def Queue.reset : Queue := ⟨false, false, 0, 0, [], [], [], 0⟩

/-- A context's registers and scheduling state (R328, R333, R367, R373). -/
structure Context where
  pool : Nat
  shift : Nat
  pcrews : Nat
  slice : Nat
  root : Nat
  replay : Bool
  priv : Bool
  img : Nat
  /-- Slice timer T, in c (R333). -/
  timer : Nat
  held : Bool
  debugger : Bool
  /-- A save of the whole context is under way. -/
  saving : Bool
  /-- Completion handles of CTXSAVEs that wait for the images, with the issuer's slot (R373). -/
  saveAdds : List (DWord × Nat)
deriving DecidableEq, Repr

/-- A context at reset (R328 table 6, R367 table 3). -/
def Context.reset : Context where
  pool := 0
  shift := 16
  pcrews := 0
  slice := 0
  root := 0
  replay := false
  priv := false
  img := 0
  timer := 0
  held := false
  debugger := false
  saving := false
  saveAdds := []

/-- An accepted grid that is not retired (R323 to R326). -/
structure Grid where
  serial : Nat
  queue : Nat
  ctx : Nat
  prio : Nat
  parent : Option Nat
  depth : Nat
  bits : BitVec 512
  /-- Where its record came from, for the event of a rejection (R322, R325). -/
  addr : Nat
  /-- Its completion counter, or 0 (R320). -/
  done : DWord
  /-- Dependences not yet met: slot 0-3, handle, threshold. -/
  unmet : List (Nat × DWord × Nat)
  started : Bool
  dispatched : Nat
  exited : Nat
  /-- Largest logical time its start acquired, and that its crews had at release (R324, R326). -/
  lts : Nat
  /-- Launched by the host, by a kick or through a launch window (R347). -/
  window : Bool
deriving DecidableEq, Repr

/-- A saved crew (R369 to R372): its state, entries not yet credited, and its image slot. -/
structure SavedCrew where
  crew : Crew
  oldSlot : Nat
  /-- The crew as the bytes of its image show it (R370). -/
  asSaved : Crew
deriving DecidableEq, Repr

/-- A saved core (R371): its shared state, the crews saved with it by pool area, the withdrawn collectives. -/
structure SavedCore where
  core : Core
  cluster : Option Cluster
  index : Nat
  imgSlot : Nat
  ctx : Nat
  crews : List SavedCrew
  collq : List Withdrawn
  /-- A parked team: crew images only (R372). -/
  parked : Bool
  /-- The last crew has been saved and the core's own bytes written (R371). -/
  whole : Bool
deriving DecidableEq, Repr

/-- The Ringmaster. -/
structure Ringmaster where
  serial : Nat
  queues : List (Nat × Queue)
  /-- Graph slot g: image address and queue (R337). -/
  graphs : List (Nat × (Nat × Nat))
  contexts : List (Nat × Context)
  grids : List Grid
  saved : List SavedCore
  /-- Spill-pool areas in use: (context, area). -/
  areas : List (Nat × Nat)
  /-- Launch-window slots as bytes: 8 KiB × queue + 128 × slot + offset (R335). -/
  window : Memory
  /-- Deliveries dropped for exited or undispatched targets (R227). -/
  dropped : Nat
deriving DecidableEq, Repr

/-! ## The Coxswain (R380 to R390) -/

/-- A posted call (R380, R384). -/
structure Call where
  number : Nat
  block : DWord
  /-- Context and privilege of a device post; none for the host. -/
  device : Option (Nat × Bool)
  /-- Its number in the order of posts (R380). -/
  order : Nat
deriving DecidableEq, Repr

/-- A context's arena and its live allocations (R387). -/
structure Arena where
  base : Nat
  size : Nat
  allocs : List (Nat × Nat)
deriving DecidableEq, Repr

/-- A registered counter notification (R386 call 12). -/
structure Notification where
  id : Nat
  handle : DWord
  threshold : Nat
  tag : Word
deriving DecidableEq, Repr

/-- A replay report (R364): context, address, access kind, level and cause, and whether it is answered. -/
structure Report where
  id : Nat
  ctx : Nat
  addr : DWord
  code : BitVec 8
  level : Nat
  cause : Nat
  /-- The crew slot and issue cycle of the instruction, whose lanes of one page share the report. -/
  slot : Nat
  issued : Nat
  answered : Bool
deriving DecidableEq, Repr

/-- An event raised and not yet written, with the cycle it is stamped with (R388, R431). -/
structure Event where
  source : Nat
  kind : Nat
  ctx : Nat
  data : List Byte
  cycle : Nat
deriving DecidableEq, Repr

/-- A collective group (R252): members (module, C-die) in rank order. -/
structure Group where
  id : Nat
  members : List (Nat × Nat)
deriving DecidableEq, Repr

/-- A member's command of a collective that another module posted (R252, R254). -/
structure RemotePost where
  group : Nat
  seq : Nat
  rank : Nat
  kind : Nat
  block : List Byte
  data : List Byte
deriving DecidableEq, Repr

/-- The Coxswain. -/
structure Coxswain where
  deviceq : List Call
  hostq : List Call
  moduleNo : Nat
  arenas : List (Nat × Arena)
  notes : List Notification
  nextNote : Nat
  ringBase : Nat
  ringRecords : Nat
  head : Nat
  tail : Nat
  evlost : Nat
  drops : Nat
  vectors : List (Nat × Nat)
  mask : DWord
  events : List Event
  /-- Cycle of each source's latest event (R431). -/
  stamps : List (Nat × Nat)
  reports : List Report
  nextReport : Nat
  /-- Routines: context × 64 + number to words (R225). -/
  routines : List (Nat × List Word)
  groups : List Group
  remotePosts : List RemotePost
  slogBase : Nat
  slogSize : Nat
  /-- Entries of the stranded-line log since it was set (R353). -/
  slogUsed : Nat
  /-- The board's spare flash slot (R386 call 47). -/
  flash : List Byte
deriving DecidableEq, Repr

/-- The Coxswain at reset. -/
def Coxswain.reset : Coxswain where
  deviceq := []
  hostq := []
  moduleNo := 0
  arenas := []
  notes := []
  nextNote := 0
  ringBase := 0
  ringRecords := 0
  head := 0
  tail := 0
  evlost := 0
  drops := 0
  vectors := []
  mask := 0
  events := []
  stamps := []
  reports := []
  nextReport := 1
  routines := []
  groups := []
  remotePosts := []
  slogBase := 0
  slogSize := 0
  slogUsed := 0
  flash := []

/-! ## Host links, boot pair, Turnstiles, fleet (R339 to R355, R391 to R438) -/

/-- An engine's channel, FIFO or group whose command makes an access. -/
inductive EngineUnit where
  | copy (core chan : Nat)
  | matrix (core : Nat)
  | coll (die group : Nat)
deriving DecidableEq, Repr

/-- What a request outstanding on PCIe is for (R345, R346, R355). -/
inductive PcieKind where
  | load
  | atomic
  /-- The read of an MCAST.LD. -/
  | mcast
  /-- The zero-length read of a FENCE of system scope. -/
  | fence
  /-- The zero-length read before the completion of an engine's command. -/
  | flush (unit : EngineUnit)
  /-- An engine's read of a line. -/
  | fetch (unit : EngineUnit) (line : Nat)
deriving DecidableEq, Repr

/-- The lanes of a FENCE or AtomicOp with their hints, and the word's PC, for a fault (R345, R352, R355). -/
structure LateOp where
  lanes : List (Nat × Hints)
  pc : Word
deriving DecidableEq, Repr

/-- A device request outstanding on PCIe: the crew slot, the load or entry it serves, its time. -/
structure PcieReq where
  id : Nat
  slot : Nat
  item : Nat
  kind : PcieKind
  sentAt : Nat
  late : Option LateOp
deriving DecidableEq, Repr

/-- The host links. -/
structure Links where
  slost : Nat
  scount : Nat
  pgen : Nat
  cgen : Nat
  pwid : Nat
  cwid : Nat
  cup : Bool
  pup : Bool
  cld : Bool
  pld : Bool
  /-- AtomicOp Requester Enable and the upper bound of the completion timeout range (R355), in c. -/
  atomicEnable : Bool
  timeout : Nat
  /-- The other registers of PCIe configuration space that a lock freezes, by number: the BARs, the Command register, the
  MSI-X table, the IDE registers (R397, log 59). -/
  config : List (Nat × BitVec 64)
  /-- Largest write time of the host's writes, which its later adds carry (R279, R347). -/
  hostTime : Nat
  pcie : List PcieReq
  /-- Lines that engines have read over PCIe for the access each is making, or the fault that came back (R345). -/
  fetched : List (EngineUnit × Nat × StepData)
  staging : List Byte
deriving DecidableEq, Repr

/-- TDISP states (R396). -/
inductive TdiState where
  | unlocked | locked | run | error
deriving DecidableEq, Repr

/-- Boot and trusted-interface state (R391 to R401). -/
structure Boot where
  /-- IDENT.BOOT (R342). -/
  stage : BitVec 8
  /-- IDENT.RVERIFY: the staged image is being verified (R342). -/
  rverify : Bool
  recov : Bool
  /-- The accepted image, until boot stage 3 has taken measurement 2 of it (R391). -/
  image : List Byte
  /-- Version, SVN of the accepted header, and its bytes' measurement. -/
  fwVersion : Nat
  fwSvn : Nat
  meas2 : BitVec 512
  meas5 : BitVec 512
  minSvn : Nat
  tdi : TdiState
  nonce : BitVec 256
  /-- IDE streams keyed (R395). -/
  ide : List Nat
  session : Bool
  lockstep : Bool
  thermtrip : Bool
deriving DecidableEq, Repr

/-- An admitted arrival (R407): source, access, admission cycle. -/
structure Arrival where
  source : Nat
  access : Access
  cycle : Nat
deriving DecidableEq, Repr

/-- The Turnstile and replay block (R407 to R421). -/
structure Replay where
  mode : Nat
  logres : Nat
  fullact : Bool
  /-- MODE and LOGRES in force since the latest start point. -/
  active : Bool
  curMode : Nat
  curLogres : Nat
  base : Nat
  diverge : Bool
  full : Bool
  head : Nat
  dcycle : Nat
  xmode : Nat
  stopcyc : Nat
  /-- STOPCYC has yet to freeze the package (R415). -/
  armed : Bool
  cause : Nat
  frozen : Bool
  scanCrc : Word
  scanBusy : Bool
  scanCode : Nat
  /-- What SCANSTAT shows once the operation under way ends: CODE and CRC (R417). -/
  scanNext : Nat × Word
  scannedIn : Bool
  epoch : Nat
  /-- The cycle of the epoch that the latest boot is still to reach (R406). -/
  epochAt : Option Nat
  sysoff : Int
  /-- Alignment under way: stamp t2 and t1', then t3 (R421). -/
  syncPort : Option Nat
  syncT1 : Int
  syncT2 : Nat
  syncT3 : Nat
  arrivals : List Arrival
  /-- Cycle and source of the latest admission stamp (R407, R411). -/
  stamped : Nat × Nat
  /-- CRC-32C of each source's egress so far, and how many of its checks are done (R414). -/
  digests : List (Nat × Word)
  checks : List (Nat × Nat)
  /-- Egress items that the digests already cover (the model's own). -/
  taken : Nat
deriving DecidableEq, Repr

/-- The replay block at reset (R409 table 2). -/
def Replay.reset : Replay where
  mode := 0
  logres := 0
  fullact := false
  active := false
  curMode := 0
  curLogres := 0
  base := 0
  diverge := false
  full := false
  head := 0
  dcycle := 0
  xmode := 1
  stopcyc := 0xFFFFFFFFFFFFFFFF
  armed := true
  cause := 0
  frozen := false
  scanCrc := 0
  scanBusy := false
  scanCode := 0
  scanNext := (0, 0)
  scannedIn := false
  epoch := 0
  epochAt := none
  sysoff := 0
  syncPort := none
  syncT1 := 0
  syncT2 := 0
  syncT3 := 0
  arrivals := []
  stamped := (0, 0)
  digests := []
  checks := []
  taken := 0

/-- Sampler, error counts, ports, power (R423 to R438). -/
structure Fleet where
  smpBase : Nat
  smpHead : Nat
  smpDrop : Nat
  smpActive : Bool
  smpBuf : Nat
  smpSize : Nat
  smpPeriod : Nat
  smpK : Nat
  /-- (structure × 4096 + unit) to corrected and uncorrectable counts and their last cycles (R429). -/
  ras : List (Nat × (Nat × Nat × Nat × Nat))
  /-- Port to state, peer, resent flits (R433). -/
  ports : List (Nat × (Nat × Nat × Nat))
  pwrcap : Nat
  stopped : Nat
  clockStopped : Bool
  /-- Refreshes done per M-die (R404). -/
  refreshes : List (Nat × Nat)
deriving DecidableEq, Repr

/-! ## The package -/

/-- Which agent moves next: a crew issues its head run, or one of the other agents takes its step. -/
inductive Move where
  | issue (slot : Nat)
  | event (i : Instr)
deriving DecidableEq, Repr

/-- What left the package towards the host, peers or the board. -/
inductive Egress where
  | reply (source : Nat) (value : BitVec 64)
  | data (source : Nat) (bytes : List Byte) (poison : Bool)
  | unsupported (source : Nat)
  | pcieRead (id addr : Nat)
  | pcieWrite (addr : Nat) (bytes : List (Nat × Byte))
  | pcieAtomic (id addr : Nat) (op : Nat) (wide : Bool) (v v2 : DWord)
  | pcieFlush
  | snoopMiss
  | snoopState
  | snoopBytes (bytes : List Byte)
  | msix (vector : Nat)
  | peerAdd (module_ : Nat) (handle : DWord) (inc : Word)
  | peerReply (fault : Nat)
  /-- A counter operation sent to another module (R96), and what a home of this module answers to one. -/
  | peerOp (module_ : Nat) (op : PeerOp) (handle : DWord) (lts : Nat)
  | peerAnswer (id fault value lts : Nat)
  | collective (module_ die : Nat) (bytes : List Byte)
  | spdm (bytes : List Byte)
  | tdisp (ok : Bool) (state : TdiState)
  | image (addr : Nat) (bytes : List Byte)
  | sync (t : Int)
  | dreq
  | thermtrip
  | nackFlit (port : Nat)
deriving DecidableEq, Repr

/-- Which crew the executing word belongs to and which lanes form its run (the model's own, log 1). -/
structure Issuer where
  slot : Nat
  lanes : List Nat
deriving DecidableEq, Repr

/-- A scan image (R418): what a scan-out writes of the package's state, held under its host address. -/
structure Image where
  addr : Nat
  serial : BitVec 64
  cycle : Nat
  epoch : Nat
  crc : Word
  /-- The header's section directory (R418). -/
  directory : List Byte
  crews : List (Nat × Crew)
  cores : List (Nat × Core)
  clusters : List (Nat × Cluster)
  dies : List (Nat × Die)
  slices : List (Nat × Slice)
  msgs : List (Nat × Msg)
  rm : Ringmaster
  cox : Coxswain
  fleet : Fleet
  ticks : Nat
  pcie : List PcieReq
  arrivals : List Arrival
  digests : List (Nat × Word)
  checks : List (Nat × Nat)
  /-- Device lines held dirty, with their bytes, and which of them are poisoned (R418). -/
  dirty : List (Nat × List Byte)
  poison : List Nat
  /-- What engines have read over PCIe for the access each is making, and the host's write time (R279, R345). -/
  fetched : List (EngineUnit × Nat × StepData)
  hostTime : Nat
deriving DecidableEq, Repr

/-- The whole machine. -/
structure State where
  /-- %CYCLE (R23). -/
  cycle : Nat
  /-- Multiples of 256 c at which the crews' logical times have ticked (R279). -/
  ticks : Nat
  /-- Index of the next free value (the model's own, log 2). -/
  fresh : Nat
  /-- Moves named from outside, first first (the model's own, log 1). -/
  agenda : List Move
  cur : Issuer
  egress : List Egress
  /-- Next identifier of a request, entry or load (the model's own). -/
  nextId : Nat
  /-- LPDDR-5X by physical address (R272). -/
  mem : Memory
  /-- Poisoned lines (R283, R428). -/
  poison : List Nat
  /-- Host memory by host physical address (R345). -/
  hostMem : Memory
  crews : List (Nat × Crew)
  cores : List (Nat × Core)
  clusters : List (Nat × Cluster)
  dies : List (Nat × Die)
  slices : List (Nat × Slice)
  msgs : List (Nat × Msg)
  rm : Ringmaster
  cox : Coxswain
  links : Links
  boot : Boot
  rpl : Replay
  fleet : Fleet
  /-- Scan images in host memory (R417, R418), latest first. -/
  images : List Image
deriving DecidableEq, Repr

/-- The Ringmaster at reset (R323, R327, R328, R335, R337). -/
def Ringmaster.reset : Ringmaster where
  serial := 0
  queues := []
  graphs := []
  contexts := []
  grids := []
  saved := []
  areas := []
  window := []
  dropped := 0

/-- The host links at reset (R343); generation and width stand for a link not yet trained. -/
def Links.reset : Links where
  slost := 0
  scount := 0
  pgen := 0
  cgen := 0
  pwid := 0
  cwid := 0
  cup := false
  pup := false
  cld := false
  pld := false
  atomicEnable := false
  timeout := 135000000
  config := []
  hostTime := 0
  pcie := []
  fetched := []
  staging := []

/-- The boot pair at reset (R342: BOOT 0x81; R394, R396). -/
def Boot.reset : Boot where
  stage := 0x81
  rverify := false
  recov := false
  image := []
  fwVersion := 0
  fwSvn := 0
  meas2 := 0
  meas5 := 0
  minSvn := Config.fusedMinimum
  tdi := .unlocked
  nonce := 0
  ide := []
  session := false
  lockstep := false
  thermtrip := false

/-- Sampler, error counts, ports and power at reset (R426, R429, R433, R436). -/
def Fleet.reset : Fleet where
  smpBase := 0
  smpHead := 0
  smpDrop := 0
  smpActive := false
  smpBuf := 0
  smpSize := 0
  smpPeriod := 0
  smpK := 0
  ras := []
  ports := []
  pwrcap := 2600
  stopped := 0
  clockStopped := false
  refreshes := []

/-- The machine right after reset release (R23, R342, R391). -/
def State.reset : State where
  cycle := 0
  ticks := 0
  fresh := 0
  agenda := []
  cur := ⟨0, []⟩
  egress := []
  nextId := 0
  mem := []
  poison := []
  hostMem := []
  crews := []
  cores := []
  clusters := []
  dies := []
  slices := []
  msgs := []
  rm := Ringmaster.reset
  cox := Coxswain.reset
  links := Links.reset
  boot := Boot.reset
  rpl := Replay.reset
  fleet := Fleet.reset
  images := []

end Sys2Proof.Machine
end

