-- ==== Sys2Proof/Machine/Flags.lean ====
section
/-! DEFINITION. The floating-point flags and the one rounding they come from (R63, R99 to R104): values as exact
dyadic numbers, rounded once to a format in a mode. -/

namespace Sys2Proof.Machine

/-- Flag bits of %FPFLAGS (R63 table 3). -/
def flagNV : Nat := 1
def flagDZ : Nat := 2
def flagOF : Nat := 4
def flagUF : Nat := 8
def flagNX : Nat := 16

/-- A floating-point format (R99): fraction bits, exponent bits. -/
structure Fmt where
  frac : Nat
  exp : Nat
deriving DecidableEq, Repr

def fmt16 : Fmt := ⟨10, 5⟩
def fmtB16 : Fmt := ⟨7, 8⟩
def fmt32 : Fmt := ⟨23, 8⟩
def fmt64 : Fmt := ⟨52, 11⟩

/-- The exponent bias, and the all-ones exponent field (R99). -/
def Fmt.bias (f : Fmt) : Nat := 2 ^ (f.exp - 1) - 1
def Fmt.ones (f : Fmt) : Nat := 2 ^ f.exp - 1

/-- Sign bit, infinity, largest finite and canonical NaN as bits (R99 table 2, R100). -/
def Fmt.signBit (f : Fmt) (neg : Bool) : Nat := if neg then 2 ^ (f.frac + f.exp) else 0
def Fmt.inf (f : Fmt) (neg : Bool) : Nat := f.signBit neg + f.ones * 2 ^ f.frac
def Fmt.largest (f : Fmt) (neg : Bool) : Nat := f.signBit neg + f.ones * 2 ^ f.frac - 1
def Fmt.nan (f : Fmt) : Nat := f.ones * 2 ^ f.frac + 2 ^ (f.frac - 1)

/-- The value of a floating-point number: a NaN, an infinity, or (−1)^neg × m × 2^e (R99). -/
inductive FVal where
  | nan (signalling : Bool)
  | inf (neg : Bool)
  | fin (neg : Bool) (m : Nat) (e : Int)
deriving DecidableEq, Repr

/-- The value of bits in a format (R99, R166 fv). -/
def Fmt.val (f : Fmt) (b : Nat) : FVal :=
  let neg := b.testBit (f.frac + f.exp)
  let ef := field b f.frac f.exp
  let fr := b % 2 ^ f.frac
  if ef = f.ones then
    if fr = 0 then .inf neg else .nan (!fr.testBit (f.frac - 1))
  else if ef = 0 then .fin neg fr (1 - (f.bias : Int) - f.frac)
  else .fin neg (fr + 2 ^ f.frac) ((ef : Int) - f.bias - f.frac)
where
  /-- Bits of a number. -/
  field (v lo n : Nat) : Nat := v / 2 ^ lo % 2 ^ n

/-- Whether a discarded part rounds the magnitude up (R101): mode 0 RNE, 1 RTZ, 2 RDN, 3 RUP. -/
def roundsUp (rm : Nat) (neg : Bool) (q rem half : Nat) : Bool :=
  match rm with
  | 0 => decide (half < rem) || (rem == half && q % 2 == 1)
  | 1 => false
  | 2 => neg && rem != 0
  | _ => !neg && rem != 0

/-- A magnitude m × 2^e rounded to a multiple of 2^q: the multiple, and whether it is inexact. -/
def roundAt (rm : Nat) (neg : Bool) (m : Nat) (e q : Int) : Nat × Bool :=
  if q ≤ e then (m * 2 ^ (e - q).toNat, false)
  else
    let k := (q - e).toNat
    let r := m % 2 ^ k
    let t := m / 2 ^ k
    (if roundsUp rm neg t r (2 ^ (k - 1)) then t + 1 else t, r != 0)

/-- The overflow result of R101 table 3. -/
def Fmt.overflow (f : Fmt) (rm : Nat) (neg : Bool) : Nat :=
  match rm with
  | 0 => f.inf neg
  | 1 => f.largest neg
  | 2 => if neg then f.inf neg else f.largest neg
  | _ => if neg then f.largest neg else f.inf neg

/-- An exact dyadic value rounded once to a format (R101 to R103): bits and flags. A zero keeps its sign. -/
def Fmt.round (f : Fmt) (rm : Nat) (neg : Bool) (m : Nat) (e : Int) : Nat × Nat :=
  if m = 0 then (f.signBit neg, 0)
  else
    let top := e + Nat.log2 m
    let emin : Int := 1 - (f.bias : Int)
    let q := max top emin - f.frac
    let r := roundAt rm neg m e q
    let u := roundAt rm neg m e (top - f.frac)
    let tiny := decide ((Nat.log2 u.1 : Int) + (top - f.frac) < emin)
    if r.1 ≠ 0 ∧ (f.bias : Int) < Nat.log2 r.1 + q then (f.overflow rm neg, flagOF ||| flagNX)
    else
      let fl := (if r.2 then flagNX else 0) ||| (if tiny && r.2 then flagUF else 0)
      if r.1 < 2 ^ f.frac then (f.signBit neg + r.1, fl)
      else if r.1 < 2 ^ (f.frac + 1) then
        (f.signBit neg + (q + f.frac + f.bias).toNat * 2 ^ f.frac + (r.1 - 2 ^ f.frac), fl)
      else (f.signBit neg + (q + 1 + f.frac + f.bias).toNat * 2 ^ f.frac, fl)

/-- NV when an input is a signalling NaN (R100). -/
def FVal.snan : FVal → Bool
  | .nan s => s
  | _ => false

/-- Whether a value is a NaN. -/
def FVal.isNan : FVal → Bool
  | .nan _ => true
  | _ => false

/-- The flag NV, or none. -/
def nvIf (b : Bool) : Nat := if b then flagNV else 0

end Sys2Proof.Machine
end

