-- ==== Sys2Proof/Machine/Float.lean ====
section
/-! DEFINITION. Floating-point arithmetic (R99 to R108, R119 to R121): every operation as bits and flags, exact and
rounded once, and the special functions step by step in binary64. -/

namespace Sys2Proof.Machine

/-- A canonical NaN result (R100). -/
def Fmt.nanResult (f : Fmt) (nv : Bool) : Nat × Nat := (f.nan, nvIf nv)

/-- The exact sum of two dyadic numbers; an exact zero takes its sign from R121. -/
def Fmt.sum (f : Fmt) (rm : Nat) (na : Bool) (ma : Nat) (ea : Int) (nb : Bool) (mb : Nat) (eb : Int) :
    Nat × Nat :=
  let e := min ea eb
  let a : Int := (if na then -1 else 1) * (ma * 2 ^ (ea - e).toNat : Nat)
  let b : Int := (if nb then -1 else 1) * (mb * 2 ^ (eb - e).toNat : Nat)
  let t := a + b
  if t = 0 then
    (f.signBit (if ma = 0 ∧ mb = 0 ∧ na = nb then na else rm == 2), 0)
  else f.round rm (decide (t < 0)) t.natAbs e

/-- The sum of two values (R102, R103, R180). -/
def Fmt.addVal (f : Fmt) (rm : Nat) (a b : FVal) : Nat × Nat :=
  match a, b with
  | .nan s, y => f.nanResult (s || y.snan)
  | x, .nan s => f.nanResult (s || x.snan)
  | .inf p, .inf q => if p = q then (f.inf p, 0) else f.nanResult true
  | .inf p, _ => (f.inf p, 0)
  | _, .inf q => (f.inf q, 0)
  | .fin na ma ea, .fin nb mb eb => f.sum rm na ma ea nb mb eb

/-- A value with its sign changed. -/
def FVal.neg : FVal → FVal
  | .nan s => .nan s
  | .inf n => .inf (!n)
  | .fin n m e => .fin (!n) m e

/-- FADD, FSUB (R180). -/
def Fmt.add (f : Fmt) (rm a b : Nat) : Nat × Nat := f.addVal rm (f.val a) (f.val b)
def Fmt.sub (f : Fmt) (rm a b : Nat) : Nat × Nat := f.addVal rm (f.val a) (f.val b).neg

/-- The exact product of two values, NaNs aside: none where it is 0 × ∞ (R180). -/
def FVal.mul : FVal → FVal → Option FVal
  | .inf p, .inf q => some (.inf (p != q))
  | .inf p, .fin n m _ => if m = 0 then none else some (.inf (p != n))
  | .fin n m _, .inf p => if m = 0 then none else some (.inf (p != n))
  | .fin na ma ea, .fin nb mb eb => some (.fin (na != nb) (ma * mb) (ea + eb))
  | _, _ => none

/-- FMUL (R180). -/
def Fmt.mul (f : Fmt) (rm a b : Nat) : Nat × Nat :=
  let x := f.val a
  let y := f.val b
  if x.isNan || y.isNan then f.nanResult (x.snan || y.snan)
  else
    match x.mul y with
    | none => f.nanResult true
    | some (.inf n) => (f.inf n, 0)
    | some (.fin n m e) => f.round rm n m e
    | some (.nan s) => f.nanResult s

/-- FFMA (R180): one rounding; 0 × ∞ is invalid even when c is a quiet NaN. -/
def Fmt.fma (f : Fmt) (rm a b c : Nat) : Nat × Nat :=
  let x := f.val a
  let y := f.val b
  let z := f.val c
  if x.isNan || y.isNan then f.nanResult (x.snan || y.snan || z.snan)
  else
    match x.mul y with
    | none => f.nanResult true
    | some p => f.addVal rm p z

/-- a < b for values that are no NaNs, −0 below +0 when `zeros` (R103, R182). -/
def FVal.lt (zeros : Bool) : FVal → FVal → Bool
  | .inf p, .inf q => p && !q
  | .inf p, _ => p
  | _, .inf q => !q
  | .fin na ma ea, .fin nb mb eb =>
    let e := min ea eb
    let a : Int := (if na then -1 else 1) * (ma * 2 ^ (ea - e).toNat : Nat)
    let b : Int := (if nb then -1 else 1) * (mb * 2 ^ (eb - e).toNat : Nat)
    decide (a < b) || (zeros && ma == 0 && mb == 0 && na && !nb)
  | _, _ => false

/-- FMIN and FMAX (R103). -/
def Fmt.minmax (f : Fmt) (max : Bool) (a b : Nat) : Nat × Nat :=
  let x := f.val a
  let y := f.val b
  let nv := nvIf (x.snan || y.snan)
  if x.isNan && y.isNan then (f.nan, nv)
  else if x.isNan then (b, nv)
  else if y.isNan then (a, nv)
  else if max then (if x.lt true y then b else a, 0)
  else (if y.lt true x then b else a, 0)

/-- FDIV (R181). The quotient is taken with more bits than any format holds and a sticky bit. -/
def Fmt.div (f : Fmt) (rm a b : Nat) : Nat × Nat :=
  match f.val a, f.val b with
  | .nan s, y => f.nanResult (s || y.snan)
  | x, .nan s => f.nanResult (s || x.snan)
  | .inf _, .inf _ => f.nanResult true
  | .inf p, .fin n _ _ => (f.inf (p != n), 0)
  | .fin n _ _, .inf p => (f.signBit (n != p), 0)
  | .fin na ma ea, .fin nb mb eb =>
    if mb = 0 then
      if ma = 0 then f.nanResult true else (f.inf (na != nb), flagDZ)
    else if ma = 0 then (f.signBit (na != nb), 0)
    else
      let n := ma * 2 ^ 120
      f.round rm (na != nb) (2 * (n / mb) + if n % mb = 0 then 0 else 1) (ea - eb - 121)

/-- The largest r whose square is at most n, found bit by bit from bit k. -/
def sqrtBits (n : Nat) : Nat → Nat → Nat
  | 0, r => r
  | k + 1, r => let t := r + 2 ^ k; sqrtBits n k (if t * t ≤ n then t else r)

/-- FSQRT (R181). -/
def Fmt.sqrt (f : Fmt) (rm a : Nat) : Nat × Nat :=
  match f.val a with
  | .nan s => f.nanResult s
  | .inf n => if n then f.nanResult true else (f.inf false, 0)
  | .fin n m e =>
    if m = 0 then (f.signBit n, 0)
    else if n then f.nanResult true
    else
      let odd := e % 2 != 0
      let v := m * 2 ^ (120 + if odd then 1 else 0)
      let h := (e - (if odd then 1 else 0) - 120) / 2
      let r := sqrtBits v 90 0
      f.round rm false (2 * r + if r * r = v then 0 else 1) (h - 1)

/-- FRCP (R181). -/
def Fmt.rcp (f : Fmt) (rm a : Nat) : Nat × Nat :=
  match f.val a with
  | .nan s => f.nanResult s
  | .inf n => (f.signBit n, 0)
  | .fin n m e =>
    if m = 0 then (f.inf n, flagDZ)
    else
      let t := 2 ^ 120
      f.round rm n (2 * (t / m) + if t % m = 0 then 0 else 1) (-e - 121)

/-- FROUND (R181): an integral value in the mode, a zero result keeping the sign. -/
def Fmt.toIntegral (f : Fmt) (rm a : Nat) : Nat × Nat :=
  match f.val a with
  | .nan s => f.nanResult s
  | .inf _ => (a, 0)
  | .fin n m e =>
    if m = 0 then (a, 0)
    else
      let r := roundAt rm n m e (max e 0)
      ((f.round rm n r.1 (max e 0)).1, if r.2 then flagNX else 0)

/-- FCLASS (R181): exactly one bit set. -/
def Fmt.classify (f : Fmt) (a : Nat) : Nat :=
  match f.val a with
  | .nan s => if s then 256 else 512
  | .inf n => if n then 1 else 128
  | .fin n m _ =>
    if m = 0 then (if n then 8 else 16)
    else if m < 2 ^ f.frac then (if n then 4 else 32)
    else if n then 2 else 64

/-- FCMP (R182): the truth of a condition code, and NV. -/
def Fmt.compare (f : Fmt) (cc a b : Nat) : Bool × Nat :=
  let x := f.val a
  let y := f.val b
  let un := x.isNan || y.isNan
  let quiet := nvIf (x.snan || y.snan)
  let lt := !un && x.lt false y
  let gt := !un && y.lt false x
  match cc with
  | 0 => (!un && !lt && !gt, quiet)
  | 1 => (un || lt || gt, quiet)
  | 2 => (lt, nvIf un)
  | 3 => (!un && !gt, nvIf un)
  | 4 => (gt, nvIf un)
  | 5 => (!un && !lt, nvIf un)
  | 6 => (un, quiet)
  | _ => (!un, quiet)

/-- A value converted to a format (R104 float to float). -/
def Fmt.ofVal (f : Fmt) (rm : Nat) : FVal → Nat × Nat
  | .nan s => f.nanResult s
  | .inf n => (f.inf n, 0)
  | .fin n m e => f.round rm n m e

/-- Float to integer (R104): the result as an integer in lo to hi. -/
def toInt (rm : Nat) (lo hi : Int) : FVal → Int × Nat
  | .nan _ => (0, flagNV)
  | .inf n => (if n then lo else hi, flagNV)
  | .fin n m e =>
    let r := roundAt rm n m e (max e 0)
    let v : Int := (if n then -1 else 1) * (r.1 * 2 ^ (max e 0).toNat : Nat)
    if v < lo then (lo, flagNV)
    else if hi < v then (hi, flagNV)
    else (v, if r.2 then flagNX else 0)

/-- Integer to float (R104). -/
def Fmt.ofInt (f : Fmt) (rm : Nat) (v : Int) : Nat × Nat := f.round rm (decide (v < 0)) v.natAbs 0

/-! ## Special functions (R105 to R108): binary64 operations rounded with RNE -/

/-- One binary64 operation each. -/
def mul64 (a b : Nat) : Nat := (fmt64.mul 0 a b).1
def add64 (a b : Nat) : Nat := (fmt64.add 0 a b).1
def sub64 (a b : Nat) : Nat := (fmt64.sub 0 a b).1
def div64 (a b : Nat) : Nat := (fmt64.div 0 a b).1

/-- The binary64 nearest to n / 10^k, the meaning of a printed decimal constant (R105). -/
def dec64 (n k : Nat) : Nat :=
  (fmt64.round 0 false (2 * (n * 2 ^ 200 / 10 ^ k) + if n * 2 ^ 200 % 10 ^ k = 0 then 0 else 1) (-201)).1

/-- The F32 rounding of a binary64 value scaled by 2^k, the last step of each procedure (R105). -/
def scaleTo32 (rm w : Nat) (k : Int) : Nat × Nat :=
  match fmt64.val w with
  | .fin n m e => fmt32.round rm n m (e + k)
  | v => fmt32.ofVal rm v

/-- The Newton steps of FRSQ (R106). -/
def frsqStep (m y : Nat) : Nat :=
  let a := mul64 m y
  let b := mul64 a y
  let c := sub64 (dec64 15 1) (mul64 (dec64 5 1) b)
  mul64 y c

/-- FRSQ (R106). -/
def frsq (rm a : Nat) : Nat × Nat :=
  match fmt32.val a with
  | .nan s => fmt32.nanResult s
  | .inf n => if n then fmt32.nanResult true else (0, 0)
  | .fin n m e =>
    if m = 0 then (fmt32.inf n, flagDZ)
    else if n then fmt32.nanResult true
    else
      let l := Nat.log2 m
      let ex := e + l
      if m = 2 ^ l ∧ ex % 2 = 0 then fmt32.round rm false 1 (-(ex / 2))
      else
        let odd := ex % 2 != 0
        let m64 := (fmt64.round 0 false m (-(l : Int) + if odd then 1 else 0)).1
        let h := if odd then (ex - 1) / 2 else ex / 2
        let i := m * 2 ^ (if odd then 2 else 1) / 2 ^ l - 2
        let seed := dec64 ([89, 76, 67, 60, 55, 52].getD i 52) 2
        let y := frsqStep m64 (frsqStep m64 (frsqStep m64 (frsqStep m64 seed)))
        scaleTo32 rm y (-h)

/-- The table of FEX2 (R107), as decimals with 16 fraction digits. -/
def fex2Table : List Nat :=
  [10000000000000000, 10905077326652577, 11892071150027210, 12968395546510096, 14142135623730951,
   15422108254079408, 16817928305074290, 18340080864093424]

/-- FEX2 (R107). -/
def fex2 (rm a : Nat) : Nat × Nat :=
  let one := fmt32.round 0 false 1 0
  match fmt32.val a with
  | .nan s => fmt32.nanResult s
  | .inf n => if n then (0, 0) else (fmt32.inf false, 0)
  | .fin n m e =>
    if m = 0 then (one.1, 0)
    else if !n && !(FVal.fin n m e).lt false (.fin false 128 0) then (fmt32.overflow rm false, flagOF ||| flagNX)
    else if (FVal.fin n m e).lt false (.fin true 150 0) then (if rm = 3 then 1 else 0, flagUF ||| flagNX)
    else
      let r := roundAt 2 n m (e + 3) (max (e + 3) 0)
      let k : Int := (if n then -1 else 1) * (r.1 * 2 ^ (max (e + 3) 0).toNat : Nat)
      let j := k % 8
      let t := fmt64.sum 0 n m (e + 3) (decide (0 ≤ k)) k.natAbs 0
      let f := match fmt64.val t.1 with
        | .fin n m e => if m = 0 then 0 else (fmt64.round 0 n m (e - 3)).1
        | _ => 0
      let p := add64 (mul64 f (dec64 13333558146428443 19)) (dec64 9618129107628477 18)
      let p := add64 (mul64 f p) (dec64 5550410866482158 17)
      let p := add64 (mul64 f p) (dec64 2402265069591007 16)
      let p := add64 (mul64 f p) (dec64 6931471805599453 16)
      let p := add64 (mul64 f p) (dec64 1 0)
      let v := mul64 (dec64 (fex2Table.getD j.toNat 0) 16) p
      let w := scaleTo32 rm v ((k - j) / 8)
      if r.2 || j ≠ 0 then (w.1, w.2 ||| flagNX) else w

/-- FLG2 (R108). -/
def flg2 (rm a : Nat) : Nat × Nat :=
  match fmt32.val a with
  | .nan s => fmt32.nanResult s
  | .inf n => if n then fmt32.nanResult true else (fmt32.inf false, 0)
  | .fin n m e =>
    if m = 0 then (fmt32.inf true, flagDZ)
    else if n then fmt32.nanResult true
    else
      let l := Nat.log2 m
      let ex := e + l
      if m = 2 ^ l then
        if ex = 0 then (0, 0) else fmt32.ofInt rm ex
      else
        let m64 := (fmt64.round 0 false m (-(l : Int))).1
        let big := !(fmt64.val m64).lt false (fmt64.val (dec64 14142135623730951 16))
        let m64 := if big then (fmt64.round 0 false m (-(l : Int) - 1)).1 else m64
        let ex := if big then ex + 1 else ex
        let one := dec64 1 0
        let sv := div64 (sub64 m64 one) (add64 m64 one)
        let z := mul64 sv sv
        let q := add64 (mul64 z (dec64 9090909090909091 17)) (dec64 1111111111111111 16)
        let q := add64 (mul64 z q) (dec64 14285714285714285 17)
        let q := add64 (mul64 z q) (dec64 2 1)
        let q := add64 (mul64 z q) (dec64 3333333333333333 16)
        let q := add64 (mul64 z q) one
        let w := add64 (fmt64.ofInt 0 ex).1 (mul64 (dec64 28853900817779268 16) (mul64 sv q))
        let r := fmt32.ofVal rm (fmt64.val w)
        (r.1, r.2 ||| flagNX)

/-! ## Reductions (R119 to R121) -/

/-- The halves of a list added pairwise, with the flags of each addition. -/
def pairUp (op : Nat → Nat → Nat × Nat) : List Nat → List Nat × Nat
  | a :: b :: t =>
    let r := op a b
    let u := pairUp op t
    (r.1 :: u.1, r.2 ||| u.2)
  | l => (l, 0)

/-- The tree over 2^h values (R119): adjacent values are combined level by level. -/
def treeOf (op : Nat → Nat → Nat × Nat) : Nat → List Nat → List Nat × Nat
  | 0, l => (l, 0)
  | h + 1, l =>
    let u := pairUp op l
    let v := treeOf op h u.1
    (v.1, u.2 ||| v.2)

/-- Pad a list to n values. -/
def padTo (d : Nat) : Nat → List Nat → List Nat
  | 0, _ => []
  | n + 1, [] => d :: padTo d n []
  | n + 1, a :: t => a :: padTo d n t

/-- The least h with n ≤ 2^h. -/
def ceilLog2 (n : Nat) : Nat := if n ≤ 1 then 0 else Nat.log2 (n - 1) + 1

/-- The values in chunks of 256, for c chunks. -/
def chunks (v : List Nat) : Nat → List (List Nat)
  | 0 => []
  | c + 1 => v.take 256 :: chunks (v.drop 256) c

/-- canonical_reduce under addition (R119): chunks of 256, then the tree over the chunk values. -/
def canonicalSum (f : Fmt) (rm : Nat) (v : List Nat) : Nat × Nat :=
  if v.isEmpty then (0, 0)
  else
    let nz := f.signBit true
    let c := (v.length + 255) / 256
    let parts := (chunks v c).map fun l => treeOf (f.add rm) 8 (padTo nz 256 l)
    let tops := parts.map fun p => p.1.headD nz
    let h := ceilLog2 c
    let r := treeOf (f.add rm) h (padTo nz (2 ^ h) tops)
    (r.1.headD nz, parts.foldl (fun a p => a ||| p.2) r.2)

/-- Combine two possibly absent values (R120). -/
def pairOpt (op : Nat → Nat → Nat × Nat) : List (Option Nat) → List (Option Nat) × Nat
  | some a :: some b :: t =>
    let r := op a b
    let u := pairOpt op t
    (some r.1 :: u.1, r.2 ||| u.2)
  | some a :: none :: t => let u := pairOpt op t; (some a :: u.1, u.2)
  | none :: b :: t => let u := pairOpt op t; (b :: u.1, u.2)
  | l => (l, 0)

/-- The tree with absent leaves (R120). -/
def treeOpt (op : Nat → Nat → Nat × Nat) : Nat → List (Option Nat) → List (Option Nat) × Nat
  | 0, l => (l, 0)
  | h + 1, l =>
    let u := pairOpt op l
    let v := treeOpt op h u.1
    (v.1, u.2 ||| v.2)

/-- A minimum or maximum reduction (R120): an empty one gives the canonical NaN, and so does a NaN root. -/
def canonicalMinmax (f : Fmt) (max : Bool) (v : List (Option Nat)) : Nat × Nat :=
  let h := ceilLog2 v.length
  let r := treeOpt (f.minmax max) h (v ++ (List.replicate (2 ^ h - v.length) none))
  match r.1.headD none with
  | none => (f.nan, r.2)
  | some x => (if (f.val x).isNan then f.nan else x, r.2)

end Sys2Proof.Machine
end

