-- ==== Sys2Proof/WellFormed.lean ====
section
/-! DEFINITION. When an instruction is well formed: operand classes (R57, R60, R152), guards (R130),
reserved selector values (R133, R136 to R138, R156 to R164), assigned special registers (R62, R368), and
the ranges of the unit numbers in the other steps (R14, R24, R86, R327, R328). -/

namespace Sys2Proof

/-- The operand classes of R152; the NK classes are destinations that must not name %k (R60). -/
inductive Cls where
  | one | pair | quad | uni | oneNK | pairNK | quadNK
deriving DecidableEq, Repr

/-- The field values a class allows (R152 table 2, R57, R60). -/
def Cls.admits : Cls → Reg → Bool
  | .one, _ => true
  | .pair, f => decide (48 ≤ f.toNat) || decide (f.toNat % 2 = 0)
  | .quad, f => decide (f.toNat < 48 ∧ f.toNat % 4 = 0) || decide (48 ≤ f.toNat ∧ f.toNat % 2 = 0)
  | .uni, f => decide (48 ≤ f.toNat)
  | .oneNK, f => decide (f.toNat < 48)
  | .pairNK, f => decide (f.toNat < 48 ∧ f.toNat % 2 = 0)
  | .quadNK, f => decide (f.toNat < 48 ∧ f.toNat % 4 = 0)

/-- The register fields an operand covers, from its first (R57, R152). Field 0 as a pair is the 64-bit zero and no
other register. -/
def Cls.fields : Cls → Reg → List Reg
  | .one, f | .oneNK, f | .uni, f => [f]
  | .pair, f | .pairNK, f => if 48 ≤ f.toNat ∨ f = 0 then [f] else [f, f + 1]
  | .quad, f | .quadNK, f => if 48 ≤ f.toNat then [f, f + 1] else [f, f + 1, f + 2, f + 3]

/-- One register operand of an instruction: its field, its class, whether it is written and read. -/
structure Operand where
  field : Reg
  cls : Cls
  written : Bool
  read : Bool
deriving DecidableEq, Repr

/-- W of ICMP: 1 compares pairs (R156). -/
def wideCls (w : BitVec 1) : Cls := if w = 1 then .pair else .one

/-- TYPE of FRED and FCMP: 1 is F64, a pair (R156, R157). -/
def fpCls (t : BitVec 2) : Cls := if t = 1 then .pair else .one

/-- FCVT type codes 2, 3 and 7 are 64 bits wide (R183). -/
def cvtCls (t : BitVec 4) : Cls := if t = 2 ∨ t = 3 ∨ t = 7 then .pair else .one

/-- SCADD TYPE 2 and 3 are 64 bits wide (R219). -/
def scaddCls (t : BitVec 2) : Cls := if 2 ≤ t.toNat then .pair else .one

/-- The numbers of the special registers that are 64 bits wide (R62 table 2, R368). -/
def csrWide (n : BitVec 10) : Bool :=
  n = 0x010 || n = 0x032 || n = 0x041 || n = 0x201 || (decide (0x210 ≤ n.toNat) && decide (n.toNat ≤ 0x213))

/-- The register a CSRR or CSRW field names: a pair when the register is 64 bits wide and the field is
even and below 48, one register otherwise (R204). -/
def csrCls (n : BitVec 10) (f : Reg) : Cls :=
  if csrWide n ∧ f.toNat < 48 ∧ f.toNat % 2 = 0 then .pair else .one

/-- The data operand of ATOM: W chooses one or pair; RET makes it a destination, which must not name %k
(R162, R221). -/
def atomOperand (w r : BitVec 1) (x : Reg) : Operand :=
  if r = 1 then ⟨x, if w = 1 then .pairNK else .oneNK, true, true⟩
  else ⟨x, if w = 1 then .pair else .one, false, true⟩

/-- The data operand of CAS: pair, or quad with W (R162, R221). -/
def casOperand (w r : BitVec 1) (x : Reg) : Operand :=
  if r = 1 then ⟨x, if w = 1 then .quadNK else .pairNK, true, true⟩
  else ⟨x, if w = 1 then .quad else .pair, false, true⟩

/-- The register operands of every word (R152 to R164). Steps that are no words have none. -/
def Instr.operands : Instr → List Operand
  | .addI32 _ d a b
  | .subI32 _ d a b
  | .addN32 _ d a b
  | .subN32 _ d a b
  | .and32 _ d a b
  | .or32 _ d a b
  | .xor32 _ d a b
  | .andn _ d a b
  | .shl32 _ d a b
  | .shr32 _ d a b
  | .sha32 _ d a b
  | .rot32 _ d a b
  | .min32 _ d a b
  | .max32 _ d a b
  | .minu32 _ d a b
  | .maxu32 _ d a b
  | .mullo _ d a b
  | .mulhi _ d a b
  | .mulhu _ d a b
  | .bfx _ d a b
  | .sel _ d a b _
  | .div _ d a b
  | .divu _ d a b
  | .rem _ d a b
  | .remu _ d a b
  | .faddF32 _ d a b
  | .fsubF32 _ d a b
  | .fmulF32 _ d a b
  | .fminF32 _ d a b
  | .fmaxF32 _ d a b
  | .faddF16 _ d a b
  | .fsubF16 _ d a b
  | .fmulF16 _ d a b
  | .fminF16 _ d a b
  | .fmaxF16 _ d a b
  | .faddBf16 _ d a b
  | .fsubBf16 _ d a b
  | .fmulBf16 _ d a b
  | .fminBf16 _ d a b
  | .fmaxBf16 _ d a b
  | .fdivF32 _ d a b => [⟨d, .one, true, false⟩, ⟨a, .one, false, true⟩, ⟨b, .one, false, true⟩]
  | .addImm _ d a _
  | .fsqrtF32 _ d a
  | .frcpF32 _ d a
  | .frsq _ d a
  | .fex2 _ d a
  | .flg2 _ d a
  | .froundF32 _ d a
  | .fclassF32 _ d a
  | .fclassF16 _ d a
  | .fclassBf16 _ d a => [⟨d, .one, true, false⟩, ⟨a, .one, false, true⟩]
  | .addI64 _ d a b
  | .subI64 _ d a b
  | .addN64 _ d a b
  | .subN64 _ d a b
  | .and64 _ d a b
  | .or64 _ d a b
  | .xor64 _ d a b
  | .shl64 _ d a b
  | .shr64 _ d a b
  | .sha64 _ d a b
  | .min64 _ d a b
  | .max64 _ d a b
  | .minu64 _ d a b
  | .maxu64 _ d a b
  | .mullo64 _ d a b
  | .rot64 _ d a b
  | .div64 _ d a b
  | .divu64 _ d a b
  | .rem64 _ d a b
  | .remu64 _ d a b
  | .faddF64 _ d a b
  | .fsubF64 _ d a b
  | .fmulF64 _ d a b
  | .fminF64 _ d a b
  | .fmaxF64 _ d a b
  | .fdivF64 _ d a b => [⟨d, .pair, true, false⟩, ⟨a, .pair, false, true⟩, ⟨b, .pair, false, true⟩]
  | .mov _ x y
  | .clz _ x y
  | .popc _ x y
  | .brev _ x y
  | .abs _ x y
  | .shl32Imm _ x y _
  | .shr32Imm _ x y _
  | .sha32Imm _ x y _
  | .rot32Imm _ x y _
  | .shflIdx _ x y _
  | .shflUp _ x y _
  | .shflDown _ x y _
  | .shflXor _ x y _
  | .sxpack _ x y _
  | .sxunpack _ x y _ _
  | .accld _ x y => [⟨x, .one, true, false⟩, ⟨y, .one, false, true⟩]
  | .mov64 _ x y
  | .shl64Imm _ x y _
  | .shr64Imm _ x y _
  | .sha64Imm _ x y _
  | .rot64Imm _ x y _
  | .cread _ x y
  | .caddrImm _ x y _ => [⟨x, .pair, true, false⟩, ⟨y, .pair, false, true⟩]
  | .mad _ d a b
  | .bfi _ d a b
  | .ffmaF32 _ d a b
  | .ffmaF16 _ d a b
  | .ffmaBf16 _ d a b => [⟨d, .one, true, true⟩, ⟨a, .one, false, true⟩, ⟨b, .one, false, true⟩]
  | .madWide _ d a b => [⟨d, .pair, true, true⟩, ⟨a, .one, false, true⟩, ⟨b, .one, false, true⟩]
  | .lea _ d a b => [⟨d, .pair, true, false⟩, ⟨a, .pair, false, true⟩, ⟨b, .one, false, true⟩]
  | .icmpReg _ x y _ w _ => [⟨x, (wideCls w), false, true⟩, ⟨y, (wideCls w), false, true⟩]
  | .icmpImm _ x _ _ w _ => [⟨x, (wideCls w), false, true⟩]
  | .movi _ d _ => [⟨d, .one, true, false⟩]
  | .movhi _ d _ => [⟨d, .pair, true, false⟩]
  | .ballot _ x _
  | .calloc _ x _ => [⟨x, .pair, true, false⟩]
  | .shflVar _ x y => [⟨x, .one, true, true⟩, ⟨y, .one, false, true⟩]
  | .fred _ x y t _ => [⟨x, (fpCls t), true, false⟩, ⟨y, (fpCls t), false, true⟩]
  | .ffmaF64 _ d a b => [⟨d, .pair, true, true⟩, ⟨a, .pair, false, true⟩, ⟨b, .pair, false, true⟩]
  | .fcmp _ x y _ _ t => [⟨x, (fpCls t), false, true⟩, ⟨y, (fpCls t), false, true⟩]
  | .fsqrtF64 _ d a
  | .frcpF64 _ d a
  | .froundF64 _ d a => [⟨d, .pair, true, false⟩, ⟨a, .pair, false, true⟩]
  | .fclassF64 _ d a => [⟨d, .one, true, false⟩, ⟨a, .pair, false, true⟩]
  | .fcvt _ x y t s => [⟨x, (cvtCls t), true, false⟩, ⟨y, (cvtCls s), false, true⟩]
  | .brx _ x
  | .callx _ x => [⟨x, .pair, false, true⟩]
  | .launch _ y
  | .prefetch _ y _
  | .cctlIinv _ y
  | .cctlL1inv _ y
  | .cctlL2wb _ y
  | .cctlL2inv _ y
  | .cfree _ y
  | .caddImm _ y _
  | .mxtab _ y _
  | .svc _ y _
  | .tlbi _ y
  | .ctxsave _ y
  | .ctxload _ y => [⟨y, .pair, false, true⟩]
  | .ldN8 _ d b _
  | .ldI8 _ d b _
  | .ldN16 _ d b _
  | .ldI16 _ d b _
  | .ld32 _ d b _ => [⟨d, .oneNK, true, false⟩, ⟨b, .pair, false, true⟩]
  | .ld64 _ d b _ => [⟨d, .pairNK, true, false⟩, ⟨b, .pair, false, true⟩]
  | .ld128 _ d b _ => [⟨d, .quadNK, true, false⟩, ⟨b, .pair, false, true⟩]
  | .st8 _ d b _
  | .st16 _ d b _
  | .st32 _ d b _ => [⟨d, .one, false, true⟩, ⟨b, .pair, false, true⟩]
  | .st64 _ d b _ => [⟨d, .pair, false, true⟩, ⟨b, .pair, false, true⟩]
  | .st128 _ d b _ => [⟨d, .quad, false, true⟩, ⟨b, .pair, false, true⟩]
  | .ldk _ x y _ _ => [⟨x, .uni, true, false⟩, ⟨y, .pair, false, true⟩]
  | .stk _ x y _ _ => [⟨x, .uni, false, true⟩, ⟨y, .pair, false, true⟩]
  | .atomAdd _ x y w r
  | .atomMin _ x y w r
  | .atomMax _ x y w r
  | .atomMinu _ x y w r
  | .atomMaxu _ x y w r
  | .atomAnd _ x y w r
  | .atomOr _ x y w r
  | .atomXor _ x y w r
  | .atomXchg _ x y w r => [atomOperand w r x, ⟨y, .pair, false, true⟩]
  | .atomCas _ x y w r => [casOperand w r x, ⟨y, .pair, false, true⟩]
  | .atomFadd _ x y r => [atomOperand 0 r x, ⟨y, .pair, false, true⟩]
  | .scadd _ x y t => [⟨x, (scaddCls t), false, true⟩, ⟨y, .one, false, true⟩]
  | .binapp _ x y => [⟨x, .oneNK, true, false⟩, ⟨y, .one, false, true⟩]
  | .mcastLd _ x y
  | .ctest _ x y _
  | .cwait _ x y => [⟨x, .pair, false, true⟩, ⟨y, .pair, false, true⟩]
  | .rput _ x y _
  | .caddReg _ x y => [⟨x, .one, false, true⟩, ⟨y, .pair, false, true⟩]
  | .caddrReg _ x y => [⟨x, .pair, true, true⟩, ⟨y, .pair, false, true⟩]
  | .cwaitTo _ x y _ => [⟨x, .quad, false, true⟩, ⟨y, .pair, false, true⟩]
  | .xcopy _ y
  | .mxcmd _ y
  | .obres _ y _
  | .collAllreduce _ y
  | .collReducescatter _ y
  | .collAllgather _ y
  | .collGather _ y
  | .collScatter _ y
  | .collAlltoall _ y => [⟨y, .one, false, true⟩]
  | .accst _ x y => [⟨x, .one, false, true⟩, ⟨y, .one, false, true⟩]
  | .atomr _ x y _ => [⟨x, .oneNK, true, true⟩, ⟨y, .pair, false, true⟩]
  | .csrr _ x n => [⟨x, (csrCls n x), true, false⟩]
  | .csrw _ y n => [⟨y, (csrCls n y), false, true⟩]
  | _ => []

/-- The predicates a word reads or writes besides its guard (R153, R156, R157, R163). -/
def Instr.preds : Instr → List (BitVec 3)
  | .icmpReg _ _ _ _ _ p => [p]
  | .icmpImm _ _ y _ _ _ => [y]
  | .pand _ d a b => [d, a, b]
  | .por _ d a b => [d, a, b]
  | .pxor _ d a b => [d, a, b]
  | .pnot _ d a => [d, a]
  | .pmov _ d a => [d, a]
  | .voteAny _ x y => [x, y]
  | .voteAll _ x y => [x, y]
  | .ballot _ _ y => [y]
  | .elect _ x => [x]
  | .fcmp _ _ _ p _ _ => [p]
  | .sel _ _ _ _ n => [n]
  | .ctest _ _ _ p => [p]
  | .cwaitTo _ _ _ p => [p]
  | _ => []

/-- The guard of a word of formats 3R, RI, I16, B, M and E (R130). -/
def Instr.guard? : Instr → Option Guard
  | .addI32 g _ _ _
  | .subI32 g _ _ _
  | .addN32 g _ _ _
  | .subN32 g _ _ _
  | .and32 g _ _ _
  | .or32 g _ _ _
  | .xor32 g _ _ _
  | .andn g _ _ _
  | .shl32 g _ _ _
  | .shr32 g _ _ _
  | .sha32 g _ _ _
  | .rot32 g _ _ _
  | .min32 g _ _ _
  | .max32 g _ _ _
  | .minu32 g _ _ _
  | .maxu32 g _ _ _
  | .addImm g _ _ _
  | .addI64 g _ _ _
  | .subI64 g _ _ _
  | .addN64 g _ _ _
  | .subN64 g _ _ _
  | .and64 g _ _ _
  | .or64 g _ _ _
  | .xor64 g _ _ _
  | .shl64 g _ _ _
  | .shr64 g _ _ _
  | .sha64 g _ _ _
  | .min64 g _ _ _
  | .max64 g _ _ _
  | .minu64 g _ _ _
  | .maxu64 g _ _ _
  | .mullo64 g _ _ _
  | .rot64 g _ _ _
  | .mov g _ _
  | .clz g _ _
  | .popc g _ _
  | .brev g _ _
  | .abs g _ _
  | .shl32Imm g _ _ _
  | .shr32Imm g _ _ _
  | .sha32Imm g _ _ _
  | .rot32Imm g _ _ _
  | .mov64 g _ _
  | .shl64Imm g _ _ _
  | .shr64Imm g _ _ _
  | .sha64Imm g _ _ _
  | .rot64Imm g _ _ _
  | .mullo g _ _ _
  | .mulhi g _ _ _
  | .mulhu g _ _ _
  | .mad g _ _ _
  | .madWide g _ _ _
  | .lea g _ _ _
  | .bfx g _ _ _
  | .bfi g _ _ _
  | .sel g _ _ _ _
  | .div g _ _ _
  | .divu g _ _ _
  | .rem g _ _ _
  | .remu g _ _ _
  | .div64 g _ _ _
  | .divu64 g _ _ _
  | .rem64 g _ _ _
  | .remu64 g _ _ _
  | .icmpReg g _ _ _ _ _
  | .icmpImm g _ _ _ _ _
  | .movi g _ _
  | .movhi g _ _
  | .pand g _ _ _
  | .por g _ _ _
  | .pxor g _ _ _
  | .pnot g _ _
  | .pmov g _ _
  | .voteAny g _ _
  | .voteAll g _ _
  | .ballot g _ _
  | .elect g _
  | .shflIdx g _ _ _
  | .shflUp g _ _ _
  | .shflDown g _ _ _
  | .shflXor g _ _ _
  | .shflVar g _ _
  | .fred g _ _ _ _
  | .faddF32 g _ _ _
  | .fsubF32 g _ _ _
  | .fmulF32 g _ _ _
  | .ffmaF32 g _ _ _
  | .fminF32 g _ _ _
  | .fmaxF32 g _ _ _
  | .faddF64 g _ _ _
  | .fsubF64 g _ _ _
  | .fmulF64 g _ _ _
  | .ffmaF64 g _ _ _
  | .fminF64 g _ _ _
  | .fmaxF64 g _ _ _
  | .faddF16 g _ _ _
  | .fsubF16 g _ _ _
  | .fmulF16 g _ _ _
  | .ffmaF16 g _ _ _
  | .fminF16 g _ _ _
  | .fmaxF16 g _ _ _
  | .faddBf16 g _ _ _
  | .fsubBf16 g _ _ _
  | .fmulBf16 g _ _ _
  | .ffmaBf16 g _ _ _
  | .fminBf16 g _ _ _
  | .fmaxBf16 g _ _ _
  | .fcmp g _ _ _ _ _
  | .fdivF32 g _ _ _
  | .fsqrtF32 g _ _
  | .frcpF32 g _ _
  | .frsq g _ _
  | .fex2 g _ _
  | .flg2 g _ _
  | .froundF32 g _ _
  | .fclassF32 g _ _
  | .fdivF64 g _ _ _
  | .fsqrtF64 g _ _
  | .frcpF64 g _ _
  | .froundF64 g _ _
  | .fclassF64 g _ _
  | .fclassF16 g _ _
  | .fclassBf16 g _ _
  | .fcvt g _ _ _ _
  | .sxpack g _ _ _
  | .sxunpack g _ _ _ _
  | .bra g _
  | .call g _
  | .brx g _
  | .callx g _
  | .ret g
  | .exit g
  | .yield g
  | .trap g _
  | .bkpt g _
  | .eret g
  | .launch g _
  | .ldN8 g _ _ _
  | .ldI8 g _ _ _
  | .ldN16 g _ _ _
  | .ldI16 g _ _ _
  | .ld32 g _ _ _
  | .ld64 g _ _ _
  | .ld128 g _ _ _
  | .st8 g _ _ _
  | .st16 g _ _ _
  | .st32 g _ _ _
  | .st64 g _ _ _
  | .st128 g _ _ _
  | .ldk g _ _ _ _
  | .stk g _ _ _ _
  | .atomAdd g _ _ _ _
  | .atomMin g _ _ _ _
  | .atomMax g _ _ _ _
  | .atomMinu g _ _ _ _
  | .atomMaxu g _ _ _ _
  | .atomAnd g _ _ _ _
  | .atomOr g _ _ _ _
  | .atomXor g _ _ _ _
  | .atomXchg g _ _ _ _
  | .atomCas g _ _ _ _
  | .atomFadd g _ _ _
  | .scadd g _ _ _
  | .binapp g _ _
  | .mcastLd g _ _
  | .prefetch g _ _
  | .cctlIinv g _
  | .cctlL1inv g _
  | .cctlL2wb g _
  | .cctlL2inv g _
  | .fence g _
  | .rput g _ _ _
  | .calloc g _ _
  | .cfree g _
  | .cread g _ _
  | .ctest g _ _ _
  | .caddReg g _ _
  | .caddImm g _ _
  | .caddrReg g _ _
  | .caddrImm g _ _ _
  | .cwait g _ _
  | .cwaitTo g _ _ _
  | .waite g _ _
  | .xcopy g _
  | .xcopyK g
  | .mxcmd g _
  | .mxcmdK g
  | .mxtab g _ _
  | .accld g _ _
  | .accst g _ _
  | .obres g _ _
  | .obrel g _
  | .collAllreduce g _
  | .collReducescatter g _
  | .collAllgather g _
  | .collGather g _
  | .collScatter g _
  | .collAlltoall g _
  | .atomr g _ _ _
  | .csrr g _ _
  | .csrw g _ _
  | .svc g _ _
  | .spillf g
  | .fillf g
  | .tlbi g _
  | .ctxsave g _
  | .ctxload g _ => some g
  | _ => none

/-- The numbers below 0x200 that name a special register (R62 table 2). -/
def csrAssigned (n : BitVec 10) : Bool :=
  decide (n.toNat ≤ 0x008) || n = 0x010 || n = 0x020 || n = 0x021 || n = 0x022 || n = 0x030 || n = 0x031
    || n = 0x032 || n = 0x040 || n = 0x041

/-- A pending-free check of the selector values that a word's own fields rule out. -/
def Instr.fieldsOk : Instr → Bool
  | .fcvt _ _ _ t s =>
      decide (t.toNat < 12) && decide (s.toNat < 12) && t != s
        && ((decide (4 ≤ t.toNat) && decide (t.toNat < 8)) || (decide (4 ≤ s.toNat) && decide (s.toNat < 8)))
  | .fred _ _ _ _ o => o != 3
  | .sxpack _ _ _ f => f != 3
  | .sxunpack _ _ _ f t => f != 3 && t != 3
  | .atomCas _ x _ w _ => !(w = 0 && x = 63)
  | .prefetch _ _ l => l != 3
  | .fence _ s => decide (s.toNat < 6)
  | .calloc _ _ s => decide (s.toNat < 6)
  | .waite _ c _ => c != 3
  | .sseed _ m => m != 3
  | .csrr _ _ n => csrAssigned n || decide (0x200 ≤ n.toNat)
  | .csrw _ y n => y != 0 && (csrAssigned n || decide (0x200 ≤ n.toNat))
  | .svc _ _ n => decide (n.toNat < 48)
  | .modx p _ _ _ _ => decide (p.toNat < 5)
  | .sched p => p != 3
  | .tgt l => l != 0
  | .undefinedHint k _ => decide (5 ≤ k.toNat)
  | _ => true

/-- The ranges of the unit numbers that the steps other than words name. -/
def Instr.argsOk : Instr → Bool
  | .instructionFetch slot => decide (slot < 6144)
  | .progressCountExpiry sub => decide (sub < 768)
  | .progressIssueCountExpiry sub => decide (sub < 768)
  | .issueBudgetExpiry sub => decide (sub < 768)
  | .storeFifoSend slot => decide (slot < 6144)
  | .eretRecordReturn slot => decide (slot < 6144)
  | .launchRecordReturn slot => decide (slot < 6144)
  | .fillfReturn slot => decide (slot < 6144)
  | .postingEnd slot => decide (slot < 6144)
  | .ctxBlockReturn slot => decide (slot < 6144)
  | .counterHomeAdd slot _ => decide (slot < 6144)
  | .counterHomeAlloc slot _ => decide (slot < 6144)
  | .counterHomeFree slot _ => decide (slot < 6144)
  | .counterHomeRead slot _ => decide (slot < 6144)
  | .counterWaiterRegister slot _ => decide (slot < 6144)
  | .overflowCounterApply die => decide (die < 4)
  | .cwaitTimeout slot lane => decide (slot < 6144) && decide (lane < 64)
  | .pollerRecheck slot lane => decide (slot < 6144) && decide (lane < 64)
  | .pageWalk slot lane _ _ => decide (slot < 6144) && decide (lane < 64)
  | .sliceRequest slice => decide (slice < 192)
  | .lineFill slice _ _ => decide (slice < 192)
  | .sliceAtomic slice => decide (slice < 192)
  | .atomrRoutine slice => decide (slice < 192)
  | .deckRequest core => decide (core < 192)
  | .multicastResponse slice => decide (slice < 192)
  | .relayBeat core => decide (core < 192)
  | .nack core _ => decide (core < 192)
  | .retryResend core _ => decide (core < 192)
  | .remapNack core _ => decide (core < 192)
  | .mapActivate die => decide (die < 4)
  | .sliceRetireComplete slice => decide (slice < 192)
  | .slicePowerDown slice => decide (slice < 192)
  | .copyCommandStart core chan => decide (core < 192) && decide (chan < 4)
  | .copyCommandComplete core chan => decide (core < 192) && decide (chan < 4)
  | .carouselItemStart core chan => decide (core < 192) && decide (chan < 4)
  | .carouselItemDone core chan => decide (core < 192) && decide (chan < 4)
  | .mxtabLoad core => decide (core < 192)
  | .mxcmdStart core => decide (core < 192)
  | .mxcmdComplete core => decide (core < 192)
  | .matrixSplitStop core _ _ => decide (core < 192)
  | .engineSplitStop core => decide (core < 192)
  | .collectiveComplete die _ => decide (die < 4)
  | .collectiveStallTimeout die _ => decide (die < 4)
  | .streamOpStart core => decide (core < 192)
  | .crewRelease slot => decide (slot < 6144)
  | .sliceExpiry ctx => decide (ctx < 16)
  | .preemptCore core => decide (core < 192)
  | .crewSave slot => decide (slot < 6144)
  | .imageComplete ctx => decide (ctx < 16)
  | .coreContextClear core => decide (core < 192)
  | .clusterPowerGate cluster => decide (cluster < 48)
  | .qcfgWrite q _ => decide (q < 64)
  | .contextRegisterWrite ctx _ _ => decide (ctx < 16)
  | .contextTransWrite ctx _ _ => decide (ctx < 16)
  | .kick q _ => decide (q < 64)
  | .kickEnqueue q => decide (q < 64)
  | .launchWindowTrigger q wslot _ => decide (q < 64) && decide (wslot < 64)
  | .counterWindowReadValue die _ => decide (die < 4)
  | .counterWindowReadStatus die _ => decide (die < 4)
  | .counterWindowAdd die _ _ => decide (die < 4)
  | .flitCrcResend port => decide (port < 16)
  | .portStateChange port _ _ => decide (port < 16)
  | .lpddrRefresh mdie => decide (mdie < 4)
  | _ => true

/-- Every register operand lies in its class (R152). -/
def Instr.classesOk (i : Instr) : Bool := i.operands.all fun o => o.cls.admits o.field

/-- The guard is not 1000 (R130). -/
def Instr.guardOk (i : Instr) : Bool := i.guard? != some 8

/-- A well-formed instruction: a valid guard, operands in their classes, no reserved selector value,
unit numbers in range. -/
def Instr.wellFormed (i : Instr) : Bool := i.guardOk && i.fieldsOk && i.classesOk && i.argsOk

end Sys2Proof
end

