-- ==== Sys2Proof/Decode.lean ====
section
/-! DEFINITION. From a 32-bit word to an instruction or a named reason to raise UNDEF (R150), and back:
an encoder written from the same field tables (R128, R151 to R164). -/

namespace Sys2Proof

/-- Why a word is not an instruction (R141). -/
inductive UndefReason where
  /-- A major of format none (R151), or a selector value left unassigned or a RES0 bit set (R150). -/
  | noSuchWord
  /-- Guard 1000 (R130). -/
  | guardFalse
  /-- A selector field holds a reserved value (R136 to R138, R156 to R164). -/
  | reservedValue
  /-- An operand field lies outside its class (R152). -/
  | operandClass
deriving DecidableEq, Repr

/-- Bits hi down to lo of a word held as a number (R6, R9). -/
def bits (w hi lo : Nat) : Nat := w / 2 ^ lo % 2 ^ (hi + 1 - lo)

/-- The field of n bits whose lowest bit is bit lo of the word (R9). -/
def fld {n : Nat} (lo w : Nat) : BitVec n := .ofNat n (w / 2 ^ lo)

/-- Major 0x01 (R150). -/
def major01 (w : Nat) : Option Instr :=
  if bits w 3 0 = 0 then some (.addI32 (fld 22 w) (fld 16 w) (fld 10 w) (fld 4 w)) else
  if bits w 3 0 = 1 then some (.subI32 (fld 22 w) (fld 16 w) (fld 10 w) (fld 4 w)) else
  if bits w 3 0 = 2 then some (.addN32 (fld 22 w) (fld 16 w) (fld 10 w) (fld 4 w)) else
  if bits w 3 0 = 3 then some (.subN32 (fld 22 w) (fld 16 w) (fld 10 w) (fld 4 w)) else
  if bits w 3 0 = 4 then some (.and32 (fld 22 w) (fld 16 w) (fld 10 w) (fld 4 w)) else
  if bits w 3 0 = 5 then some (.or32 (fld 22 w) (fld 16 w) (fld 10 w) (fld 4 w)) else
  if bits w 3 0 = 6 then some (.xor32 (fld 22 w) (fld 16 w) (fld 10 w) (fld 4 w)) else
  if bits w 3 0 = 7 then some (.andn (fld 22 w) (fld 16 w) (fld 10 w) (fld 4 w)) else
  if bits w 3 0 = 8 then some (.shl32 (fld 22 w) (fld 16 w) (fld 10 w) (fld 4 w)) else
  if bits w 3 0 = 9 then some (.shr32 (fld 22 w) (fld 16 w) (fld 10 w) (fld 4 w)) else
  if bits w 3 0 = 10 then some (.sha32 (fld 22 w) (fld 16 w) (fld 10 w) (fld 4 w)) else
  if bits w 3 0 = 11 then some (.rot32 (fld 22 w) (fld 16 w) (fld 10 w) (fld 4 w)) else
  if bits w 3 0 = 12 then some (.min32 (fld 22 w) (fld 16 w) (fld 10 w) (fld 4 w)) else
  if bits w 3 0 = 13 then some (.max32 (fld 22 w) (fld 16 w) (fld 10 w) (fld 4 w)) else
  if bits w 3 0 = 14 then some (.minu32 (fld 22 w) (fld 16 w) (fld 10 w) (fld 4 w)) else
  if bits w 3 0 = 15 then some (.maxu32 (fld 22 w) (fld 16 w) (fld 10 w) (fld 4 w)) else
  none

/-- Major 0x02 (R150). -/
def major02 (w : Nat) : Option Instr :=
  some (.addImm (fld 22 w) (fld 16 w) (fld 10 w) (fld 0 w))

/-- Major 0x03 (R150). -/
def major03 (w : Nat) : Option Instr :=
  if bits w 3 0 = 0 then some (.addI64 (fld 22 w) (fld 16 w) (fld 10 w) (fld 4 w)) else
  if bits w 3 0 = 1 then some (.subI64 (fld 22 w) (fld 16 w) (fld 10 w) (fld 4 w)) else
  if bits w 3 0 = 2 then some (.addN64 (fld 22 w) (fld 16 w) (fld 10 w) (fld 4 w)) else
  if bits w 3 0 = 3 then some (.subN64 (fld 22 w) (fld 16 w) (fld 10 w) (fld 4 w)) else
  if bits w 3 0 = 4 then some (.and64 (fld 22 w) (fld 16 w) (fld 10 w) (fld 4 w)) else
  if bits w 3 0 = 5 then some (.or64 (fld 22 w) (fld 16 w) (fld 10 w) (fld 4 w)) else
  if bits w 3 0 = 6 then some (.xor64 (fld 22 w) (fld 16 w) (fld 10 w) (fld 4 w)) else
  if bits w 3 0 = 7 then some (.shl64 (fld 22 w) (fld 16 w) (fld 10 w) (fld 4 w)) else
  if bits w 3 0 = 8 then some (.shr64 (fld 22 w) (fld 16 w) (fld 10 w) (fld 4 w)) else
  if bits w 3 0 = 9 then some (.sha64 (fld 22 w) (fld 16 w) (fld 10 w) (fld 4 w)) else
  if bits w 3 0 = 10 then some (.min64 (fld 22 w) (fld 16 w) (fld 10 w) (fld 4 w)) else
  if bits w 3 0 = 11 then some (.max64 (fld 22 w) (fld 16 w) (fld 10 w) (fld 4 w)) else
  if bits w 3 0 = 12 then some (.minu64 (fld 22 w) (fld 16 w) (fld 10 w) (fld 4 w)) else
  if bits w 3 0 = 13 then some (.maxu64 (fld 22 w) (fld 16 w) (fld 10 w) (fld 4 w)) else
  if bits w 3 0 = 14 then some (.mullo64 (fld 22 w) (fld 16 w) (fld 10 w) (fld 4 w)) else
  if bits w 3 0 = 15 then some (.rot64 (fld 22 w) (fld 16 w) (fld 10 w) (fld 4 w)) else
  none

/-- Major 0x04 (R150). -/
def major04 (w : Nat) : Option Instr :=
  if bits w 9 0 = 0 then some (.mov (fld 22 w) (fld 16 w) (fld 10 w)) else
  if bits w 9 0 = 64 then some (.clz (fld 22 w) (fld 16 w) (fld 10 w)) else
  if bits w 9 0 = 128 then some (.popc (fld 22 w) (fld 16 w) (fld 10 w)) else
  if bits w 9 0 = 192 then some (.brev (fld 22 w) (fld 16 w) (fld 10 w)) else
  if bits w 9 0 = 256 then some (.abs (fld 22 w) (fld 16 w) (fld 10 w)) else
  if bits w 9 5 = 10 then some (.shl32Imm (fld 22 w) (fld 16 w) (fld 10 w) (fld 0 w)) else
  if bits w 9 5 = 12 then some (.shr32Imm (fld 22 w) (fld 16 w) (fld 10 w) (fld 0 w)) else
  if bits w 9 5 = 14 then some (.sha32Imm (fld 22 w) (fld 16 w) (fld 10 w) (fld 0 w)) else
  if bits w 9 5 = 16 then some (.rot32Imm (fld 22 w) (fld 16 w) (fld 10 w) (fld 0 w)) else
  if bits w 9 0 = 576 then some (.mov64 (fld 22 w) (fld 16 w) (fld 10 w)) else
  if bits w 9 6 = 10 then some (.shl64Imm (fld 22 w) (fld 16 w) (fld 10 w) (fld 0 w)) else
  if bits w 9 6 = 11 then some (.shr64Imm (fld 22 w) (fld 16 w) (fld 10 w) (fld 0 w)) else
  if bits w 9 6 = 12 then some (.sha64Imm (fld 22 w) (fld 16 w) (fld 10 w) (fld 0 w)) else
  if bits w 9 6 = 13 then some (.rot64Imm (fld 22 w) (fld 16 w) (fld 10 w) (fld 0 w)) else
  none

/-- Major 0x05 (R150). -/
def major05 (w : Nat) : Option Instr :=
  if bits w 3 0 = 0 then some (.mullo (fld 22 w) (fld 16 w) (fld 10 w) (fld 4 w)) else
  if bits w 3 0 = 1 then some (.mulhi (fld 22 w) (fld 16 w) (fld 10 w) (fld 4 w)) else
  if bits w 3 0 = 2 then some (.mulhu (fld 22 w) (fld 16 w) (fld 10 w) (fld 4 w)) else
  if bits w 3 0 = 3 then some (.mad (fld 22 w) (fld 16 w) (fld 10 w) (fld 4 w)) else
  if bits w 3 0 = 4 then some (.madWide (fld 22 w) (fld 16 w) (fld 10 w) (fld 4 w)) else
  if bits w 3 0 = 5 then some (.lea (fld 22 w) (fld 16 w) (fld 10 w) (fld 4 w)) else
  if bits w 3 0 = 6 then some (.bfx (fld 22 w) (fld 16 w) (fld 10 w) (fld 4 w)) else
  if bits w 3 0 = 7 then some (.bfi (fld 22 w) (fld 16 w) (fld 10 w) (fld 4 w)) else
  if bits w 3 3 = 1 then some (.sel (fld 22 w) (fld 16 w) (fld 10 w) (fld 4 w) (fld 0 w)) else
  none

/-- Major 0x06 (R150). -/
def major06 (w : Nat) : Option Instr :=
  if bits w 3 0 = 0 then some (.div (fld 22 w) (fld 16 w) (fld 10 w) (fld 4 w)) else
  if bits w 3 0 = 1 then some (.divu (fld 22 w) (fld 16 w) (fld 10 w) (fld 4 w)) else
  if bits w 3 0 = 2 then some (.rem (fld 22 w) (fld 16 w) (fld 10 w) (fld 4 w)) else
  if bits w 3 0 = 3 then some (.remu (fld 22 w) (fld 16 w) (fld 10 w) (fld 4 w)) else
  if bits w 3 0 = 4 then some (.div64 (fld 22 w) (fld 16 w) (fld 10 w) (fld 4 w)) else
  if bits w 3 0 = 5 then some (.divu64 (fld 22 w) (fld 16 w) (fld 10 w) (fld 4 w)) else
  if bits w 3 0 = 6 then some (.rem64 (fld 22 w) (fld 16 w) (fld 10 w) (fld 4 w)) else
  if bits w 3 0 = 7 then some (.remu64 (fld 22 w) (fld 16 w) (fld 10 w) (fld 4 w)) else
  none

/-- Major 0x07 (R150). -/
def major07 (w : Nat) : Option Instr :=
  if bits w 9 9 = 0 ∧ bits w 1 0 = 0 then some (.icmpReg (fld 22 w) (fld 16 w) (fld 10 w) (fld 6 w) (fld 5 w) (fld 2 w)) else
  if bits w 15 13 = 0 ∧ bits w 9 9 = 1 then some (.icmpImm (fld 22 w) (fld 16 w) (fld 10 w) (fld 6 w) (fld 5 w) (fld 0 w)) else
  none

/-- Major 0x08 (R150). -/
def major08 (w : Nat) : Option Instr :=
  some (.movi (fld 22 w) (fld 16 w) (fld 0 w))

/-- Major 0x09 (R150). -/
def major09 (w : Nat) : Option Instr :=
  some (.movhi (fld 22 w) (fld 16 w) (fld 0 w))

/-- Major 0x0A (R150). -/
def major0A (w : Nat) : Option Instr :=
  if bits w 21 19 = 0 ∧ bits w 15 13 = 0 ∧ bits w 9 7 = 0 ∧ bits w 3 0 = 0 then some (.pand (fld 22 w) (fld 16 w) (fld 10 w) (fld 4 w)) else
  if bits w 21 19 = 0 ∧ bits w 15 13 = 0 ∧ bits w 9 7 = 0 ∧ bits w 3 0 = 1 then some (.por (fld 22 w) (fld 16 w) (fld 10 w) (fld 4 w)) else
  if bits w 21 19 = 0 ∧ bits w 15 13 = 0 ∧ bits w 9 7 = 0 ∧ bits w 3 0 = 2 then some (.pxor (fld 22 w) (fld 16 w) (fld 10 w) (fld 4 w)) else
  if bits w 21 19 = 0 ∧ bits w 15 13 = 0 ∧ bits w 9 0 = 3 then some (.pnot (fld 22 w) (fld 16 w) (fld 10 w)) else
  if bits w 21 19 = 0 ∧ bits w 15 13 = 0 ∧ bits w 9 0 = 4 then some (.pmov (fld 22 w) (fld 16 w) (fld 10 w)) else
  none

/-- Major 0x0B (R150). -/
def major0B (w : Nat) : Option Instr :=
  if bits w 21 19 = 0 ∧ bits w 15 13 = 0 ∧ bits w 9 0 = 0 then some (.voteAny (fld 22 w) (fld 16 w) (fld 10 w)) else
  if bits w 21 19 = 0 ∧ bits w 15 13 = 0 ∧ bits w 9 0 = 64 then some (.voteAll (fld 22 w) (fld 16 w) (fld 10 w)) else
  if bits w 15 13 = 0 ∧ bits w 9 0 = 128 then some (.ballot (fld 22 w) (fld 16 w) (fld 10 w)) else
  if bits w 21 19 = 0 ∧ bits w 15 0 = 192 then some (.elect (fld 22 w) (fld 16 w)) else
  if bits w 9 6 = 4 then some (.shflIdx (fld 22 w) (fld 16 w) (fld 10 w) (fld 0 w)) else
  if bits w 9 6 = 5 then some (.shflUp (fld 22 w) (fld 16 w) (fld 10 w) (fld 0 w)) else
  if bits w 9 6 = 6 then some (.shflDown (fld 22 w) (fld 16 w) (fld 10 w) (fld 0 w)) else
  if bits w 9 6 = 7 then some (.shflXor (fld 22 w) (fld 16 w) (fld 10 w) (fld 0 w)) else
  if bits w 9 0 = 512 then some (.shflVar (fld 22 w) (fld 16 w) (fld 10 w)) else
  if bits w 9 6 = 9 ∧ bits w 1 0 = 0 then some (.fred (fld 22 w) (fld 16 w) (fld 10 w) (fld 4 w) (fld 2 w)) else
  none

/-- Major 0x0C (R150). -/
def major0C (w : Nat) : Option Instr :=
  if bits w 3 0 = 0 then some (.faddF32 (fld 22 w) (fld 16 w) (fld 10 w) (fld 4 w)) else
  if bits w 3 0 = 1 then some (.fsubF32 (fld 22 w) (fld 16 w) (fld 10 w) (fld 4 w)) else
  if bits w 3 0 = 2 then some (.fmulF32 (fld 22 w) (fld 16 w) (fld 10 w) (fld 4 w)) else
  if bits w 3 0 = 3 then some (.ffmaF32 (fld 22 w) (fld 16 w) (fld 10 w) (fld 4 w)) else
  if bits w 3 0 = 4 then some (.fminF32 (fld 22 w) (fld 16 w) (fld 10 w) (fld 4 w)) else
  if bits w 3 0 = 5 then some (.fmaxF32 (fld 22 w) (fld 16 w) (fld 10 w) (fld 4 w)) else
  none

/-- Major 0x0D (R150). -/
def major0D (w : Nat) : Option Instr :=
  if bits w 3 0 = 0 then some (.faddF64 (fld 22 w) (fld 16 w) (fld 10 w) (fld 4 w)) else
  if bits w 3 0 = 1 then some (.fsubF64 (fld 22 w) (fld 16 w) (fld 10 w) (fld 4 w)) else
  if bits w 3 0 = 2 then some (.fmulF64 (fld 22 w) (fld 16 w) (fld 10 w) (fld 4 w)) else
  if bits w 3 0 = 3 then some (.ffmaF64 (fld 22 w) (fld 16 w) (fld 10 w) (fld 4 w)) else
  if bits w 3 0 = 4 then some (.fminF64 (fld 22 w) (fld 16 w) (fld 10 w) (fld 4 w)) else
  if bits w 3 0 = 5 then some (.fmaxF64 (fld 22 w) (fld 16 w) (fld 10 w) (fld 4 w)) else
  none

/-- Major 0x0E (R150). -/
def major0E (w : Nat) : Option Instr :=
  if bits w 3 0 = 0 then some (.faddF16 (fld 22 w) (fld 16 w) (fld 10 w) (fld 4 w)) else
  if bits w 3 0 = 1 then some (.fsubF16 (fld 22 w) (fld 16 w) (fld 10 w) (fld 4 w)) else
  if bits w 3 0 = 2 then some (.fmulF16 (fld 22 w) (fld 16 w) (fld 10 w) (fld 4 w)) else
  if bits w 3 0 = 3 then some (.ffmaF16 (fld 22 w) (fld 16 w) (fld 10 w) (fld 4 w)) else
  if bits w 3 0 = 4 then some (.fminF16 (fld 22 w) (fld 16 w) (fld 10 w) (fld 4 w)) else
  if bits w 3 0 = 5 then some (.fmaxF16 (fld 22 w) (fld 16 w) (fld 10 w) (fld 4 w)) else
  if bits w 3 0 = 8 then some (.faddBf16 (fld 22 w) (fld 16 w) (fld 10 w) (fld 4 w)) else
  if bits w 3 0 = 9 then some (.fsubBf16 (fld 22 w) (fld 16 w) (fld 10 w) (fld 4 w)) else
  if bits w 3 0 = 10 then some (.fmulBf16 (fld 22 w) (fld 16 w) (fld 10 w) (fld 4 w)) else
  if bits w 3 0 = 11 then some (.ffmaBf16 (fld 22 w) (fld 16 w) (fld 10 w) (fld 4 w)) else
  if bits w 3 0 = 12 then some (.fminBf16 (fld 22 w) (fld 16 w) (fld 10 w) (fld 4 w)) else
  if bits w 3 0 = 13 then some (.fmaxBf16 (fld 22 w) (fld 16 w) (fld 10 w) (fld 4 w)) else
  none

/-- Major 0x0F (R150). -/
def major0F (w : Nat) : Option Instr :=
  if bits w 1 0 = 0 then some (.fcmp (fld 22 w) (fld 16 w) (fld 10 w) (fld 7 w) (fld 4 w) (fld 2 w)) else
  none

/-- Major 0x10 (R150). -/
def major10 (w : Nat) : Option Instr :=
  if bits w 3 0 = 0 then some (.fdivF32 (fld 22 w) (fld 16 w) (fld 10 w) (fld 4 w)) else
  if bits w 9 0 = 1 then some (.fsqrtF32 (fld 22 w) (fld 16 w) (fld 10 w)) else
  if bits w 9 0 = 2 then some (.frcpF32 (fld 22 w) (fld 16 w) (fld 10 w)) else
  if bits w 9 0 = 3 then some (.frsq (fld 22 w) (fld 16 w) (fld 10 w)) else
  if bits w 9 0 = 4 then some (.fex2 (fld 22 w) (fld 16 w) (fld 10 w)) else
  if bits w 9 0 = 5 then some (.flg2 (fld 22 w) (fld 16 w) (fld 10 w)) else
  if bits w 9 0 = 6 then some (.froundF32 (fld 22 w) (fld 16 w) (fld 10 w)) else
  if bits w 9 0 = 7 then some (.fclassF32 (fld 22 w) (fld 16 w) (fld 10 w)) else
  if bits w 3 0 = 8 then some (.fdivF64 (fld 22 w) (fld 16 w) (fld 10 w) (fld 4 w)) else
  if bits w 9 0 = 9 then some (.fsqrtF64 (fld 22 w) (fld 16 w) (fld 10 w)) else
  if bits w 9 0 = 10 then some (.frcpF64 (fld 22 w) (fld 16 w) (fld 10 w)) else
  if bits w 9 0 = 11 then some (.froundF64 (fld 22 w) (fld 16 w) (fld 10 w)) else
  if bits w 9 0 = 12 then some (.fclassF64 (fld 22 w) (fld 16 w) (fld 10 w)) else
  if bits w 9 0 = 13 then some (.fclassF16 (fld 22 w) (fld 16 w) (fld 10 w)) else
  if bits w 9 0 = 14 then some (.fclassBf16 (fld 22 w) (fld 16 w) (fld 10 w)) else
  none

/-- Major 0x11 (R150). -/
def major11 (w : Nat) : Option Instr :=
  if bits w 1 0 = 0 then some (.fcvt (fld 22 w) (fld 16 w) (fld 10 w) (fld 6 w) (fld 2 w)) else
  none

/-- Major 0x12 (R150). -/
def major12 (w : Nat) : Option Instr :=
  if bits w 9 9 = 0 ∧ bits w 6 0 = 0 then some (.sxpack (fld 22 w) (fld 16 w) (fld 10 w) (fld 7 w)) else
  if bits w 9 9 = 1 ∧ bits w 4 0 = 0 then some (.sxunpack (fld 22 w) (fld 16 w) (fld 10 w) (fld 7 w) (fld 5 w)) else
  none

/-- Major 0x14 (R150). -/
def major14 (w : Nat) : Option Instr :=
  some (.bra (fld 22 w) (fld 0 w))

/-- Major 0x15 (R150). -/
def major15 (w : Nat) : Option Instr :=
  some (.call (fld 22 w) (fld 0 w))

/-- Major 0x16 (R150). -/
def major16 (w : Nat) : Option Instr :=
  if bits w 15 0 = 0 then some (.brx (fld 22 w) (fld 16 w)) else
  if bits w 15 0 = 1 then some (.callx (fld 22 w) (fld 16 w)) else
  if bits w 21 0 = 2 then some (.ret (fld 22 w)) else
  none

/-- Major 0x17 (R150). -/
def major17 (w : Nat) : Option Instr :=
  if bits w 21 0 = 0 then some (.exit (fld 22 w)) else
  if bits w 21 0 = 64 then some (.yield (fld 22 w)) else
  if bits w 21 6 = 2 then some (.trap (fld 22 w) (fld 0 w)) else
  if bits w 21 6 = 3 then some (.bkpt (fld 22 w) (fld 0 w)) else
  if bits w 21 0 = 256 then some (.eret (fld 22 w)) else
  if bits w 21 16 = 0 ∧ bits w 9 0 = 320 then some (.launch (fld 22 w) (fld 10 w)) else
  none

/-- Major 0x18 (R150). -/
def major18 (w : Nat) : Option Instr :=
  if bits w 9 7 = 0 then some (.ldN8 (fld 22 w) (fld 16 w) (fld 10 w) (fld 0 w)) else
  if bits w 9 7 = 1 then some (.ldI8 (fld 22 w) (fld 16 w) (fld 10 w) (fld 0 w)) else
  if bits w 9 7 = 2 then some (.ldN16 (fld 22 w) (fld 16 w) (fld 10 w) (fld 0 w)) else
  if bits w 9 7 = 3 then some (.ldI16 (fld 22 w) (fld 16 w) (fld 10 w) (fld 0 w)) else
  if bits w 9 7 = 4 then some (.ld32 (fld 22 w) (fld 16 w) (fld 10 w) (fld 0 w)) else
  if bits w 9 7 = 5 then some (.ld64 (fld 22 w) (fld 16 w) (fld 10 w) (fld 0 w)) else
  if bits w 9 7 = 6 then some (.ld128 (fld 22 w) (fld 16 w) (fld 10 w) (fld 0 w)) else
  none

/-- Major 0x19 (R150). -/
def major19 (w : Nat) : Option Instr :=
  if bits w 9 7 = 0 then some (.st8 (fld 22 w) (fld 16 w) (fld 10 w) (fld 0 w)) else
  if bits w 9 7 = 2 then some (.st16 (fld 22 w) (fld 16 w) (fld 10 w) (fld 0 w)) else
  if bits w 9 7 = 4 then some (.st32 (fld 22 w) (fld 16 w) (fld 10 w) (fld 0 w)) else
  if bits w 9 7 = 5 then some (.st64 (fld 22 w) (fld 16 w) (fld 10 w) (fld 0 w)) else
  if bits w 9 7 = 6 then some (.st128 (fld 22 w) (fld 16 w) (fld 10 w) (fld 0 w)) else
  none

/-- Major 0x1A (R150). -/
def major1A (w : Nat) : Option Instr :=
  if bits w 9 9 = 0 then some (.ldk (fld 22 w) (fld 16 w) (fld 10 w) (fld 8 w) (fld 0 w)) else
  if bits w 9 9 = 1 then some (.stk (fld 22 w) (fld 16 w) (fld 10 w) (fld 8 w) (fld 0 w)) else
  none

/-- Major 0x1B (R150). -/
def major1B (w : Nat) : Option Instr :=
  if bits w 9 6 = 0 ∧ bits w 3 0 = 0 then some (.atomAdd (fld 22 w) (fld 16 w) (fld 10 w) (fld 5 w) (fld 4 w)) else
  if bits w 9 6 = 1 ∧ bits w 3 0 = 0 then some (.atomMin (fld 22 w) (fld 16 w) (fld 10 w) (fld 5 w) (fld 4 w)) else
  if bits w 9 6 = 2 ∧ bits w 3 0 = 0 then some (.atomMax (fld 22 w) (fld 16 w) (fld 10 w) (fld 5 w) (fld 4 w)) else
  if bits w 9 6 = 3 ∧ bits w 3 0 = 0 then some (.atomMinu (fld 22 w) (fld 16 w) (fld 10 w) (fld 5 w) (fld 4 w)) else
  if bits w 9 6 = 4 ∧ bits w 3 0 = 0 then some (.atomMaxu (fld 22 w) (fld 16 w) (fld 10 w) (fld 5 w) (fld 4 w)) else
  if bits w 9 6 = 5 ∧ bits w 3 0 = 0 then some (.atomAnd (fld 22 w) (fld 16 w) (fld 10 w) (fld 5 w) (fld 4 w)) else
  if bits w 9 6 = 6 ∧ bits w 3 0 = 0 then some (.atomOr (fld 22 w) (fld 16 w) (fld 10 w) (fld 5 w) (fld 4 w)) else
  if bits w 9 6 = 7 ∧ bits w 3 0 = 0 then some (.atomXor (fld 22 w) (fld 16 w) (fld 10 w) (fld 5 w) (fld 4 w)) else
  if bits w 9 6 = 8 ∧ bits w 3 0 = 0 then some (.atomXchg (fld 22 w) (fld 16 w) (fld 10 w) (fld 5 w) (fld 4 w)) else
  if bits w 9 6 = 9 ∧ bits w 3 0 = 0 then some (.atomCas (fld 22 w) (fld 16 w) (fld 10 w) (fld 5 w) (fld 4 w)) else
  if bits w 9 5 = 20 ∧ bits w 3 0 = 0 then some (.atomFadd (fld 22 w) (fld 16 w) (fld 10 w) (fld 4 w)) else
  none

/-- Major 0x1C (R150). -/
def major1C (w : Nat) : Option Instr :=
  if bits w 9 9 = 0 ∧ bits w 6 0 = 0 then some (.scadd (fld 22 w) (fld 16 w) (fld 10 w) (fld 7 w)) else
  if bits w 9 0 = 512 then some (.binapp (fld 22 w) (fld 16 w) (fld 10 w)) else
  none

/-- Major 0x1D (R150). -/
def major1D (w : Nat) : Option Instr :=
  if bits w 9 0 = 0 then some (.mcastLd (fld 22 w) (fld 16 w) (fld 10 w)) else
  if bits w 21 16 = 0 ∧ bits w 9 2 = 64 then some (.prefetch (fld 22 w) (fld 10 w) (fld 0 w)) else
  if bits w 21 16 = 0 ∧ bits w 9 0 = 512 then some (.cctlIinv (fld 22 w) (fld 10 w)) else
  if bits w 21 16 = 0 ∧ bits w 9 0 = 513 then some (.cctlL1inv (fld 22 w) (fld 10 w)) else
  if bits w 21 16 = 0 ∧ bits w 9 0 = 514 then some (.cctlL2wb (fld 22 w) (fld 10 w)) else
  if bits w 21 16 = 0 ∧ bits w 9 0 = 515 then some (.cctlL2inv (fld 22 w) (fld 10 w)) else
  none

/-- Major 0x1E (R150). -/
def major1E (w : Nat) : Option Instr :=
  if bits w 21 3 = 0 then some (.fence (fld 22 w) (fld 0 w)) else
  none

/-- Major 0x1F (R150). -/
def major1F (w : Nat) : Option Instr :=
  if bits w 9 3 = 0 then some (.rput (fld 22 w) (fld 16 w) (fld 10 w) (fld 0 w)) else
  none

/-- Major 0x20 (R150). -/
def major20 (w : Nat) : Option Instr :=
  if bits w 15 3 = 0 then some (.calloc (fld 22 w) (fld 16 w) (fld 0 w)) else
  if bits w 21 16 = 0 ∧ bits w 9 0 = 256 then some (.cfree (fld 22 w) (fld 10 w)) else
  if bits w 9 0 = 512 then some (.cread (fld 22 w) (fld 16 w) (fld 10 w)) else
  if bits w 9 6 = 12 ∧ bits w 2 0 = 0 then some (.ctest (fld 22 w) (fld 16 w) (fld 10 w) (fld 3 w)) else
  none

/-- Major 0x21 (R150). -/
def major21 (w : Nat) : Option Instr :=
  if bits w 9 0 = 0 then some (.caddReg (fld 22 w) (fld 16 w) (fld 10 w)) else
  if bits w 21 16 = 0 ∧ bits w 9 8 = 1 then some (.caddImm (fld 22 w) (fld 10 w) (fld 0 w)) else
  if bits w 9 0 = 512 then some (.caddrReg (fld 22 w) (fld 16 w) (fld 10 w)) else
  if bits w 9 8 = 3 then some (.caddrImm (fld 22 w) (fld 16 w) (fld 10 w) (fld 0 w)) else
  none

/-- Major 0x22 (R150). -/
def major22 (w : Nat) : Option Instr :=
  if bits w 9 0 = 0 then some (.cwait (fld 22 w) (fld 16 w) (fld 10 w)) else
  if bits w 9 8 = 1 ∧ bits w 4 0 = 0 then some (.cwaitTo (fld 22 w) (fld 16 w) (fld 10 w) (fld 5 w)) else
  if bits w 21 9 = 1 then some (.waite (fld 22 w) (fld 7 w) (fld 0 w)) else
  none

/-- Major 0x23 (R150). -/
def major23 (w : Nat) : Option Instr :=
  if bits w 21 16 = 0 ∧ bits w 9 0 = 0 then some (.xcopy (fld 22 w) (fld 10 w)) else
  if bits w 21 0 = 512 then some (.xcopyK (fld 22 w)) else
  none

/-- Major 0x24 (R150). -/
def major24 (w : Nat) : Option Instr :=
  if bits w 21 16 = 0 ∧ bits w 9 0 = 0 then some (.mxcmd (fld 22 w) (fld 10 w)) else
  if bits w 21 0 = 128 then some (.mxcmdK (fld 22 w)) else
  if bits w 21 16 = 0 ∧ bits w 9 2 = 64 then some (.mxtab (fld 22 w) (fld 10 w) (fld 0 w)) else
  if bits w 9 0 = 512 then some (.accld (fld 22 w) (fld 16 w) (fld 10 w)) else
  if bits w 9 0 = 768 then some (.accst (fld 22 w) (fld 16 w) (fld 10 w)) else
  none

/-- Major 0x25 (R150). -/
def major25 (w : Nat) : Option Instr :=
  if bits w 21 16 = 0 ∧ bits w 9 5 = 0 then some (.obres (fld 22 w) (fld 10 w) (fld 0 w)) else
  if bits w 21 5 = 16 then some (.obrel (fld 22 w) (fld 0 w)) else
  none

/-- Major 0x26 (R150). -/
def major26 (w : Nat) : Option Instr :=
  if bits w 21 16 = 0 ∧ bits w 9 0 = 0 then some (.collAllreduce (fld 22 w) (fld 10 w)) else
  if bits w 21 16 = 0 ∧ bits w 9 0 = 128 then some (.collReducescatter (fld 22 w) (fld 10 w)) else
  if bits w 21 16 = 0 ∧ bits w 9 0 = 256 then some (.collAllgather (fld 22 w) (fld 10 w)) else
  if bits w 21 16 = 0 ∧ bits w 9 0 = 384 then some (.collGather (fld 22 w) (fld 10 w)) else
  if bits w 21 16 = 0 ∧ bits w 9 0 = 512 then some (.collScatter (fld 22 w) (fld 10 w)) else
  if bits w 21 16 = 0 ∧ bits w 9 0 = 640 then some (.collAlltoall (fld 22 w) (fld 10 w)) else
  none

/-- Major 0x27 (R150). -/
def major27 (w : Nat) : Option Instr :=
  if bits w 9 6 = 0 then some (.atomr (fld 22 w) (fld 16 w) (fld 10 w) (fld 0 w)) else
  none

/-- Major 0x28 (R150). -/
def major28 (w : Nat) : Option Instr :=
  if bits w 25 6 = 0 then some (.sseed (fld 2 w) (fld 0 w)) else
  if bits w 25 22 = 0 ∧ bits w 18 13 = 0 ∧ bits w 9 6 = 1 ∧ bits w 1 0 = 0 then some (.sgen (fld 19 w) (fld 10 w) (fld 2 w)) else
  if bits w 25 22 = 0 ∧ bits w 18 13 = 0 ∧ bits w 9 6 = 2 ∧ bits w 1 0 = 0 then some (.sgenk (fld 19 w) (fld 10 w) (fld 2 w)) else
  if bits w 25 2 = 48 then some (.slen (fld 0 w)) else
  none

/-- Major 0x29 (R150). -/
def major29 (w : Nat) : Option Instr :=
  if bits w 25 22 = 0 ∧ bits w 12 0 = 0 then some (.sand (fld 19 w) (fld 16 w) (fld 13 w)) else
  if bits w 25 22 = 0 ∧ bits w 12 0 = 1 then some (.sxnor (fld 19 w) (fld 16 w) (fld 13 w)) else
  if bits w 25 22 = 0 ∧ bits w 12 0 = 2 then some (.sor (fld 19 w) (fld 16 w) (fld 13 w)) else
  if bits w 25 22 = 0 ∧ bits w 12 0 = 3 then some (.ssub (fld 19 w) (fld 16 w) (fld 13 w)) else
  if bits w 25 22 = 0 ∧ bits w 12 0 = 4 then some (.smin (fld 19 w) (fld 16 w) (fld 13 w)) else
  if bits w 25 22 = 0 ∧ bits w 12 0 = 5 then some (.smax (fld 19 w) (fld 16 w) (fld 13 w)) else
  if bits w 25 22 = 0 ∧ bits w 15 0 = 6 then some (.snot (fld 19 w) (fld 16 w)) else
  if bits w 25 22 = 0 ∧ bits w 9 0 = 7 then some (.smux (fld 19 w) (fld 16 w) (fld 13 w) (fld 10 w)) else
  none

/-- Major 0x2A (R150). -/
def major2A (w : Nat) : Option Instr :=
  if bits w 25 19 = 0 ∧ bits w 15 13 = 0 ∧ bits w 9 0 = 0 then some (.scnt (fld 16 w) (fld 10 w)) else
  if bits w 25 19 = 0 ∧ bits w 9 0 = 64 then some (.sdot (fld 16 w) (fld 13 w) (fld 10 w)) else
  if bits w 25 22 = 0 ∧ bits w 15 6 = 2 ∧ bits w 1 0 = 0 then some (.sregen (fld 19 w) (fld 16 w) (fld 2 w)) else
  if bits w 25 19 = 0 ∧ bits w 15 13 = 0 ∧ bits w 9 0 = 192 then some (.stag (fld 16 w) (fld 10 w)) else
  if bits w 25 22 = 0 ∧ bits w 15 0 = 256 then some (.smov (fld 19 w) (fld 16 w)) else
  if bits w 25 22 = 0 ∧ bits w 15 6 = 5 then some (.srot (fld 19 w) (fld 16 w) (fld 0 w)) else
  none

/-- Major 0x30 (R150). -/
def major30 (w : Nat) : Option Instr :=
  if bits w 15 10 = 0 then some (.csrr (fld 22 w) (fld 16 w) (fld 0 w)) else
  if bits w 21 16 = 0 then some (.csrw (fld 22 w) (fld 10 w) (fld 0 w)) else
  none

/-- Major 0x31 (R150). -/
def major31 (w : Nat) : Option Instr :=
  if bits w 21 16 = 0 ∧ bits w 9 6 = 0 then some (.svc (fld 22 w) (fld 10 w) (fld 0 w)) else
  none

/-- Major 0x32 (R150). -/
def major32 (w : Nat) : Option Instr :=
  if bits w 21 0 = 0 then some (.spillf (fld 22 w)) else
  if bits w 21 0 = 1 then some (.fillf (fld 22 w)) else
  none

/-- Major 0x33 (R150). -/
def major33 (w : Nat) : Option Instr :=
  if bits w 21 16 = 0 ∧ bits w 9 0 = 0 then some (.tlbi (fld 22 w) (fld 10 w)) else
  if bits w 21 16 = 0 ∧ bits w 9 0 = 1 then some (.ctxsave (fld 22 w) (fld 10 w)) else
  if bits w 21 16 = 0 ∧ bits w 9 0 = 2 then some (.ctxload (fld 22 w) (fld 10 w)) else
  none

/-- Major 0x3F (R150). -/
def major3F (w : Nat) : Option Instr :=
  if bits w 25 22 = 0 then some (.immx (fld 0 w)) else
  if bits w 25 13 = 512 then some (.modx (fld 10 w) (fld 9 w) (fld 3 w) (fld 2 w) (fld 0 w)) else
  if bits w 25 2 = 2097152 then some (.sched (fld 0 w)) else
  if bits w 25 2 = 3145728 then some (.tgt (fld 0 w)) else
  if bits w 25 22 = 4 then some (.converge (fld 0 w)) else
  some (.undefinedHint (fld 22 w) (fld 0 w))

/-- The row of the opcode map that a word matches, its fields read out (R150 to R164). -/
def rawDecode (w : Nat) : Option Instr :=
  match bits w 31 26 with
  | 0x01 => major01 w
  | 0x02 => major02 w
  | 0x03 => major03 w
  | 0x04 => major04 w
  | 0x05 => major05 w
  | 0x06 => major06 w
  | 0x07 => major07 w
  | 0x08 => major08 w
  | 0x09 => major09 w
  | 0x0A => major0A w
  | 0x0B => major0B w
  | 0x0C => major0C w
  | 0x0D => major0D w
  | 0x0E => major0E w
  | 0x0F => major0F w
  | 0x10 => major10 w
  | 0x11 => major11 w
  | 0x12 => major12 w
  | 0x14 => major14 w
  | 0x15 => major15 w
  | 0x16 => major16 w
  | 0x17 => major17 w
  | 0x18 => major18 w
  | 0x19 => major19 w
  | 0x1A => major1A w
  | 0x1B => major1B w
  | 0x1C => major1C w
  | 0x1D => major1D w
  | 0x1E => major1E w
  | 0x1F => major1F w
  | 0x20 => major20 w
  | 0x21 => major21 w
  | 0x22 => major22 w
  | 0x23 => major23 w
  | 0x24 => major24 w
  | 0x25 => major25 w
  | 0x26 => major26 w
  | 0x27 => major27 w
  | 0x28 => major28 w
  | 0x29 => major29 w
  | 0x2A => major2A w
  | 0x30 => major30 w
  | 0x31 => major31 w
  | 0x32 => major32 w
  | 0x33 => major33 w
  | 0x3F => major3F w
  | _ => none

/-- The decoding procedure of R150: a format and selector, then the guard, then reserved values, then the
operand classes; the first check that fails names the reason. -/
def decode (w : BitVec 32) : Except UndefReason Instr :=
  match rawDecode w.toNat with
  | none => .error .noSuchWord
  | some i =>
    if !i.guardOk then .error .guardFalse
    else if !i.fieldsOk then .error .reservedValue
    else if !i.classesOk then .error .operandClass
    else .ok i

/-- The instruction the decoder reads, none where the word raises UNDEF. -/
def decode? (w : BitVec 32) : Option Instr :=
  match decode w with
  | .ok i => some i
  | .error _ => none

/-- A word from its bytes in memory, little-endian (R6, R127). -/
def wordOfBytes : List Byte → Option (BitVec 32)
  | [b0, b1, b2, b3] => some (b3 ++ b2 ++ b1 ++ b0)
  | _ => none

/-- The four bytes a word is stored as, lowest address first (R127). -/
def bytesOfWord (w : BitVec 32) : List Byte :=
  [w.extractLsb' 0 8, w.extractLsb' 8 8, w.extractLsb' 16 8, w.extractLsb' 24 8]

/-- A base word with fields laid at their places: (lowest bit, value) pairs (R167). -/
def place (base : Nat) (fields : List (Nat × Nat)) : Nat :=
  fields.foldl (fun acc f => acc + f.2 * 2 ^ f.1) base

/-- The rows from ADD_I32 to ROT_64 of the opcode table. -/
def encodeAddI32On : Instr → Option Nat
  | .addI32 g d a b => some (place 0x04000000 [(22, g.toNat), (16, d.toNat), (10, a.toNat), (4, b.toNat)])
  | .subI32 g d a b => some (place 0x04000001 [(22, g.toNat), (16, d.toNat), (10, a.toNat), (4, b.toNat)])
  | .addN32 g d a b => some (place 0x04000002 [(22, g.toNat), (16, d.toNat), (10, a.toNat), (4, b.toNat)])
  | .subN32 g d a b => some (place 0x04000003 [(22, g.toNat), (16, d.toNat), (10, a.toNat), (4, b.toNat)])
  | .and32 g d a b => some (place 0x04000004 [(22, g.toNat), (16, d.toNat), (10, a.toNat), (4, b.toNat)])
  | .or32 g d a b => some (place 0x04000005 [(22, g.toNat), (16, d.toNat), (10, a.toNat), (4, b.toNat)])
  | .xor32 g d a b => some (place 0x04000006 [(22, g.toNat), (16, d.toNat), (10, a.toNat), (4, b.toNat)])
  | .andn g d a b => some (place 0x04000007 [(22, g.toNat), (16, d.toNat), (10, a.toNat), (4, b.toNat)])
  | .shl32 g d a b => some (place 0x04000008 [(22, g.toNat), (16, d.toNat), (10, a.toNat), (4, b.toNat)])
  | .shr32 g d a b => some (place 0x04000009 [(22, g.toNat), (16, d.toNat), (10, a.toNat), (4, b.toNat)])
  | .sha32 g d a b => some (place 0x0400000A [(22, g.toNat), (16, d.toNat), (10, a.toNat), (4, b.toNat)])
  | .rot32 g d a b => some (place 0x0400000B [(22, g.toNat), (16, d.toNat), (10, a.toNat), (4, b.toNat)])
  | .min32 g d a b => some (place 0x0400000C [(22, g.toNat), (16, d.toNat), (10, a.toNat), (4, b.toNat)])
  | .max32 g d a b => some (place 0x0400000D [(22, g.toNat), (16, d.toNat), (10, a.toNat), (4, b.toNat)])
  | .minu32 g d a b => some (place 0x0400000E [(22, g.toNat), (16, d.toNat), (10, a.toNat), (4, b.toNat)])
  | .maxu32 g d a b => some (place 0x0400000F [(22, g.toNat), (16, d.toNat), (10, a.toNat), (4, b.toNat)])
  | .addImm g d a i => some (place 0x08000000 [(22, g.toNat), (16, d.toNat), (10, a.toNat), (0, i.toNat)])
  | .addI64 g d a b => some (place 0x0C000000 [(22, g.toNat), (16, d.toNat), (10, a.toNat), (4, b.toNat)])
  | .subI64 g d a b => some (place 0x0C000001 [(22, g.toNat), (16, d.toNat), (10, a.toNat), (4, b.toNat)])
  | .addN64 g d a b => some (place 0x0C000002 [(22, g.toNat), (16, d.toNat), (10, a.toNat), (4, b.toNat)])
  | .subN64 g d a b => some (place 0x0C000003 [(22, g.toNat), (16, d.toNat), (10, a.toNat), (4, b.toNat)])
  | .and64 g d a b => some (place 0x0C000004 [(22, g.toNat), (16, d.toNat), (10, a.toNat), (4, b.toNat)])
  | .or64 g d a b => some (place 0x0C000005 [(22, g.toNat), (16, d.toNat), (10, a.toNat), (4, b.toNat)])
  | .xor64 g d a b => some (place 0x0C000006 [(22, g.toNat), (16, d.toNat), (10, a.toNat), (4, b.toNat)])
  | .shl64 g d a b => some (place 0x0C000007 [(22, g.toNat), (16, d.toNat), (10, a.toNat), (4, b.toNat)])
  | .shr64 g d a b => some (place 0x0C000008 [(22, g.toNat), (16, d.toNat), (10, a.toNat), (4, b.toNat)])
  | .sha64 g d a b => some (place 0x0C000009 [(22, g.toNat), (16, d.toNat), (10, a.toNat), (4, b.toNat)])
  | .min64 g d a b => some (place 0x0C00000A [(22, g.toNat), (16, d.toNat), (10, a.toNat), (4, b.toNat)])
  | .max64 g d a b => some (place 0x0C00000B [(22, g.toNat), (16, d.toNat), (10, a.toNat), (4, b.toNat)])
  | .minu64 g d a b => some (place 0x0C00000C [(22, g.toNat), (16, d.toNat), (10, a.toNat), (4, b.toNat)])
  | .maxu64 g d a b => some (place 0x0C00000D [(22, g.toNat), (16, d.toNat), (10, a.toNat), (4, b.toNat)])
  | .mullo64 g d a b => some (place 0x0C00000E [(22, g.toNat), (16, d.toNat), (10, a.toNat), (4, b.toNat)])
  | .rot64 g d a b => some (place 0x0C00000F [(22, g.toNat), (16, d.toNat), (10, a.toNat), (4, b.toNat)])
  | _ => none

/-- The rows from MOV to ICMP_IMM of the opcode table. -/
def encodeMovOn : Instr → Option Nat
  | .mov g x y => some (place 0x10000000 [(22, g.toNat), (16, x.toNat), (10, y.toNat)])
  | .clz g x y => some (place 0x10000040 [(22, g.toNat), (16, x.toNat), (10, y.toNat)])
  | .popc g x y => some (place 0x10000080 [(22, g.toNat), (16, x.toNat), (10, y.toNat)])
  | .brev g x y => some (place 0x100000C0 [(22, g.toNat), (16, x.toNat), (10, y.toNat)])
  | .abs g x y => some (place 0x10000100 [(22, g.toNat), (16, x.toNat), (10, y.toNat)])
  | .shl32Imm g x y m => some (place 0x10000140 [(22, g.toNat), (16, x.toNat), (10, y.toNat), (0, m.toNat)])
  | .shr32Imm g x y m => some (place 0x10000180 [(22, g.toNat), (16, x.toNat), (10, y.toNat), (0, m.toNat)])
  | .sha32Imm g x y m => some (place 0x100001C0 [(22, g.toNat), (16, x.toNat), (10, y.toNat), (0, m.toNat)])
  | .rot32Imm g x y m => some (place 0x10000200 [(22, g.toNat), (16, x.toNat), (10, y.toNat), (0, m.toNat)])
  | .mov64 g x y => some (place 0x10000240 [(22, g.toNat), (16, x.toNat), (10, y.toNat)])
  | .shl64Imm g x y m => some (place 0x10000280 [(22, g.toNat), (16, x.toNat), (10, y.toNat), (0, m.toNat)])
  | .shr64Imm g x y m => some (place 0x100002C0 [(22, g.toNat), (16, x.toNat), (10, y.toNat), (0, m.toNat)])
  | .sha64Imm g x y m => some (place 0x10000300 [(22, g.toNat), (16, x.toNat), (10, y.toNat), (0, m.toNat)])
  | .rot64Imm g x y m => some (place 0x10000340 [(22, g.toNat), (16, x.toNat), (10, y.toNat), (0, m.toNat)])
  | .mullo g d a b => some (place 0x14000000 [(22, g.toNat), (16, d.toNat), (10, a.toNat), (4, b.toNat)])
  | .mulhi g d a b => some (place 0x14000001 [(22, g.toNat), (16, d.toNat), (10, a.toNat), (4, b.toNat)])
  | .mulhu g d a b => some (place 0x14000002 [(22, g.toNat), (16, d.toNat), (10, a.toNat), (4, b.toNat)])
  | .mad g d a b => some (place 0x14000003 [(22, g.toNat), (16, d.toNat), (10, a.toNat), (4, b.toNat)])
  | .madWide g d a b => some (place 0x14000004 [(22, g.toNat), (16, d.toNat), (10, a.toNat), (4, b.toNat)])
  | .lea g d a b => some (place 0x14000005 [(22, g.toNat), (16, d.toNat), (10, a.toNat), (4, b.toNat)])
  | .bfx g d a b => some (place 0x14000006 [(22, g.toNat), (16, d.toNat), (10, a.toNat), (4, b.toNat)])
  | .bfi g d a b => some (place 0x14000007 [(22, g.toNat), (16, d.toNat), (10, a.toNat), (4, b.toNat)])
  | .sel g d a b n => some (place 0x14000008 [(22, g.toNat), (16, d.toNat), (10, a.toNat), (4, b.toNat), (0, n.toNat)])
  | .div g d a b => some (place 0x18000000 [(22, g.toNat), (16, d.toNat), (10, a.toNat), (4, b.toNat)])
  | .divu g d a b => some (place 0x18000001 [(22, g.toNat), (16, d.toNat), (10, a.toNat), (4, b.toNat)])
  | .rem g d a b => some (place 0x18000002 [(22, g.toNat), (16, d.toNat), (10, a.toNat), (4, b.toNat)])
  | .remu g d a b => some (place 0x18000003 [(22, g.toNat), (16, d.toNat), (10, a.toNat), (4, b.toNat)])
  | .div64 g d a b => some (place 0x18000004 [(22, g.toNat), (16, d.toNat), (10, a.toNat), (4, b.toNat)])
  | .divu64 g d a b => some (place 0x18000005 [(22, g.toNat), (16, d.toNat), (10, a.toNat), (4, b.toNat)])
  | .rem64 g d a b => some (place 0x18000006 [(22, g.toNat), (16, d.toNat), (10, a.toNat), (4, b.toNat)])
  | .remu64 g d a b => some (place 0x18000007 [(22, g.toNat), (16, d.toNat), (10, a.toNat), (4, b.toNat)])
  | .icmpReg g x y c w p => some (place 0x1C000000 [(22, g.toNat), (16, x.toNat), (10, y.toNat), (6, c.toNat), (5, w.toNat), (2, p.toNat)])
  | .icmpImm g x y c w i => some (place 0x1C000200 [(22, g.toNat), (16, x.toNat), (10, y.toNat), (6, c.toNat), (5, w.toNat), (0, i.toNat)])
  | _ => none

/-- The rows from MOVI to FFMA_F16 of the opcode table. -/
def encodeMoviOn : Instr → Option Nat
  | .movi g d i => some (place 0x20000000 [(22, g.toNat), (16, d.toNat), (0, i.toNat)])
  | .movhi g d i => some (place 0x24000000 [(22, g.toNat), (16, d.toNat), (0, i.toNat)])
  | .pand g d a b => some (place 0x28000000 [(22, g.toNat), (16, d.toNat), (10, a.toNat), (4, b.toNat)])
  | .por g d a b => some (place 0x28000001 [(22, g.toNat), (16, d.toNat), (10, a.toNat), (4, b.toNat)])
  | .pxor g d a b => some (place 0x28000002 [(22, g.toNat), (16, d.toNat), (10, a.toNat), (4, b.toNat)])
  | .pnot g d a => some (place 0x28000003 [(22, g.toNat), (16, d.toNat), (10, a.toNat)])
  | .pmov g d a => some (place 0x28000004 [(22, g.toNat), (16, d.toNat), (10, a.toNat)])
  | .voteAny g x y => some (place 0x2C000000 [(22, g.toNat), (16, x.toNat), (10, y.toNat)])
  | .voteAll g x y => some (place 0x2C000040 [(22, g.toNat), (16, x.toNat), (10, y.toNat)])
  | .ballot g x y => some (place 0x2C000080 [(22, g.toNat), (16, x.toNat), (10, y.toNat)])
  | .elect g x => some (place 0x2C0000C0 [(22, g.toNat), (16, x.toNat)])
  | .shflIdx g x y k => some (place 0x2C000100 [(22, g.toNat), (16, x.toNat), (10, y.toNat), (0, k.toNat)])
  | .shflUp g x y k => some (place 0x2C000140 [(22, g.toNat), (16, x.toNat), (10, y.toNat), (0, k.toNat)])
  | .shflDown g x y k => some (place 0x2C000180 [(22, g.toNat), (16, x.toNat), (10, y.toNat), (0, k.toNat)])
  | .shflXor g x y k => some (place 0x2C0001C0 [(22, g.toNat), (16, x.toNat), (10, y.toNat), (0, k.toNat)])
  | .shflVar g x y => some (place 0x2C000200 [(22, g.toNat), (16, x.toNat), (10, y.toNat)])
  | .fred g x y t o => some (place 0x2C000240 [(22, g.toNat), (16, x.toNat), (10, y.toNat), (4, t.toNat), (2, o.toNat)])
  | .faddF32 g d a b => some (place 0x30000000 [(22, g.toNat), (16, d.toNat), (10, a.toNat), (4, b.toNat)])
  | .fsubF32 g d a b => some (place 0x30000001 [(22, g.toNat), (16, d.toNat), (10, a.toNat), (4, b.toNat)])
  | .fmulF32 g d a b => some (place 0x30000002 [(22, g.toNat), (16, d.toNat), (10, a.toNat), (4, b.toNat)])
  | .ffmaF32 g d a b => some (place 0x30000003 [(22, g.toNat), (16, d.toNat), (10, a.toNat), (4, b.toNat)])
  | .fminF32 g d a b => some (place 0x30000004 [(22, g.toNat), (16, d.toNat), (10, a.toNat), (4, b.toNat)])
  | .fmaxF32 g d a b => some (place 0x30000005 [(22, g.toNat), (16, d.toNat), (10, a.toNat), (4, b.toNat)])
  | .faddF64 g d a b => some (place 0x34000000 [(22, g.toNat), (16, d.toNat), (10, a.toNat), (4, b.toNat)])
  | .fsubF64 g d a b => some (place 0x34000001 [(22, g.toNat), (16, d.toNat), (10, a.toNat), (4, b.toNat)])
  | .fmulF64 g d a b => some (place 0x34000002 [(22, g.toNat), (16, d.toNat), (10, a.toNat), (4, b.toNat)])
  | .ffmaF64 g d a b => some (place 0x34000003 [(22, g.toNat), (16, d.toNat), (10, a.toNat), (4, b.toNat)])
  | .fminF64 g d a b => some (place 0x34000004 [(22, g.toNat), (16, d.toNat), (10, a.toNat), (4, b.toNat)])
  | .fmaxF64 g d a b => some (place 0x34000005 [(22, g.toNat), (16, d.toNat), (10, a.toNat), (4, b.toNat)])
  | .faddF16 g d a b => some (place 0x38000000 [(22, g.toNat), (16, d.toNat), (10, a.toNat), (4, b.toNat)])
  | .fsubF16 g d a b => some (place 0x38000001 [(22, g.toNat), (16, d.toNat), (10, a.toNat), (4, b.toNat)])
  | .fmulF16 g d a b => some (place 0x38000002 [(22, g.toNat), (16, d.toNat), (10, a.toNat), (4, b.toNat)])
  | .ffmaF16 g d a b => some (place 0x38000003 [(22, g.toNat), (16, d.toNat), (10, a.toNat), (4, b.toNat)])
  | _ => none

/-- The rows from FMIN_F16 to EXIT of the opcode table. -/
def encodeFminF16On : Instr → Option Nat
  | .fminF16 g d a b => some (place 0x38000004 [(22, g.toNat), (16, d.toNat), (10, a.toNat), (4, b.toNat)])
  | .fmaxF16 g d a b => some (place 0x38000005 [(22, g.toNat), (16, d.toNat), (10, a.toNat), (4, b.toNat)])
  | .faddBf16 g d a b => some (place 0x38000008 [(22, g.toNat), (16, d.toNat), (10, a.toNat), (4, b.toNat)])
  | .fsubBf16 g d a b => some (place 0x38000009 [(22, g.toNat), (16, d.toNat), (10, a.toNat), (4, b.toNat)])
  | .fmulBf16 g d a b => some (place 0x3800000A [(22, g.toNat), (16, d.toNat), (10, a.toNat), (4, b.toNat)])
  | .ffmaBf16 g d a b => some (place 0x3800000B [(22, g.toNat), (16, d.toNat), (10, a.toNat), (4, b.toNat)])
  | .fminBf16 g d a b => some (place 0x3800000C [(22, g.toNat), (16, d.toNat), (10, a.toNat), (4, b.toNat)])
  | .fmaxBf16 g d a b => some (place 0x3800000D [(22, g.toNat), (16, d.toNat), (10, a.toNat), (4, b.toNat)])
  | .fcmp g x y p c t => some (place 0x3C000000 [(22, g.toNat), (16, x.toNat), (10, y.toNat), (7, p.toNat), (4, c.toNat), (2, t.toNat)])
  | .fdivF32 g d a b => some (place 0x40000000 [(22, g.toNat), (16, d.toNat), (10, a.toNat), (4, b.toNat)])
  | .fsqrtF32 g d a => some (place 0x40000001 [(22, g.toNat), (16, d.toNat), (10, a.toNat)])
  | .frcpF32 g d a => some (place 0x40000002 [(22, g.toNat), (16, d.toNat), (10, a.toNat)])
  | .frsq g d a => some (place 0x40000003 [(22, g.toNat), (16, d.toNat), (10, a.toNat)])
  | .fex2 g d a => some (place 0x40000004 [(22, g.toNat), (16, d.toNat), (10, a.toNat)])
  | .flg2 g d a => some (place 0x40000005 [(22, g.toNat), (16, d.toNat), (10, a.toNat)])
  | .froundF32 g d a => some (place 0x40000006 [(22, g.toNat), (16, d.toNat), (10, a.toNat)])
  | .fclassF32 g d a => some (place 0x40000007 [(22, g.toNat), (16, d.toNat), (10, a.toNat)])
  | .fdivF64 g d a b => some (place 0x40000008 [(22, g.toNat), (16, d.toNat), (10, a.toNat), (4, b.toNat)])
  | .fsqrtF64 g d a => some (place 0x40000009 [(22, g.toNat), (16, d.toNat), (10, a.toNat)])
  | .frcpF64 g d a => some (place 0x4000000A [(22, g.toNat), (16, d.toNat), (10, a.toNat)])
  | .froundF64 g d a => some (place 0x4000000B [(22, g.toNat), (16, d.toNat), (10, a.toNat)])
  | .fclassF64 g d a => some (place 0x4000000C [(22, g.toNat), (16, d.toNat), (10, a.toNat)])
  | .fclassF16 g d a => some (place 0x4000000D [(22, g.toNat), (16, d.toNat), (10, a.toNat)])
  | .fclassBf16 g d a => some (place 0x4000000E [(22, g.toNat), (16, d.toNat), (10, a.toNat)])
  | .fcvt g x y t s => some (place 0x44000000 [(22, g.toNat), (16, x.toNat), (10, y.toNat), (6, t.toNat), (2, s.toNat)])
  | .sxpack g x y f => some (place 0x48000000 [(22, g.toNat), (16, x.toNat), (10, y.toNat), (7, f.toNat)])
  | .sxunpack g x y f t => some (place 0x48000200 [(22, g.toNat), (16, x.toNat), (10, y.toNat), (7, f.toNat), (5, t.toNat)])
  | .bra g i => some (place 0x50000000 [(22, g.toNat), (0, i.toNat)])
  | .call g i => some (place 0x54000000 [(22, g.toNat), (0, i.toNat)])
  | .brx g x => some (place 0x58000000 [(22, g.toNat), (16, x.toNat)])
  | .callx g x => some (place 0x58000001 [(22, g.toNat), (16, x.toNat)])
  | .ret g => some (place 0x58000002 [(22, g.toNat)])
  | .exit g => some (place 0x5C000000 [(22, g.toNat)])
  | _ => none

/-- The rows from YIELD to MCAST_LD of the opcode table. -/
def encodeYieldOn : Instr → Option Nat
  | .yield g => some (place 0x5C000040 [(22, g.toNat)])
  | .trap g c => some (place 0x5C000080 [(22, g.toNat), (0, c.toNat)])
  | .bkpt g c => some (place 0x5C0000C0 [(22, g.toNat), (0, c.toNat)])
  | .eret g => some (place 0x5C000100 [(22, g.toNat)])
  | .launch g y => some (place 0x5C000140 [(22, g.toNat), (10, y.toNat)])
  | .ldN8 g d b o => some (place 0x60000000 [(22, g.toNat), (16, d.toNat), (10, b.toNat), (0, o.toNat)])
  | .ldI8 g d b o => some (place 0x60000080 [(22, g.toNat), (16, d.toNat), (10, b.toNat), (0, o.toNat)])
  | .ldN16 g d b o => some (place 0x60000100 [(22, g.toNat), (16, d.toNat), (10, b.toNat), (0, o.toNat)])
  | .ldI16 g d b o => some (place 0x60000180 [(22, g.toNat), (16, d.toNat), (10, b.toNat), (0, o.toNat)])
  | .ld32 g d b o => some (place 0x60000200 [(22, g.toNat), (16, d.toNat), (10, b.toNat), (0, o.toNat)])
  | .ld64 g d b o => some (place 0x60000280 [(22, g.toNat), (16, d.toNat), (10, b.toNat), (0, o.toNat)])
  | .ld128 g d b o => some (place 0x60000300 [(22, g.toNat), (16, d.toNat), (10, b.toNat), (0, o.toNat)])
  | .st8 g d b o => some (place 0x64000000 [(22, g.toNat), (16, d.toNat), (10, b.toNat), (0, o.toNat)])
  | .st16 g d b o => some (place 0x64000100 [(22, g.toNat), (16, d.toNat), (10, b.toNat), (0, o.toNat)])
  | .st32 g d b o => some (place 0x64000200 [(22, g.toNat), (16, d.toNat), (10, b.toNat), (0, o.toNat)])
  | .st64 g d b o => some (place 0x64000280 [(22, g.toNat), (16, d.toNat), (10, b.toNat), (0, o.toNat)])
  | .st128 g d b o => some (place 0x64000300 [(22, g.toNat), (16, d.toNat), (10, b.toNat), (0, o.toNat)])
  | .ldk g x y w o => some (place 0x68000000 [(22, g.toNat), (16, x.toNat), (10, y.toNat), (8, w.toNat), (0, o.toNat)])
  | .stk g x y w o => some (place 0x68000200 [(22, g.toNat), (16, x.toNat), (10, y.toNat), (8, w.toNat), (0, o.toNat)])
  | .atomAdd g x y w r => some (place 0x6C000000 [(22, g.toNat), (16, x.toNat), (10, y.toNat), (5, w.toNat), (4, r.toNat)])
  | .atomMin g x y w r => some (place 0x6C000040 [(22, g.toNat), (16, x.toNat), (10, y.toNat), (5, w.toNat), (4, r.toNat)])
  | .atomMax g x y w r => some (place 0x6C000080 [(22, g.toNat), (16, x.toNat), (10, y.toNat), (5, w.toNat), (4, r.toNat)])
  | .atomMinu g x y w r => some (place 0x6C0000C0 [(22, g.toNat), (16, x.toNat), (10, y.toNat), (5, w.toNat), (4, r.toNat)])
  | .atomMaxu g x y w r => some (place 0x6C000100 [(22, g.toNat), (16, x.toNat), (10, y.toNat), (5, w.toNat), (4, r.toNat)])
  | .atomAnd g x y w r => some (place 0x6C000140 [(22, g.toNat), (16, x.toNat), (10, y.toNat), (5, w.toNat), (4, r.toNat)])
  | .atomOr g x y w r => some (place 0x6C000180 [(22, g.toNat), (16, x.toNat), (10, y.toNat), (5, w.toNat), (4, r.toNat)])
  | .atomXor g x y w r => some (place 0x6C0001C0 [(22, g.toNat), (16, x.toNat), (10, y.toNat), (5, w.toNat), (4, r.toNat)])
  | .atomXchg g x y w r => some (place 0x6C000200 [(22, g.toNat), (16, x.toNat), (10, y.toNat), (5, w.toNat), (4, r.toNat)])
  | .atomCas g x y w r => some (place 0x6C000240 [(22, g.toNat), (16, x.toNat), (10, y.toNat), (5, w.toNat), (4, r.toNat)])
  | .atomFadd g x y r => some (place 0x6C000280 [(22, g.toNat), (16, x.toNat), (10, y.toNat), (4, r.toNat)])
  | .scadd g x y t => some (place 0x70000000 [(22, g.toNat), (16, x.toNat), (10, y.toNat), (7, t.toNat)])
  | .binapp g x y => some (place 0x70000200 [(22, g.toNat), (16, x.toNat), (10, y.toNat)])
  | .mcastLd g x y => some (place 0x74000000 [(22, g.toNat), (16, x.toNat), (10, y.toNat)])
  | _ => none

/-- The rows from PREFETCH to COLL_ALLTOALL of the opcode table. -/
def encodePrefetchOn : Instr → Option Nat
  | .prefetch g y l => some (place 0x74000100 [(22, g.toNat), (10, y.toNat), (0, l.toNat)])
  | .cctlIinv g y => some (place 0x74000200 [(22, g.toNat), (10, y.toNat)])
  | .cctlL1inv g y => some (place 0x74000201 [(22, g.toNat), (10, y.toNat)])
  | .cctlL2wb g y => some (place 0x74000202 [(22, g.toNat), (10, y.toNat)])
  | .cctlL2inv g y => some (place 0x74000203 [(22, g.toNat), (10, y.toNat)])
  | .fence g s => some (place 0x78000000 [(22, g.toNat), (0, s.toNat)])
  | .rput g x y m => some (place 0x7C000000 [(22, g.toNat), (16, x.toNat), (10, y.toNat), (0, m.toNat)])
  | .calloc g x s => some (place 0x80000000 [(22, g.toNat), (16, x.toNat), (0, s.toNat)])
  | .cfree g y => some (place 0x80000100 [(22, g.toNat), (10, y.toNat)])
  | .cread g x y => some (place 0x80000200 [(22, g.toNat), (16, x.toNat), (10, y.toNat)])
  | .ctest g x y p => some (place 0x80000300 [(22, g.toNat), (16, x.toNat), (10, y.toNat), (3, p.toNat)])
  | .caddReg g x y => some (place 0x84000000 [(22, g.toNat), (16, x.toNat), (10, y.toNat)])
  | .caddImm g y i => some (place 0x84000100 [(22, g.toNat), (10, y.toNat), (0, i.toNat)])
  | .caddrReg g x y => some (place 0x84000200 [(22, g.toNat), (16, x.toNat), (10, y.toNat)])
  | .caddrImm g x y i => some (place 0x84000300 [(22, g.toNat), (16, x.toNat), (10, y.toNat), (0, i.toNat)])
  | .cwait g x y => some (place 0x88000000 [(22, g.toNat), (16, x.toNat), (10, y.toNat)])
  | .cwaitTo g x y p => some (place 0x88000100 [(22, g.toNat), (16, x.toNat), (10, y.toNat), (5, p.toNat)])
  | .waite g c k => some (place 0x88000200 [(22, g.toNat), (7, c.toNat), (0, k.toNat)])
  | .xcopy g y => some (place 0x8C000000 [(22, g.toNat), (10, y.toNat)])
  | .xcopyK g => some (place 0x8C000200 [(22, g.toNat)])
  | .mxcmd g y => some (place 0x90000000 [(22, g.toNat), (10, y.toNat)])
  | .mxcmdK g => some (place 0x90000080 [(22, g.toNat)])
  | .mxtab g y t => some (place 0x90000100 [(22, g.toNat), (10, y.toNat), (0, t.toNat)])
  | .accld g x y => some (place 0x90000200 [(22, g.toNat), (16, x.toNat), (10, y.toNat)])
  | .accst g x y => some (place 0x90000300 [(22, g.toNat), (16, x.toNat), (10, y.toNat)])
  | .obres g y r => some (place 0x94000000 [(22, g.toNat), (10, y.toNat), (0, r.toNat)])
  | .obrel g r => some (place 0x94000200 [(22, g.toNat), (0, r.toNat)])
  | .collAllreduce g y => some (place 0x98000000 [(22, g.toNat), (10, y.toNat)])
  | .collReducescatter g y => some (place 0x98000080 [(22, g.toNat), (10, y.toNat)])
  | .collAllgather g y => some (place 0x98000100 [(22, g.toNat), (10, y.toNat)])
  | .collGather g y => some (place 0x98000180 [(22, g.toNat), (10, y.toNat)])
  | .collScatter g y => some (place 0x98000200 [(22, g.toNat), (10, y.toNat)])
  | .collAlltoall g y => some (place 0x98000280 [(22, g.toNat), (10, y.toNat)])
  | _ => none

/-- The rows from ATOMR to UNDEFINED_HINT of the opcode table. -/
def encodeAtomrOn : Instr → Option Nat
  | .atomr g x y r => some (place 0x9C000000 [(22, g.toNat), (16, x.toNat), (10, y.toNat), (0, r.toNat)])
  | .sseed n m => some (place 0xA0000000 [(2, n.toNat), (0, m.toNat)])
  | .sgen d s n => some (place 0xA0000040 [(19, d.toNat), (10, s.toNat), (2, n.toNat)])
  | .sgenk d s n => some (place 0xA0000080 [(19, d.toNat), (10, s.toNat), (2, n.toNat)])
  | .slen l => some (place 0xA00000C0 [(0, l.toNat)])
  | .sand d a b => some (place 0xA4000000 [(19, d.toNat), (16, a.toNat), (13, b.toNat)])
  | .sxnor d a b => some (place 0xA4000001 [(19, d.toNat), (16, a.toNat), (13, b.toNat)])
  | .sor d a b => some (place 0xA4000002 [(19, d.toNat), (16, a.toNat), (13, b.toNat)])
  | .ssub d a b => some (place 0xA4000003 [(19, d.toNat), (16, a.toNat), (13, b.toNat)])
  | .smin d a b => some (place 0xA4000004 [(19, d.toNat), (16, a.toNat), (13, b.toNat)])
  | .smax d a b => some (place 0xA4000005 [(19, d.toNat), (16, a.toNat), (13, b.toNat)])
  | .snot d a => some (place 0xA4000006 [(19, d.toNat), (16, a.toNat)])
  | .smux d a b s => some (place 0xA4000007 [(19, d.toNat), (16, a.toNat), (13, b.toNat), (10, s.toNat)])
  | .scnt a s => some (place 0xA8000000 [(16, a.toNat), (10, s.toNat)])
  | .sdot a b s => some (place 0xA8000040 [(16, a.toNat), (13, b.toNat), (10, s.toNat)])
  | .sregen d a n => some (place 0xA8000080 [(19, d.toNat), (16, a.toNat), (2, n.toNat)])
  | .stag a s => some (place 0xA80000C0 [(16, a.toNat), (10, s.toNat)])
  | .smov d a => some (place 0xA8000100 [(19, d.toNat), (16, a.toNat)])
  | .srot d a m => some (place 0xA8000140 [(19, d.toNat), (16, a.toNat), (0, m.toNat)])
  | .csrr g x n => some (place 0xC0000000 [(22, g.toNat), (16, x.toNat), (0, n.toNat)])
  | .csrw g y n => some (place 0xC0000000 [(22, g.toNat), (10, y.toNat), (0, n.toNat)])
  | .svc g y n => some (place 0xC4000000 [(22, g.toNat), (10, y.toNat), (0, n.toNat)])
  | .spillf g => some (place 0xC8000000 [(22, g.toNat)])
  | .fillf g => some (place 0xC8000001 [(22, g.toNat)])
  | .tlbi g y => some (place 0xCC000000 [(22, g.toNat), (10, y.toNat)])
  | .ctxsave g y => some (place 0xCC000001 [(22, g.toNat), (10, y.toNat)])
  | .ctxload g y => some (place 0xCC000002 [(22, g.toNat), (10, y.toNat)])
  | .immx p => some (place 0xFC000000 [(0, p.toNat)])
  | .modx p v c s r => some (place 0xFC400000 [(10, p.toNat), (9, v.toNat), (3, c.toNat), (2, s.toNat), (0, r.toNat)])
  | .sched p => some (place 0xFC800000 [(0, p.toNat)])
  | .tgt l => some (place 0xFCC00000 [(0, l.toNat)])
  | .converge j => some (place 0xFD000000 [(0, j.toNat)])
  | .undefinedHint k p => some (place 0xFC000000 [(22, k.toNat), (0, p.toNat)])
  | _ => none

/-- The number a word's row and fields make: base word plus each field at its place (R167). Steps that are
no words have none. -/
def encodeNat (i : Instr) : Option Nat :=
  encodeAddI32On i <|> encodeMovOn i <|> encodeMoviOn i <|> encodeFminF16On i <|> encodeYieldOn i <|> encodePrefetchOn i <|> encodeAtomrOn i

/-- The word of an instruction (R167). -/
def encode (i : Instr) : Option (BitVec 32) := (encodeNat i).map (BitVec.ofNat 32)

/-- The instruction the decoder reads from the table's own numbering of a row's bits: one 32-bit word, laid
out little-endian as fetch finds it, the bits above nbits zero. -/
def decodeTableWord (nbits w : Nat) : Option Instr :=
  (wordOfBytes (bytesOfWord (BitVec.ofNat 32 (w % 2 ^ nbits)))).bind decode?

end Sys2Proof
end

