-- ==== Sys2Proof/Machine/Ops.lean ====
section
/-! DEFINITION. The named operations over units, registers and memory: reading and writing crews, cores and
slices, thread and crew registers (R56 to R61, R64), bytes of each space (R272 to R277), translation (R374
to R378), the checks of an access (R208), events (R388), and taking a fault (R196, R357 to R364). -/

namespace Sys2Proof.Machine

/-! ## Units -/

/-- The crew in a slot (slot = 32 × core + 8 × subcore + slot number). -/
def State.crew? (s : State) (slot : Nat) : Option Crew := Cells.find s.crews slot

/-- The state with a crew in a slot. -/
def State.setCrew (s : State) (slot : Nat) (c : Crew) : State := { s with crews := Cells.put s.crews slot c }

/-- A change to the crew of a slot, nothing where the slot is empty. -/
def State.modCrew (s : State) (slot : Nat) (f : Crew → Crew) : State :=
  match s.crew? slot with
  | none => s
  | some c => s.setCrew slot (f c)

/-- A core, a cluster, a C-die and a slice by number (R14). -/
def State.core (s : State) (n : Nat) : Core := Cells.get Core.reset s.cores n
def State.setCore (s : State) (n : Nat) (c : Core) : State := { s with cores := Cells.put s.cores n c }
def State.modCore (s : State) (n : Nat) (f : Core → Core) : State := s.setCore n (f (s.core n))
def State.cluster (s : State) (n : Nat) : Cluster := Cells.get Cluster.reset s.clusters n
def State.setCluster (s : State) (n : Nat) (c : Cluster) : State :=
  { s with clusters := Cells.put s.clusters n c }
def State.die (s : State) (n : Nat) : Die := Cells.get Die.reset s.dies n
def State.setDie (s : State) (n : Nat) (d : Die) : State := { s with dies := Cells.put s.dies n d }
def State.modDie (s : State) (n : Nat) (f : Die → Die) : State := s.setDie n (f (s.die n))
def State.slice (s : State) (n : Nat) : Slice := Cells.get Slice.reset s.slices n
def State.setSlice (s : State) (n : Nat) (e : Slice) : State := { s with slices := Cells.put s.slices n e }
def State.modSlice (s : State) (n : Nat) (f : Slice → Slice) : State := s.setSlice n (f (s.slice n))

/-- A context's registers (R328, R367). -/
def State.context (s : State) (x : Nat) : Context := Cells.get Context.reset s.rm.contexts x
def State.setContext (s : State) (x : Nat) (c : Context) : State :=
  { s with rm := { s.rm with contexts := Cells.put s.rm.contexts x c } }

/-- A Ringmaster queue (R327). -/
def State.queue (s : State) (q : Nat) : Queue := Cells.get Queue.reset s.rm.queues q
def State.setQueue (s : State) (q : Nat) (v : Queue) : State :=
  { s with rm := { s.rm with queues := Cells.put s.rm.queues q v } }

/-- Core, subcore and cluster of a crew slot (R14). -/
def coreOf (slot : Nat) : Nat := slot / 32
def subOf (slot : Nat) : Nat := slot / 8 % 4
def clusterOf (core : Nat) : Nat := core / 4
def dieOf (core : Nat) : Nat := core / 48

/-- A subcore of a core. -/
def Core.subcore (c : Core) (j : Nat) : Subcore := Cells.get Subcore.reset c.subcores j
def Core.setSubcore (c : Core) (j : Nat) (v : Subcore) : Core :=
  { c with subcores := Cells.put c.subcores j v }

/-- Time passing: an instruction's issue cycles (R40) and a free number of further cycles (log 2). -/
def State.spend (s : State) (c : Nat) : State :=
  { s with cycle := s.cycle + c + Config.stallCycles s.fresh, fresh := s.fresh + 1 }

/-- A message put under way. -/
def State.post (s : State) (m : Msg) : State :=
  { s with msgs := Cells.put s.msgs s.nextId m, nextId := s.nextId + 1 }

/-- Something leaves the package. -/
def State.emit (s : State) (e : Egress) : State := { s with egress := s.egress ++ [e] }

/-- An event raised, stamped with the first c from now that its source has free (R388, R431). -/
def State.event (s : State) (source kind ctx : Nat) (data : List Byte) : State :=
  let stamp := match Cells.find s.cox.stamps source with
    | some c => max s.cycle (c + 1)
    | none => s.cycle
  { s with cox := { s.cox with
      events := s.cox.events ++ [⟨source, kind, ctx, data, stamp⟩], stamps := Cells.put s.cox.stamps source stamp } }

/-- An error counted for a (structure, unit), with its cycle (R429): corrected or uncorrectable. -/
def State.countError (s : State) (structure_ unit : Nat) (corrected : Bool) : State :=
  let e := Cells.get (0, 0, 0, 0) s.fleet.ras (4096 * structure_ + unit)
  let up (n : Nat) : Nat := min 0xFFFFFFFF (n + 1)
  let e1 := if corrected then (up e.1, e.2.1, s.cycle, e.2.2.2) else (e.1, up e.2.1, e.2.2.1, s.cycle)
  { s with fleet := { s.fleet with ras := Cells.put s.fleet.ras (4096 * structure_ + unit) e1 } }

/-! ## Lists of lanes -/

/-- Replace element n of a list, if there. -/
def setAt {α : Type} : List α → Nat → α → List α
  | [], _, _ => []
  | _ :: t, 0, v => v :: t
  | a :: t, n + 1, v => a :: setAt t n v

/-- Change each element by its position, counted from n. -/
def mapFrom {α β : Type} (f : Nat → α → β) : Nat → List α → List β
  | _, [] => []
  | n, a :: t => f n a :: mapFrom f (n + 1) t

/-- The numbers n, n + 1, …, n + k − 1. -/
def upFrom (n : Nat) : Nat → List Nat
  | 0 => []
  | k + 1 => n :: upFrom (n + 1) k

/-- The thread in a lane. -/
def Crew.thread (c : Crew) (lane : Nat) : Thread := c.threads.getD lane Thread.gone
def Crew.setThread (c : Crew) (lane : Nat) (t : Thread) : Crew := { c with threads := setAt c.threads lane t }
def Crew.modThread (c : Crew) (lane : Nat) (f : Thread → Thread) : Crew := c.setThread lane (f (c.thread lane))

/-- Change the threads of some lanes. -/
def Crew.modLanes (c : Crew) (lanes : List Nat) (f : Nat → Thread → Thread) : Crew :=
  { c with threads := mapFrom (fun l t => if lanes.contains l then f l t else t) 0 c.threads }

/-! ## Registers (R56 to R59, R64) -/

/-- The physical entry that a field below 48 names in a thread: %g, or the windowed stack entry (R64). -/
def Thread.entry (t : Thread) (f : Nat) : Nat :=
  if f < 16 then f else 16 + 16 * ((t.depth + (f - 16) / 16) % 7) + (f - 16) % 16

/-- A physical entry's value; %g0 reads 0 (R56). -/
def Thread.get (t : Thread) (e : Nat) : Word := if e = 0 then 0 else Cells.get 0 t.regs e

/-- A physical entry written; a write to %g0 is discarded (R56). -/
def Thread.put (t : Thread) (e : Nat) (v : Word) : Thread :=
  if e = 0 then t else { t with regs := Cells.set 0 t.regs e v }

/-- A %k register; %k0 reads 0 (R56). -/
def Crew.kreg (c : Crew) (k : Nat) : DWord := if k = 0 then 0 else Cells.get 0 c.kregs k

/-- A %k register written; a write to %k0 is discarded (R56). -/
def Crew.setKreg (c : Crew) (k : Nat) (v : DWord) : Crew :=
  if k = 0 then c else { c with kregs := Cells.set 0 c.kregs k v }

/-- A 32-bit source (R56, R58). -/
def Crew.read32 (c : Crew) (t : Thread) (f : Reg) : Word :=
  if f.toNat < 48 then t.get (t.entry f.toNat) else (c.kreg (f.toNat - 48)).setWidth 32

/-- A 64-bit source: an even-odd pair, field 0 reading zero, or a whole %k (R57). -/
def Crew.read64 (c : Crew) (t : Thread) (f : Reg) : DWord :=
  if f = 0 then 0
  else if f.toNat < 48 then t.get (t.entry (f.toNat + 1)) ++ t.get (t.entry f.toNat)
  else c.kreg (f.toNat - 48)

/-- A predicate; %p0 reads true (R56). -/
def Thread.pred (t : Thread) (n : Nat) : Bool := if n = 0 then true else t.preds.getLsbD n

/-- A predicate written; a write to %p0 is discarded (R56). -/
def Thread.setPred (t : Thread) (n : Nat) (v : Bool) : Thread :=
  if n = 0 then t
  else { t with preds := if v then t.preds ||| ((1 : BitVec 8) <<< n) else t.preds &&& ~~~((1 : BitVec 8) <<< n) }

/-- The guard of a word in a thread (R130). -/
def Thread.guard (t : Thread) (g : Guard) : Bool := t.pred (g.toNat % 8) != g.getLsbD 3

/-- A 32-bit or 64-bit thread register written (R57; a 64-bit write to field 0 is discarded). -/
def Thread.write (t : Thread) (f : Reg) (wide : Bool) (v : DWord) : Thread :=
  if wide then
    if f = 0 then t
    else (t.put (t.entry f.toNat) (v.setWidth 32)).put (t.entry (f.toNat + 1)) (v.extractLsb' 32 32)
  else t.put (t.entry f.toNat) (v.setWidth 32)

/-- A %k register written by a 32-bit result, which clears bits [63:32], or by a 64-bit one (R58). -/
def Crew.writeK (c : Crew) (f : Reg) (wide : Bool) (v : DWord) : Crew :=
  c.setKreg (f.toNat - 48) (if wide then v else (v.setWidth 32).setWidth 64)

/-- The physical entries a thread destination of n registers names: none for field 0, whose result is discarded
(R56, R57, R210; for four registers log 15). -/
def Thread.destEntries (t : Thread) (f : Reg) (n : Nat) : List Nat :=
  if f = 0 then [] else (upFrom f.toNat n).map t.entry

/-- %WINSTATE (R64 table 4). -/
def Thread.winstate (t : Thread) : Word :=
  (if t.trap then 0x80000000 else 0) ||| (if t.limit then 0x40000000 else 0)
    ||| BitVec.ofNat 32 (t.lo % 1024 * 1024) ||| BitVec.ofNat 32 (t.depth % 1024)

/-! ## Storage tags (R69) -/

/-- Entries retagged P. -/
def Crew.tagP (c : Crew) (entries : List Nat) : Crew :=
  { c with utags := entries.foldl (fun m e => m &&& ~~~((1 : BitVec 128) <<< e)) c.utags }

/-! ## Bytes and words -/

/-- The bytes of a number, lowest first (R6). -/
def bytesOf : Nat → Nat → List Byte
  | 0, _ => []
  | n + 1, v => BitVec.ofNat 8 v :: bytesOf n (v / 256)

/-- The number that bytes make, lowest first (R6). -/
def natOf : List Byte → Nat
  | [] => 0
  | b :: t => b.toNat + 256 * natOf t

/-- A byte of a sparse memory (unlisted: zero). -/
def Memory.byte (m : Memory) (a : Nat) : Byte := Cells.get 0 m a

/-- A byte written, the canonical form kept. -/
def Memory.setByte (m : Memory) (a : Nat) (v : Byte) : Memory := Cells.set 0 m a v

/-- n bytes from an address. -/
def Memory.read (m : Memory) (a : Nat) : Nat → List Byte
  | 0 => []
  | n + 1 => m.byte a :: Memory.read m (a + 1) n

/-- Bytes written from an address. -/
def Memory.write (m : Memory) (a : Nat) : List Byte → Memory
  | [] => m
  | b :: t => Memory.write (m.setByte a b) (a + 1) t

/-- The canonical form of a memory: addresses rise and no listed byte is zero. -/
abbrev Memory.wf (m : Memory) : Prop := Cells.canonical 0 m = true

/-- Bit range of a number, as a number (R6). -/
def field (v lo n : Nat) : Nat := v / 2 ^ lo % 2 ^ n

/-! ## Homes and physical memory (R272, R276, R277) -/

/-- First host-homed physical address and size of the LPDDR-5X (R272). -/
def hostBase : Nat := 0x8000000000000
def dramSize : Nat := 0x20000000000

/-- Whether a physical address is populated (R272). -/
def populated (pa : Nat) : Bool := decide (pa < dramSize) || (decide (hostBase ≤ pa) && decide (pa < 2 ^ 52))

/-- The 128 B line of an address (R276). -/
def lineOf (a : Nat) : Nat := a / 128 * 128

/-- The M-die, hence home C-die, of a line (R276). -/
def homeDie (pa : Nat) : Nat :=
  if hostBase ≤ pa then 1 else (field pa 12 2 ^^^ field pa 22 2) ^^^ field pa 32 2

/-- The bucket of a line (R276). -/
def bucketOf (pa : Nat) : Nat := if hostBase ≤ pa then field pa 7 44 % 768 else field pa 7 34 % 768

/-- The local slice that a die's map gives a bucket (R276). -/
def Die.mapped (d : Die) (b : Nat) : Nat := Cells.get (b % 48) d.map b

/-- The home slice of a line (R276). -/
def State.homeSlice (s : State) (pa : Nat) : Nat :=
  let d := homeDie pa
  48 * d + (s.die d).mapped (bucketOf pa)

/-- Whether a line is poisoned (R283). -/
def State.poisoned (s : State) (pa : Nat) : Bool := s.poison.contains (lineOf pa)

/-- A line marked poisoned, in rising order. -/
def State.addPoison (s : State) (line : Nat) : State :=
  if s.poison.contains line then s
  else { s with poison := s.poison.filter (· < line) ++ line :: s.poison.filter (line < ·) }

/-- A byte of global memory where its home holds it: LPDDR-5X, a host line held at the slice, or the host. -/
def State.globalByte (s : State) (pa : Nat) : Byte :=
  if hostBase ≤ pa then
    match Cells.find (s.slice (s.homeSlice pa)).lines (lineOf pa) with
    | some m =>
      if m.present then m.data.getD (pa % 128) (s.hostMem.byte (pa - hostBase)) else s.hostMem.byte (pa - hostBase)
    | none => s.hostMem.byte (pa - hostBase)
  else s.mem.byte pa

/-- A byte of a space (R294). -/
def State.byteAt (s : State) (sp : Space) (a : Nat) : Byte :=
  match sp with
  | .global => s.globalByte a
  | .deck c => (s.core c).deck.byte a
  | .obuf c => (s.core c).obuf.byte a
  | .mailbox => 0

/-- n bytes of a space. -/
def State.bytesAt (s : State) (sp : Space) (a : Nat) : Nat → List Byte
  | 0 => []
  | n + 1 => s.byteAt sp a :: State.bytesAt s sp (a + 1) n

/-- A byte written where it is performed. A host-homed byte goes to the line its slice holds, else to the
host (PCIe path). -/
def State.setByteAt (s : State) (sp : Space) (a : Nat) (v : Byte) : State :=
  match sp with
  | .global =>
    if hostBase ≤ a then
      let e := s.homeSlice a
      match Cells.find (s.slice e).lines (lineOf a) with
      | some m =>
        if m.present then
          s.modSlice e fun x =>
            { x with lines := Cells.put x.lines (lineOf a) { m with data := setAt m.data (a % 128) v, dirty := true } }
        else { s with hostMem := s.hostMem.setByte (a - hostBase) v }
      | none => { s with hostMem := s.hostMem.setByte (a - hostBase) v }
    else { s with mem := s.mem.setByte a v }
  | .deck c => s.modCore c fun x => { x with deck := x.deck.setByte a v }
  | .obuf c => s.modCore c fun x => { x with obuf := x.obuf.setByte a v }
  | .mailbox => s

/-- Bytes written one after another. -/
def State.setBytesAt (s : State) (sp : Space) (a : Nat) : List Byte → State
  | [] => s
  | b :: t => State.setBytesAt (s.setByteAt sp a b) sp (a + 1) t

/-! ## Tree pseudo-LRU (R283, R378) -/

/-- The tree bits of a set of 2^h ways once a way of it was used, so that they point away from it, or was made the set's
next victim, so that they point to it. -/
def treeMark (tree : List (Nat × Bool)) (base way : Nat) (away : Bool) : Nat → Nat → List (Nat × Bool)
  | 0, _ => tree
  | h + 1, node =>
    let right := way / 2 ^ h % 2 == 1
    treeMark (Cells.put tree (base + node) (right != away)) base way away h (2 * node + if right then 1 else 0)

/-- The way that the tree bits of a set point to among those allowed: where a side holds none, the other is taken. -/
def treePick (tree : List (Nat × Bool)) (base : Nat) (ok : Nat → Bool) : Nat → Nat → Nat → Option Nat
  | 0, _, way => if ok way then some way else none
  | h + 1, node, way =>
    let side (right : Bool) : Option Nat :=
      treePick tree base ok h (2 * node + if right then 1 else 0) (2 * way + if right then 1 else 0)
    let right := Cells.get false tree (base + node)
    (side right).orElse fun _ => side (!right)

/-! ## Translation (R374 to R378) -/

/-- A page found by a walk: first virtual byte, size, first physical byte, permissions X W R, path bit. -/
structure Page where
  va : Nat
  size : Nat
  pa : Nat
  perms : BitVec 3
  hp : Bool
deriving DecidableEq, Repr

/-- The permissions an access kind needs, as X W R bits (R376). -/
def walkNeeds : WalkKind → BitVec 3
  | .read => 1
  | .write => 2
  | .atomic => 3
  | .fetch => 4

/-- The fault code of a failed translation (R377). -/
def walkCode : WalkKind → BitVec 8
  | .read => 5
  | .write | .atomic => 6
  | .fetch => 7

/-- Page size of a leaf by level and its C64 bit (R374, R375). -/
def pageSize (lev : Nat) (c64 : Bool) : Nat :=
  match lev with
  | 0 => if c64 then 0x10000 else 0x1000
  | 1 => 0x200000
  | _ => 0x40000000

/-- The index of an address at a level (R374 table 8). -/
def tableIndex (a : Nat) : Nat → Nat
  | 0 => field a 12 9
  | 1 => field a 21 9
  | 2 => field a 30 9
  | _ => field a 39 17

/-- Whether an entry is malformed at a level (R377). -/
def entryBad (e lev : Nat) : Bool :=
  let leaf := e.testBit 1
  field e 52 12 != 0 || field e 9 3 != 0
    || (leaf && lev == 3) || (!leaf && lev == 0)
    || (e.testBit 8 && !(leaf && lev == 0))
    || (leaf && lev == 1 && field e 12 9 != 0) || (leaf && lev == 2 && field e 12 18 != 0)
    || (!leaf && decide (2 ^ 41 ≤ field e 12 40 * 4096))

/-- The cause by which the model tells a walk that reads a poisoned entry, which is no CAUSE of R377: the entry is read as a
load, and the access faults POISON (R211, R377; log 62, DEDUCED). -/
def causePoison : Nat := 16

/-- The walk from a level with the table at a physical address (R377). -/
def walkFrom (m : Memory) (poison : List Nat) (a : Nat) (need : BitVec 3) : Nat → Nat → Except WalkFault Page
  | lev, table =>
    let at' := table + 8 * tableIndex a lev
    let e := natOf (m.read at' 8)
    if poison.contains (lineOf at') then .error ⟨lev, causePoison⟩
    else if !e.testBit 0 then .error ⟨lev, 0⟩
    else if entryBad e lev then .error ⟨lev, 2⟩
    else if e.testBit 1 then
      let perms := BitVec.ofNat 3 (field e 2 3)
      if perms &&& need ≠ need then .error ⟨lev, 1⟩
      else
        let size := pageSize lev (e.testBit 8)
        let frame := field e 12 40 * 4096 / size * size
        if !populated (frame + a % size) then .error ⟨lev, 3⟩
        else .ok ⟨a / size * size, size, frame, perms, e.testBit 5⟩
    else
      match lev with
      | 0 => .error ⟨0, 2⟩
      | lev' + 1 => walkFrom m poison a need lev' (field e 12 40 * 4096)

/-- The lines whose entries a walk reads, from a level with the table at a physical address (R377). -/
def walkLines (m : Memory) (poison : List Nat) (a : Nat) : Nat → Nat → List Nat
  | lev, table =>
    let at' := table + 8 * tableIndex a lev
    let e := natOf (m.read at' 8)
    lineOf at' ::
      if poison.contains (lineOf at') || !e.testBit 0 || entryBad e lev || e.testBit 1 then []
      else
        match lev with
        | 0 => []
        | lev' + 1 => walkLines m poison a lev' (field e 12 40 * 4096)

/-- Whether an address lies in a granted counter overflow page (R74). -/
def State.inOverflow (s : State) (a : Nat) : Bool :=
  (s.dies.any fun d => d.2.pages != 0) && match Config.overflowPage (a / 0x200000) with
    | some (d, n) => decide (n < (s.die d).pages)
    | none => false

/-- The level of the leaf that maps a page of a size (R374). -/
def leafLevel (size : Nat) : Nat := if size = 0x40000000 then 2 else if size = 0x200000 then 1 else 0

/-- The physical address that a translation gives. No program's access reaches a granted overflow page, which no page table
of the Coxswain maps: one that does map it is answered as for an unpopulated page, which the spec does not say (R2, R74;
log 60, DESIGN CHOICE). -/
def State.reachable (s : State) (size pa : Nat) (hp : Bool) : Except WalkFault (Nat × Bool) :=
  if s.inOverflow pa then .error ⟨leafLevel size, 3⟩ else .ok (pa, hp)

/-- A walk for a context (R377). -/
def State.walk (s : State) (ctx a : Nat) (kind : WalkKind) : Except WalkFault Page :=
  if 2 ^ 56 ≤ a then .error ⟨3, 4⟩
  else
    match walkFrom s.mem s.poison a (walkNeeds kind) 3 ((s.context ctx).root * 2 ^ 20) with
    | .error f => .error f
    | .ok p => (s.reachable p.size (p.pa + (a - p.va)) p.hp).map fun _ => p

/-- A cached translation that covers an address for a context and carries the needed permissions. -/
def Tlb.lookup (t : Tlb) (ctx a : Nat) (need : BitVec 3) : Option (Nat × TlbEntry) :=
  t.ways.find? fun w => w.2.ctx == ctx && decide (w.2.va ≤ a) && decide (a < w.2.va + w.2.size)
    && w.2.perms &&& need == need

/-- A way of a translation cache of 2^h ways a set used (R378). -/
def Tlb.touch (t : Tlb) (h w : Nat) : Tlb := ⟨t.ways, treeMark t.tree (w / 2 ^ h * 2 ^ h) (w % 2 ^ h) true h 1⟩

/-- A translation entered in a set of 2^h ways (R378): in the way that holds its page, the lowest free way, or the victim's. -/
def Tlb.fill (t : Tlb) (h set : Nat) (e : TlbEntry) : Tlb :=
  let base := set * 2 ^ h
  let way (ok : Option TlbEntry → Bool) : Option Nat := (upFrom 0 (2 ^ h)).find? fun k => ok (Cells.find t.ways (base + k))
  let same := way fun x => x.any fun x => x.ctx == e.ctx && x.va == e.va && x.size == e.size
  let k := ((same.orElse fun _ => way Option.isNone).orElse fun _ => treePick t.tree base (fun _ => true) h 1 0).getD 0
  Tlb.touch ⟨Cells.put t.ways (base + k) e, t.tree⟩ h (base + k)

/-- The set of a translation in a die TLB: 8,192 entries, 8 ways; the spec gives no index, so it is free (R378, log 7). -/
def dieTlbSet (e : TlbEntry) : Nat := Config.cacheSet 3 (e.va / 4096 * 16 + e.ctx) % 1024

/-- A translation entered in a core TLB, 128 entries fully associative, and in a die TLB (R378). -/
def Core.fillTlb (c : Core) (e : TlbEntry) : Core := { c with tlb := c.tlb.fill 7 0 e }
def Die.fillTlb (d : Die) (e : TlbEntry) : Die := { d with tlb := d.tlb.fill 3 (dieTlbSet e) e }

/-- The die's walkers have read the entries of a walk: their lines are yet to be used at their home slices (R377). -/
def Die.walked (d : Die) (m : Memory) (poison : List Nat) (root a : Nat) : Die :=
  if 2 ^ 56 ≤ a then d else { d with walks := d.walks ++ walkLines m poison a 3 (root * 2 ^ 20) }

/-- Translate for a core: core TLB, die TLB, then a walk by the die's walkers that fills both (R377, R378). -/
def State.translate (s : State) (core ctx a : Nat) (kind : WalkKind) :
    Except WalkFault (Nat × Bool) × State :=
  let c := s.core core
  let d := s.die (dieOf core)
  match c.tlb.lookup ctx a (walkNeeds kind) with
  | some (w, e) =>
    (s.reachable e.size (e.pa + (a - e.va)) e.hp, s.setCore core { c with tlb := c.tlb.touch 7 w })
  | none =>
    match d.tlb.lookup ctx a (walkNeeds kind) with
    | some (w, e) =>
      (s.reachable e.size (e.pa + (a - e.va)) e.hp,
        (s.setCore core (c.fillTlb e)).setDie (dieOf core) { d with tlb := d.tlb.touch 3 w })
    | none =>
      let d' := d.walked s.mem s.poison (s.context ctx).root a
      match s.walk ctx a kind with
      | .error f => (.error f, s.setDie (dieOf core) d')
      | .ok p =>
        let e : TlbEntry := ⟨ctx, p.va, p.size, p.pa, p.perms, p.hp⟩
        (.ok (p.pa + (a - p.va), p.hp), (s.setCore core (c.fillTlb e)).setDie (dieOf core) (d'.fillTlb e))

/-! ## Faults -/

/-- UNDEF, PRIV and the other codes of R358 table 1. -/
def codeUndef : BitVec 8 := 0x01
def codePriv : BitVec 8 := 0x02
def codeAlign : BitVec 8 := 0x03
def codeFetchAlign : BitVec 8 := 0x04
def codeXlateR : BitVec 8 := 0x05
def codeXlateW : BitVec 8 := 0x06
def codeXlateX : BitVec 8 := 0x07
def codeLanding : BitVec 8 := 0x08
def codeWinovf : BitVec 8 := 0x09
def codeWinunf : BitVec 8 := 0x0A
def codeCovf : BitVec 8 := 0x0B
def codeCstale : BitVec 8 := 0x0C
def codeCscope : BitVec 8 := 0x0D
def codeEngstale : BitVec 8 := 0x0E
def codeScorr : BitVec 8 := 0x0F
def codeSindep : BitVec 8 := 0x10
def codeSempty : BitVec 8 := 0x11
def codePoison : BitVec 8 := 0x12
def codeLinkdown : BitVec 8 := 0x13
def codeHostatom : BitVec 8 := 0x14
def codeLaunchdepth : BitVec 8 := 0x15
def codeBkpt : BitVec 8 := 0x16
def codeTrap : BitVec 8 := 0x17
def codeWatch : BitVec 8 := 0x18
def codeObrange : BitVec 8 := 0x19
def codeMxparam : BitVec 8 := 0x1A
def codeDeckrange : BitVec 8 := 0x1B
def codeRemote : BitVec 8 := 0x1C
def codeSlicertn : BitVec 8 := 0x1D
def codeRemaplost : BitVec 8 := 0x1E

/-- A failed translation as a trap (R359: EXT holds LEVEL and CAUSE). -/
def xlateTrap (kind : WalkKind) (a : DWord) (f : WalkFault) : Trap :=
  if f.cause = causePoison then { code := codePoison, addr := a }
  else { code := walkCode kind, addr := a, ext := BitVec.ofNat 8 (f.level * 16 + f.cause), walk := some f }

/-- First address of the core window (R273). -/
def windowBase : Nat := 0x00FFFFFFC0000000

/-- Where an access lands. -/
structure Place where
  space : Space
  addr : Nat
  cxl : Bool
deriving DecidableEq, Repr

/-- The core of a cluster's i-th core. -/
def clusterCore (core i : Nat) : Nat := core / 4 * 4 + i

/-- The deck, as base and size, that a team of a grid holds on a core (R273): the team of the same cluster
group, found through its first resident crew. -/
def State.teamDeck (s : State) (grid : Word) (team core : Nat) : Option (Nat × Nat) :=
  (s.crews.find? fun e => coreOf e.1 == core && e.2.grid == grid && e.2.team == team).map
    fun e => (e.2.deckBase, e.2.deckSize)

/-- The window part of R208: decks, cluster decks, live records. -/
def State.windowPlace (s : State) (slot : Nat) (c : Crew) (a : DWord) (n : Nat) : Except Trap Place :=
  let core := coreOf slot
  let w := a.toNat - windowBase
  let range : Except Trap Place := .error { code := codeDeckrange, addr := a }
  if w < 0x80000 then
    if w + n ≤ c.deckSize then .ok ⟨.deck core, c.deckBase + w, false⟩ else range
  else if 0x04000000 ≤ w ∧ w < 0x04400000 then
    let i := (w - 0x04000000) / 0x100000
    let off := (w - 0x04000000) % 0x100000
    let tcore := clusterCore core i
    if !c.cluster then range
    else
      match s.teamDeck c.grid (c.team / 4 * 4 + i) tcore with
      | some (b, z) => if off + n ≤ z then .ok ⟨.deck tcore, b + off, false⟩ else range
      | none => range
  else if 0x20000000 ≤ w ∧ w < 0x20100000 then
    let off := w - 0x20000000
    if (s.core core).records.any fun r => decide (r.2.base ≤ off) && decide (off + n ≤ r.2.base + r.2.len)
    then .ok ⟨.obuf core, off, false⟩
    else .error { code := codeObrange, addr := a }
  else range

/-- Whether LINKDOWN is in force for a path (R343, R352, R398). -/
def State.linkdown (s : State) (cxl : Bool) : Bool :=
  if cxl then s.links.cld || (s.boot.tdi == .locked || s.boot.tdi == .run) else s.links.pld

/-- The last checks of R208, past the address and its alignment: window, translation, link. -/
def State.locate (s : State) (slot : Nat) (c : Crew) (a : DWord) (n : Nat) (kind : WalkKind) :
    Except Trap Place × State :=
  if windowBase ≤ a.toNat then (s.windowPlace slot c a n, s)
  else
    match s.translate (coreOf slot) c.ctx a.toNat kind with
    | (.error f, s) => (.error (xlateTrap kind a f), s)
    | (.ok (pa, hp), s) =>
      if hostBase ≤ pa ∧ s.linkdown hp then (.error { code := codeLinkdown, addr := a }, s)
      else (.ok ⟨.global, pa, hp⟩, s)

/-- The checks of R208 on an access of n bytes, in their order. -/
def State.check (s : State) (slot : Nat) (c : Crew) (a : DWord) (n : Nat) (kind : WalkKind) :
    Except Trap Place × State :=
  if 2 ^ 56 ≤ a.toNat then (.error (xlateTrap kind a ⟨3, 4⟩), s)
  else if a.toNat % n ≠ 0 then (.error { code := codeAlign, addr := a }, s)
  else s.locate slot c a n kind

/-- Whether a fault is replayable for a thread or engine (R363). -/
def State.replayable (s : State) (ctx : Nat) (inTrap : Bool) (t : Trap) : Bool :=
  match t.walk with
  | some f => (s.context ctx).replay && decide (f.cause < 2) && !inTrap
  | none => false

/-! ## Taking a fault (R196, R357 to R364) -/

/-- %TRAPINFO (R359 table 2). -/
def trapInfo (t : Trap) (lost : Nat) : Word :=
  t.ext ++ (BitVec.ofNat 8 lost) ++ t.src ++ t.user ++ t.code

/-- Which hint kinds are pending (R197 KINDS). -/
def Hints.kinds (h : Hints) : Nat :=
  (if h.immx.isSome then 1 else 0) + (if h.modx.isSome then 2 else 0) + (if h.sched.isSome then 4 else 0)
    + (if h.tgt.isSome then 8 else 0) + (if h.conv.isSome then 16 else 0)

/-- The payloads in the order of the record's bytes 28 to 47 (R197). -/
def Hints.payloads (h : Hints) : List Byte :=
  let p (o : Option (BitVec 22)) : List Byte := bytesOf 4 ((o.getD 0).toNat)
  p h.immx ++ p h.modx ++ p h.sched ++ p h.tgt ++ p h.conv

/-- The trap record (R197 table 3). -/
def trapRecord (t : Trap) (pc : Word) (h : Hints) (lost cycle : Nat) : List Byte :=
  bytesOf 4 (trapInfo t lost).toNat ++ bytesOf 4 pc.toNat ++ bytesOf 8 t.addr.toNat
    ++ bytesOf 4 (pc + t.resume).toNat ++ [t.code, t.user.setWidth 8, BitVec.ofNat 8 lost, 0]
    ++ [BitVec.ofNat 8 h.kinds, 0, 0, 0] ++ h.payloads ++ bytesOf 8 cycle ++ bytesOf 8 0

/-- The event number of a core as a source (R388). -/
def srcCore (slot : Nat) : Nat := coreOf slot

/-- A thread's global identifier G (R25). -/
def Crew.globalId (c : Crew) (lane : Nat) : Nat := 1024 * c.team + 64 * c.crew + lane

/-- The shared part of a record or spill store: one FIFO entry holding bytes of one line (R206). -/
def storeEntry (id : Nat) (op : EntryOp) (p : Place) (data : List Byte) (lane : Nat) (pc : Word)
    (cycle : Nat) : Entry where
  id := id
  op := op
  space := p.space
  line := lineOf p.addr
  bytes := mapFrom (fun i b => (i, b)) (p.addr % 128) data
  items := []
  lane := lane
  size := data.length
  cxl := p.cxl
  policy := 0
  series := 0
  seq := 0
  sent := false
  pc := pc
  cycle := cycle
  after := []

/-- An entry joins a crew's store FIFO (R206). -/
def State.enter (s : State) (slot : Nat) (e : Entry) : State :=
  { (s.modCrew slot fun c => { c with fifo := c.fifo ++ [{ e with id := s.nextId }] }) with
    nextId := s.nextId + 1 }

/-- Halt a debugged context (R390): its crews stop issuing as for CTXSAVE, event kind 10 carries G. -/
def State.debugHalt (s : State) (slot : Nat) (c : Crew) (lane : Nat) : State :=
  let s := s.setContext c.ctx { s.context c.ctx with held := true, saving := true }
  let s := { s with cores := s.cores.map fun (e : Nat × Core) =>
    (e.1, if e.2.ctx == some c.ctx then { e.2 with preempt := true } else e.2) }
  s.event (srcCore slot) 10 c.ctx (bytesOf 8 (c.globalId lane))

/-- A double fault (R360): the thread exits and an event is logged, or a debugger's context halts with the thread runnable
at the faulting instruction (R390). -/
def State.doubleFault (s : State) (slot : Nat) (lane : Nat) (t : Trap) (pc : Word) (h : Hints) : State :=
  match s.crew? slot with
  | none => s
  | some c =>
    if (s.context c.ctx).debugger then
      (s.modCrew slot fun c => c.modThread lane fun th =>
        { th with pc := pc, hints := h, st := .runnable, outside := false }).debugHalt slot c lane
    else
      (s.modCrew slot fun c => c.modThread lane fun th => { th with st := .exited, hints := {}, outside := false }).event
        (srcCore slot) 2 c.ctx
        (bytesOf 8 (c.globalId lane) ++ bytesOf 8 pc.toNat ++ bytesOf 8 t.code.toNat ++ bytesOf 8 t.addr.toNat)

/-- A replay report raised for the driver, with its event of kind 4 (R364). -/
def State.report (s : State) (ctx : Nat) (t : Trap) (f : WalkFault) (slot issued : Nat) : State :=
  let id := s.cox.nextReport
  let r : Report := ⟨id, ctx, t.addr, t.code, f.level, f.cause, slot, issued, false⟩
  { s with cox := { s.cox with reports := s.cox.reports ++ [r], nextReport := id + 1 } }.event 201 4 ctx
    (bytesOf 8 id ++ bytesOf 8 t.addr.toNat ++ [t.code, BitVec.ofNat 8 f.level, BitVec.ofNat 8 f.cause])

/-- A replayable fault (R364): the lane blocks, holding its hints; lanes of one page share a report. -/
def State.blockReplay (s : State) (slot lane : Nat) (t : Trap) (f : WalkFault) (pc : Word) (h : Hints)
    (issued : Nat) : State :=
  match s.crew? slot with
  | none => s
  | some c =>
    let same (r : Report) : Bool := r.slot == slot && r.issued == issued && r.code == t.code && !r.answered
      && r.addr.toNat / 4096 == t.addr.toNat / 4096
    let id := match s.cox.reports.find? same with
      | some r => r.id
      | none => s.cox.nextReport
    let isNew := (s.cox.reports.find? same).isNone
    let s := s.modCrew slot fun c => c.modThread lane fun th =>
      { th with pc := pc, hints := h, outside := false, st := .replay ⟨t.code, t.addr, f.level, f.cause, id⟩ }
    if isNew then s.report c.ctx t f slot issued else s

/-- Entry into the trap vector (R196): record store, trap registers, hints saved and cleared, TRAP and D, PC. A %SPILLB that
is misaligned, or a record store that faults, is the second fault of a double fault (R360). -/
def State.enterTrap (s : State) (slot lane : Nat) (c : Crew) (t : Trap) (pc : Word) (h : Hints)
    (issued : Nat) : State :=
  let th := c.thread lane
  if th.spillb.toNat % 64 ≠ 0 then s.doubleFault slot lane { code := codeAlign, addr := th.spillb - 64 } pc h
  else
    match s.check slot c (th.spillb - 64) 64 .write with
    | (.error second, s) => s.doubleFault slot lane second pc h
    | (.ok p, s) =>
      let s := s.enter slot (storeEntry 0 .record p (trapRecord t pc h c.lost issued) lane pc issued)
      let th := { th with
        trapinfo := trapInfo t c.lost, trappc := pc, trapaddr := t.addr, hints := {}, outside := false, st := .runnable }
      match c.trapv with
      | some v => s.modCrew slot fun c => c.setThread lane { th with trap := true, depth := th.depth + 1, pc := v }
      | none =>
        (s.modCrew slot fun c => c.setThread lane { th with st := .exited }).event (srcCore slot) 11 c.ctx
          (bytesOf 8 (c.globalId lane) ++ bytesOf 8 (th.spillb - 64).toNat)

/-- Taking a fault (R357): replayable faults block, faults in a handler are double faults, a debugger takes
BKPT, every other fault enters the trap vector. `pc` and `h` are the faulting instruction's PC and hints. -/
def State.takeFault (s : State) (slot lane : Nat) (t : Trap) (pc : Word) (h : Hints) (issued : Nat) : State :=
  match s.crew? slot with
  | none => s
  | some c =>
    let th := c.thread lane
    if s.replayable c.ctx th.trap t then s.blockReplay slot lane t (t.walk.getD ⟨0, 0⟩) pc h issued
    else if th.trap then s.doubleFault slot lane t pc h
    else if t.code = codeBkpt ∧ (s.context c.ctx).debugger then
      let s := match s.check slot c (th.spillb - 64) 64 .write with
        | (.error _, s) => s
        | (.ok p, s) => s.enter slot (storeEntry 0 .record p (trapRecord t pc h c.lost issued) lane pc issued)
      (s.modCrew slot fun c => c.modThread lane fun th =>
        { th with
          pc := pc, hints := h, st := .runnable, outside := false
          trapinfo := trapInfo t c.lost, trappc := pc, trapaddr := t.addr }).debugHalt
          slot c lane
    else s.enterTrap slot lane c t pc h issued

/-- Faults of several lanes, taken in lane order, each at its own PC with its pending hints. -/
def State.takeFaults (s : State) (slot : Nat) (issued : Nat) : List (Nat × Trap) → State
  | [] => s
  | (lane, t) :: rest =>
    match s.crew? slot with
    | none => s
    | some c =>
      let th := c.thread lane
      State.takeFaults (s.takeFault slot lane t th.pc th.hints issued) slot issued rest

end Sys2Proof.Machine
end

