-- ==== Sys2Proof/Machine/Caches.lean ====
section
/-! DEFINITION. The caches' ways and their replacement (R280, R281, R283): the sets of the L1, of an L2 slice and of
the memory-side LLC, the instruction cache (R19), and what a fill displaces. The set index is free (log 7). -/

namespace Sys2Proof.Machine

/-! ## Sets and ways (R283) -/

/-- The line in a way of a set. -/
def Ways.line (w : Ways) (h set k : Nat) : Option Nat := Cells.find w.held (set * 2 ^ h + k)

/-- The way of a set that holds a line. -/
def Ways.wayOf (w : Ways) (h set line : Nat) : Option Nat := (upFrom 0 (2 ^ h)).find? fun k => w.line h set k == some line

/-- A line's way used: its tree bits point away from it, or to it when it is inserted as the next victim (R282, R283). -/
def Ways.use (w : Ways) (h set line : Nat) (away : Bool) : Ways :=
  match w.wayOf h set line with
  | none => w
  | some k => { w with tree := treeMark w.tree (set * 2 ^ h) k away h 1 }

/-- The way that a fill of a set takes and the line it displaces: the lowest way whose line is no longer held, else the one
the tree bits point to among the ways whose line is not kept, else among all (R283, log 7). -/
def Ways.room (w : Ways) (h set : Nat) (held keep : Nat → Bool) : Nat × Option Nat :=
  match (upFrom 0 (2 ^ h)).find? fun k => (w.line h set k).all fun l => !held l with
  | some k => (k, none)
  | none =>
    let pick (ok : Nat → Bool) : Option Nat := treePick w.tree (set * 2 ^ h) ok h 1 0
    let k := ((pick fun k => (w.line h set k).any fun l => !keep l).orElse fun _ => pick fun _ => true).getD 0
    (k, w.line h set k)

/-- A line placed in a way of a set. -/
def Ways.place (w : Ways) (h set k line : Nat) : Ways :=
  { w with held := Cells.put (w.held.filter fun e => e.2 != line) (set * 2 ^ h + k) line }

/-! ## The L1 and the instruction cache (R19, R280) -/

/-- The set of a line in the L1: 256 KiB, 8 ways, 128 B lines. -/
def l1Set (line : Nat) : Nat := Config.cacheSet 0 line % 256

/-- A hit in the L1. -/
def Core.l1Hit (k : Core) (line : Nat) : Core := { k with l1ways := k.l1ways.use 3 (l1Set line) line true }

/-- A copy put into the L1, the line it displaces dropped. -/
def Core.l1Fill (k : Core) (line : Nat) (cp : LineCopy) : Core :=
  match Cells.find k.l1 line with
  | some _ => { k.l1Hit line with l1 := Cells.put k.l1 line cp }
  | none =>
    let r := k.l1ways.room 3 (l1Set line) (fun l => (Cells.find k.l1 l).isSome) fun _ => false
    let rest := match r.2 with
      | some v => Cells.erase k.l1 v
      | none => k.l1
    { k with
      l1 := Cells.put rest line cp
      l1ways := (k.l1ways.place 3 (l1Set line) r.1 line).use 3 (l1Set line) line true }

/-- The lines of the instruction cache: 128 KiB. -/
def codeLines : Nat := 1024

/-- A line put into the instruction cache; a full one first drops a line, which the spec does not name (log 7). -/
def State.fillCode (s : State) (core line : Nat) (data : List Byte) : State :=
  let k := s.core core
  if k.icache.length < codeLines then s.setCore core { k with icache := Cells.put k.icache line data }
  else
    let gone := (k.icache[Config.codeVictim s.fresh % codeLines]?).map (·.1)
    let rest := match gone with
      | some v => Cells.erase k.icache v
      | none => k.icache
    { s.setCore core { k with icache := Cells.put rest line data } with fresh := s.fresh + 1 }

/-! ## The memory-side LLC (R18, R283) -/

/-- The set of a line in its LLC: 512 MiB, 16 ways, 128 B lines. -/
def llcSet (line : Nat) : Nat := Config.cacheSet 2 line % 262144

/-- A line of LPDDR-5X read or written at the LLC of its M-die: a hit, or a fill that displaces a line, which goes to
LPDDR-5X when it is dirty. A write leaves the line dirty. -/
def State.useLlc (s : State) (line : Nat) (dirty : Bool) : State :=
  s.modDie (homeDie line) fun d =>
    let set := llcSet line
    let placed : Ways × List Nat :=
      match d.llc.wayOf 4 set line with
      | some _ => (d.llc, d.llcDirty)
      | none =>
        let r := d.llc.room 4 set (fun _ => true) fun _ => false
        (d.llc.place 4 set r.1 line, match r.2 with
          | some v => d.llcDirty.filter fun l => l != v
          | none => d.llcDirty)
    { d with
      llc := placed.1.use 4 set line true
      llcDirty := if dirty && !placed.2.contains line then placed.2 ++ [line] else placed.2 }

end Sys2Proof.Machine
end

