-- ==== Sys2Proof/Machine/Operands.lean ====
section
/-! DEFINITION. The operand forms of words and the frame every word runs in: the run and its active lanes
(R36, R130), pending hints and widened immediates (R132, R135, R136), per-lane results, %k destinations
(R59), storage tags (R69), strokes (R37, R38, R40). -/

namespace Sys2Proof.Machine

/-- What a step answers. -/
abbrev Result := Host.Outcome State Fault Refusal

/-! ## Hints -/

/-- SAT of a pending MODX (R136). -/
def Thread.sat (t : Thread) : Bool := (t.hints.modx.getD 0).getLsbD 2

/-- RM of a pending MODX; RNE without one (R101, R136). -/
def Thread.rm (t : Thread) : Nat := (t.hints.modx.getD 0).toNat % 4

/-- CP of a pending MODX; NORMAL without one (R282). -/
def Thread.policy (t : Thread) : Nat := field (t.hints.modx.getD 0).toNat 10 3

/-- FFMA's third source: field C of a MODX whose CV is 1, else the destination (R136). -/
def Thread.third (t : Thread) (d : Reg) : Reg :=
  match t.hints.modx with
  | some p => if p.getLsbD 9 then p.extractLsb' 3 6 else d
  | none => d

/-- imm10 as 32 bits: sign-extended, or widened by a pending IMMX (R129, R135). -/
def Thread.imm10 (t : Thread) (i : BitVec 10) : Word :=
  match t.hints.immx with
  | some p => p ++ i
  | none => i.signExtend 32

/-- imm16 as 32 bits: sign-extended, or widened by a pending IMMX (R135, R155). -/
def Thread.imm16 (t : Thread) (i : BitVec 16) : Word :=
  match t.hints.immx with
  | some p => (p.setWidth 16) ++ i
  | none => i.signExtend 32

/-- The byte offset of a format M word: off7, or the 29-bit form under IMMX, times the access size (R135). -/
def Thread.offM (t : Thread) (o : BitVec 7) (n : Nat) : DWord :=
  (match t.hints.immx with
   | some p => (p ++ o).signExtend 64
   | none => o.signExtend 64) * BitVec.ofNat 64 n

/-- An instruction with no immediate to widen: a pending IMMX raises UNDEF (R135). -/
def noImmx (t : Thread) : Bool := t.hints.immx.isSome

/-- Format I16: a payload with bits [21:16] set raises UNDEF (R135). -/
def wideImmx (t : Thread) : Bool :=
  match t.hints.immx with
  | some p => p.extractLsb' 16 6 != 0
  | none => false

/-- A word that takes any IMMX. -/
def anyImmx (_ : Thread) : Bool := false

/-! ## The run -/

/-- The run's threads whose guard is true, in lane order. -/
def Crew.active (c : Crew) (lanes : List Nat) (g : Guard) : List Nat :=
  lanes.filter fun l => (c.thread l).guard g

/-- A thread after a word in sequence: PC advanced, hints consumed (R132, R36). -/
def Thread.next (t : Thread) : Thread := { t with pc := t.pc + 4, hints := {} }

/-- The crew after a word in sequence for some lanes. -/
def Crew.next (c : Crew) (lanes : List Nat) : Crew := c.modLanes lanes fun _ t => t.next

/-- Strokes that hold an active lane (R37). -/
def strokes (act : List Nat) : Nat :=
  (if act.any (· / 16 == 0) then 1 else 0) + (if act.any (· / 16 == 1) then 1 else 0)
    + (if act.any (· / 16 == 2) then 1 else 0) + (if act.any (· / 16 == 3) then 1 else 0)

/-- The frame of every word: the issuing crew and its run. Where a pending hint makes the word no instruction, for any
thread of the run, every thread of the run takes UNDEF (R131, R135; log 14); else the word has its effect. -/
def State.wordFrame (s : State) (bad : Thread → Bool)
    (k : State → Nat → Crew → List Nat → State) : Result :=
  let slot := s.cur.slot
  match s.crew? slot with
  | none => .next s
  | some c =>
    if s.cur.lanes.any fun l => bad (c.thread l) then
      .next ((s.takeFaults slot s.cycle (s.cur.lanes.map fun l => (l, { code := codeUndef }))).spend 1)
    else .next (k s slot c s.cur.lanes)

/-- Whether a word is an FFMA, whose written operand is its third source too unless a MODX names another (R136). -/
def fusedWord : Instr → Bool
  | .ffmaF32 .. | .ffmaF64 .. | .ffmaF16 .. | .ffmaBf16 .. => true
  | _ => false

/-- The register fields a word reads in a thread (R57, R136, R152). -/
def sourceFields (i : Instr) (t : Thread) : List Reg :=
  ((i.operands.filter (·.read)).map fun o =>
    o.cls.fields (if fusedWord i && o.written then t.third o.field else o.field)).flatten

/-- What a register field names in a thread: a physical entry, or 128 + n for %k n (R64). -/
def Thread.names (t : Thread) (f : Reg) : Nat := if 48 ≤ f.toNat then 128 + (f.toNat - 48) else t.entry f.toNat

/-- Whether an instruction issues in one stroke: every thread of the run names each register source as one and the same
%k register or entry tagged U (R38, R70). -/
def Crew.uniformIssue (c : Crew) (lanes : List Nat) (i : Instr) : Bool :=
  let named (l : Nat) : List Nat := (sourceFields i (c.thread l)).map (c.thread l).names
  match lanes with
  | [] => true
  | l :: r => (named l).all (fun e => decide (128 ≤ e) || c.utags.getLsbD e) && r.all fun m => named m == named l

/-- The active lanes whose results a word with destination d computes: all of them, but with a %k destination only those
of the one stroke that runs, the stroke of the lowest (R38, R59). -/
def computedLanes (act : List Nat) (d : Reg) (uniform : Bool) : List Nat :=
  if uniform || decide (d.toNat < 48) then act else act.filter fun l => l / 16 == act.headD 0 / 16

/-- The storage tag of one written entry (R69). -/
def Crew.tagWrite (c : Crew) (old : Crew) (act : List Nat) (uniform : Bool) (f : Nat) : Crew :=
  match act with
  | [] => c
  | l0 :: _ =>
    let e := (old.thread l0).entry f
    let same := act.all fun l => (old.thread l).entry f == e
    let full := act.length == 64
    let keeps := old.utags.getLsbD e && (c.thread l0).get e == (old.thread l0).get e
    if uniform && same && (full || keeps) then { c with utags := c.utags ||| ((1 : BitVec 128) <<< e) }
    else c.tagP (act.map fun l => (old.thread l).entry f)

/-- Per-lane results written to a destination (R57 to R59): each active lane's own register, or one %k
register from the lowest active lane. A result for field 0 is discarded and changes no tag (R56, R57, R69). -/
def Crew.writeResults (c : Crew) (act : List Nat) (d : Reg) (wide uniform : Bool)
    (f : Nat → DWord) : Crew :=
  if 48 ≤ d.toNat then
    match act with
    | [] => c
    | l :: _ => c.writeK d wide (f l)
  else
    let c1 := c.modLanes act fun l t => t.write d wide (f l)
    if d = 0 then c1
    else
      let c2 := c1.tagWrite c act uniform d.toNat
      if wide then c2.tagWrite c act uniform (d.toNat + 1) else c2

/-- Issue cycles of a pipe instruction (R37, R38, R40, R59). -/
def pipeCycles (act : List Nat) (once : Bool) (cost : Nat) : Nat :=
  if act.isEmpty then 1 else (if once then 1 else strokes act) * cost

/-- A word whose effect is one result per active lane. `cost` is the class's c per stroke. -/
def State.regWord (s : State) (i : Instr) (bad : Thread → Bool) (g : Guard) (d : Reg) (wide : Bool)
    (cost : Nat) (uniformPreds : Bool) (f : Crew → Nat → Thread → DWord) : Result :=
  s.wordFrame bad fun s slot c lanes =>
    let act := c.active lanes g
    let u := uniformPreds && c.uniformIssue lanes i
    let c1 := c.writeResults act d wide u fun l => f c l (c.thread l)
    (s.setCrew slot (c1.next lanes)).spend (pipeCycles act (u || decide (48 ≤ d.toNat)) cost)

/-- A floating-point word: a result and the flags it raises (NV 1, DZ 2, OF 4, UF 8, NX 16) per lane that computes
(R59, R63; log 11). -/
def State.fpWord (s : State) (i : Instr) (bad : Thread → Bool) (g : Guard) (d : Reg) (wide : Bool)
    (cost : Nat) (f : Crew → Nat → Thread → DWord × Nat) : Result :=
  s.wordFrame bad fun s slot c lanes =>
    let act := c.active lanes g
    let u := c.uniformIssue lanes i
    let c1 := c.writeResults act d wide u fun l => (f c l (c.thread l)).1
    let c2 := c1.modLanes (computedLanes act d u) fun l t =>
      { t with fpflags := t.fpflags ||| BitVec.ofNat 32 (f c l (c.thread l)).2 }
    (s.setCrew slot (c2.next lanes)).spend (pipeCycles act (u || decide (48 ≤ d.toNat)) cost)

/-- A word that writes one predicate per active lane, with floating-point flags. -/
def State.predWord (s : State) (i : Instr) (g : Guard) (p : Nat) (cost : Nat) (uniformPreds : Bool)
    (f : Crew → Nat → Thread → Bool × Nat) : Result :=
  s.wordFrame noImmx fun s slot c lanes =>
    let act := c.active lanes g
    let u := uniformPreds && c.uniformIssue lanes i
    let c1 := c.modLanes act fun l t =>
      let r := f c l t
      { t.setPred p r.1 with fpflags := t.fpflags ||| BitVec.ofNat 32 r.2 }
    (s.setCrew slot (c1.next lanes)).spend (pipeCycles act u cost)

/-- As predWord for a word whose immediate an IMMX widens. -/
def State.predWordImm (s : State) (i : Instr) (g : Guard) (p : Nat)
    (f : Crew → Nat → Thread → Bool) : Result :=
  s.wordFrame noImmx fun s slot c lanes =>
    let act := c.active lanes g
    let u := c.uniformIssue lanes i
    let c1 := c.modLanes act fun l t => t.setPred p (f c l t)
    (s.setCrew slot (c1.next lanes)).spend (pipeCycles act u 1)

/-- A word whose effect is a change of state for its active lanes, at a cost that depends on them (R40). -/
def State.costWord (s : State) (bad : Thread → Bool) (g : Guard) (cost : List Nat → Nat)
    (k : State → Nat → Crew → List Nat → List Nat → State) : Result :=
  s.wordFrame bad fun s slot c lanes => (k s slot c lanes (c.active lanes g)).spend (cost (c.active lanes g))

/-- An issue-stage word: 1 c (R39). -/
def State.issueWord (s : State) (bad : Thread → Bool) (g : Guard)
    (k : State → Nat → Crew → List Nat → List Nat → State) : Result :=
  s.costWord bad g (fun _ => 1) k

/-- The c of a port word: so many for each stroke that is not skipped, one when all are (R40, R440). -/
def portCycles (each : Nat) (act : List Nat) : Nat := if act.isEmpty then 1 else strokes act * each

end Sys2Proof.Machine
end

