-- ==== Sys2Proof/Machine/Issue.lean ====
section
/-! DEFINITION. Runs and their choice: the PC table and the head run (R34 to R36), switch points of the
logically deterministic mode (R44), the promised thread and its count (R45 to R49), and the fetch of
instruction words (R127, R185). -/

namespace Sys2Proof.Machine

/-- Whether a thread stands in its crew's PC table (R34, R440). -/
def Thread.inTable (t : Thread) : Bool := t.st == .runnable && !t.outside

/-- The lanes of a crew whose thread meets a test, in lane order. -/
def Crew.lanesWith (c : Crew) (f : Thread → Bool) : List Nat :=
  (upFrom 0 c.threads.length).filter fun l => f (c.thread l)

/-- The run at a PC: every thread in the table with that PC (R36, R47). -/
def Crew.runAt (c : Crew) (pc : Word) : List Nat := c.lanesWith fun t => t.inTable && t.pc == pc

/-- The lowest PC in the table (R36). -/
def Crew.lowestPc (c : Crew) : Option Word :=
  c.threads.foldl (init := none) fun m t =>
    if t.inTable then
      match m with
      | none => some t.pc
      | some p => if t.pc.toNat < p.toNat then some t.pc else m
    else m

/-- Whether a crew has a runnable thread (R44). -/
def Crew.anyRunnable (c : Crew) : Bool := c.threads.any fun t => t.st == .runnable

/-- Whether every thread has exited. -/
def Crew.allExited (c : Crew) : Bool := c.threads.all fun t => t.st == .exited

/-- Logical crew index (R25). -/
def Crew.logical (c : Crew) : Nat := 16 * c.team + c.crew

/-- The crews of a subcore (core × 4 + j), by slot. -/
def State.subCrews (s : State) (sub : Nat) : List (Nat × Crew) := s.crews.filter fun e => e.1 / 8 == sub

/-- The crew of lowest (grid, logical index) among some (R44). -/
def lowestCrew (l : List (Nat × Crew)) : Option Nat :=
  (l.foldl (init := (none : Option (Nat × Crew))) fun m e =>
    match m with
    | none => some e
    | some b =>
      if e.2.grid.toNat < b.2.grid.toNat ∨ (e.2.grid = b.2.grid ∧ e.2.logical < b.2.logical) then some e else m).map
    (·.1)

/-- A subcore of the machine, by number core × 4 + j. -/
def State.sub (s : State) (sub : Nat) : Subcore := (s.core (sub / 4)).subcore (sub % 4)
def State.setSub (s : State) (sub : Nat) (v : Subcore) : State := s.modCore (sub / 4) fun c => c.setSubcore (sub % 4) v

/-- The choice of R44 at a switch point: the crew a count of R48 has made next, else the lowest qualifying
crew, the current one only when it may and no other qualifies. -/
def State.chooseCrew (s : State) (sub : Nat) (passOver : Bool) : Option Nat :=
  let v := s.sub sub
  let ok := (s.subCrews sub).filter fun e => e.2.anyRunnable
  match v.forced with
  | some f => if ok.any fun e => e.1 == f.1 then some f.1 else lowestCrew ok
  | none =>
    if passOver then
      match lowestCrew (ok.filter fun e => some e.1 != v.current) with
      | some k => some k
      | none => lowestCrew ok
    else lowestCrew ok

/-- A switch point of a subcore in logically deterministic mode; nothing in normal mode. An issue that is the 65,536th
passes over the current crew whatever its word (R44). -/
def State.switchPoint (s : State) (slot : Nat) (passOver : Bool) : State :=
  if (s.core (coreOf slot)).ldet then
    let v := s.sub (slot / 8)
    s.setSub (slot / 8) { v with
      current := s.chooseCrew (slot / 8) (passOver || decide (65536 ≤ v.budget)), budget := 0 }
  else s

/-- The end of a crew's waiting period (R43). -/
def State.endPeriod (s : State) (slot : Nat) : State := s.modCrew slot fun c => { c with period := none }

/-! ## The promised thread (R45 to R49) -/

/-- The runnable thread of lowest G of a grid: slot, lane and G (R45). -/
def State.promised (s : State) (grid : Word) : Option (Nat × Nat × Nat) :=
  s.crews.foldl (init := none) fun m e =>
    if e.2.grid = grid then
      match e.2.lanesWith (fun t => t.st == .runnable) with
      | [] => m
      | l :: _ =>
        let g := e.2.globalId l
        match m with
        | none => some (e.1, l, g)
        | some b => if g < b.2.2 then some (e.1, l, g) else m
    else m

/-- The count kept or restarted for a promised thread. -/
def Subcore.follow (v : Subcore) (grid : Nat) (p : Nat × Nat × Nat) (cycle : Nat) : Stall :=
  match v.stalls.find? fun x => x.grid == grid && x.g == p.2.2 && x.slot == p.1 with
  | some x => x
  | none => ⟨grid, p.2.2, p.1, p.2.1, cycle, 0⟩

/-- The grids with a crew on a subcore, each once. -/
def gridsOf (l : List (Nat × Crew)) : List Word := (l.map fun e => e.2.grid).eraseDups

/-- A count's value: cycles in normal mode, issues in deterministic mode (R47, R48). -/
def Stall.count (x : Stall) (ldet : Bool) (cycle : Nat) : Nat := if ldet then x.issues else cycle - x.since

/-- The highest count that has reached its limit, ties to the lower crew slot (R49). -/
def State.expired (s : State) (sub : Nat) : Option Stall :=
  let ldet := (s.core (sub / 4)).ldet
  ((s.sub sub).stalls.filter fun x => decide (1024 ≤ x.count ldet s.cycle)).foldl (init := none) fun m x =>
    match m with
    | none => some x
    | some b =>
      if b.count ldet s.cycle < x.count ldet s.cycle ∨ (b.count ldet s.cycle = x.count ldet s.cycle ∧ x.slot < b.slot)
      then some x else m

/-- The counts of a subcore brought up to date: one for each grid whose promised thread it holds. -/
def State.refreshCounts (s : State) (sub : Nat) : State :=
  let v := s.sub sub
  let now := (gridsOf (s.subCrews sub)).filterMap fun g =>
    match s.promised g with
    | some p => if p.1 / 8 == sub then some (v.follow g.toNat p s.cycle) else none
    | none => none
  if now = v.stalls then s else s.setSub sub { v with stalls := now }

/-- The run that a count which has reached its limit makes next, none when no count has (R47, R48, R49). -/
def State.refreshForced (s : State) (sub : Nat) : State :=
  let v := s.sub sub
  let due : Option (Nat × Word) := (s.expired sub).bind fun x =>
    (s.crew? x.slot).map fun c => (x.slot, (c.thread x.lane).pc)
  if due = v.forced then s else s.setSub sub { v with forced := due }

/-- In logically deterministic mode, the choice of a crew where the current one is gone or has exited, or where none was
runnable before: it is made in the c in which a crew qualifies and then stands (R44). -/
def State.refreshCurrent (s : State) (sub : Nat) : State :=
  let v := s.sub sub
  let stands := match v.current with
    | none => false
    | some k =>
      match s.crew? k with
      | none => false
      | some c => !c.allExited
  if stands || !(s.core (sub / 4)).ldet then s
  else
    let k := s.chooseCrew sub false
    if k = v.current then s else s.setSub sub { v with current := k, budget := 0 }

/-- A subcore's counts, forced run and current crew brought up to date. -/
def State.refreshSub (s : State) (sub : Nat) : State :=
  ((s.refreshCounts sub).refreshForced sub).refreshCurrent sub

/-- The subcores that hold a crew or a current crew's number, each once. -/
def State.busySubs (s : State) : List Nat :=
  ((s.crews.map fun (e : Nat × Crew) => e.1 / 8) ++ (s.cores.map fun (k : Nat × Core) =>
    (upFrom (4 * k.1) 4).filter fun j => (k.2.subcore (j % 4)).current.isSome).flatten).eraseDups

/-- Every subcore brought up to date before a step (R44, R47, R48). -/
def State.refreshSubs (s : State) : State := s.busySubs.foldl State.refreshSub s

/-- The run of an expired count issues next, or its crew is chosen at the next switch point. -/
def State.forceExpired (s : State) (sub : Nat) (ldet : Bool) : State :=
  if (s.core (sub / 4)).ldet == ldet then
    match s.expired sub with
    | none => s
    | some x =>
      match s.crew? x.slot with
      | none => s
      | some c => s.setSub sub { s.sub sub with forced := some (x.slot, (c.thread x.lane).pc) }
  else s

/-- PROGRESS_COUNT_EXPIRY (R47, R49). -/
def execProgressCountExpiry (sub : Nat) (s : State) : Result := .next (s.forceExpired sub false)

/-- PROGRESS_ISSUE_COUNT_EXPIRY (R48, R49). -/
def execProgressIssueCountExpiry (sub : Nat) (s : State) : Result := .next (s.forceExpired sub true)

/-- ISSUE_BUDGET_EXPIRY (R44): the current crew's 65,536th issue is a switch point, and it is passed over. -/
def execIssueBudgetExpiry (sub : Nat) (s : State) : Result :=
  let v := s.sub sub
  match v.current with
  | some slot => if 65536 ≤ v.budget then .next (s.switchPoint slot true) else .next s
  | none => .next s

/-- The bookkeeping of one issue: the waiting period ends, the run's own count restarts with the next c, other counts of
the subcore rise, the budget rises, the forced run is done once it has issued (R43, R44, R47, R48). -/
def State.noteIssue (s : State) (slot : Nat) (lanes : List Nat) : State :=
  let sub := slot / 8
  let v := s.sub sub
  let stalls := v.stalls.map fun x =>
    if x.slot == slot && lanes.contains x.lane then { x with since := s.cycle + 1, issues := 0 }
    else { x with issues := x.issues + 1 }
  let done := match v.forced, s.crew? slot with
    | some f, some c => f.1 == slot && lanes.any fun l => (c.thread l).pc == f.2
    | _, _ => false
  (s.setSub sub { v with
    stalls := stalls, budget := v.budget + 1, forced := if done then none else v.forced }).endPeriod slot

/-! ## Fetch (R127, R185, R188) -/

/-- A fetch through the instruction path (R127): the core's cached copy of the line, else the line as it
stands at its home, kept from then on. -/
def State.codeWord (s : State) (core pa : Nat) : Word × State :=
  match Cells.find (s.core core).icache (lineOf pa) with
  | some l => (BitVec.ofNat 32 (natOf ((l.drop (pa % 128)).take 4)), s)
  | none =>
    let l := s.bytesAt .global (lineOf pa) 128
    (BitVec.ofNat 32 (natOf ((l.drop (pa % 128)).take 4)), s.fillCode core (lineOf pa) l)

/-- An executable translation of a code address. The core window is never translated, so no word there is
mapped executable; the LEVEL and CAUSE of that fault are not given (log 12). -/
def State.codePlace (s : State) (slot : Nat) (c : Crew) (a : Nat) : Except Trap Nat × State :=
  if windowBase ≤ a ∧ a < 2 ^ 56 then
    (.error { code := codeXlateX, addr := BitVec.ofNat 64 a, ext := Config.freeByte s.fresh },
      { s with fresh := s.fresh + 1 })
  else
    match s.translate (coreOf slot) c.ctx a .fetch with
    | (.error f, s) => (.error (xlateTrap .fetch (BitVec.ofNat 64 a) f), s)
    | (.ok p, s) => (.ok p.1, s)

/-- The virtual address of a PC (R185). -/
def Crew.codeAddr (c : Crew) (pc : Word) : Nat := (c.cb.toNat + pc.toNat) % 2 ^ 64

/-- The fetch of the word at a PC (R131): FETCHALIGN, then XLATE.X. -/
def State.fetch (s : State) (slot : Nat) (c : Crew) (pc : Word) : Except Trap Word × State :=
  let a := c.codeAddr pc
  if a % 4 ≠ 0 then (.error { code := codeFetchAlign, addr := BitVec.ofNat 64 a }, s)
  else
    match s.codePlace slot c a with
    | (.error t, s) => (.error t, s)
    | (.ok pa, s) =>
      let r := s.codeWord (coreOf slot) pa
      (.ok r.1, r.2)

/-- The run a crew issues next: the forced run of its subcore, in deterministic mode only right after the switch
point that chose its crew, else the head run (R36, R47, R48). A forced run whose threads are all in a completion
step issues when they stand in the table again. -/
def State.nextRun (s : State) (slot : Nat) (c : Crew) : Option (Word × List Nat) :=
  let head := c.lowestPc.map fun pc => (pc, c.runAt pc)
  let v := s.sub (slot / 8)
  match v.forced with
  | some f =>
    if f.1 = slot ∧ ((s.core (coreOf slot)).ldet = false ∨ v.budget = 0) then
      if (c.runAt f.2).isEmpty then none else some (f.2, c.runAt f.2)
    else head
  | none => head

/-- INSTRUCTION_FETCH (R127, R131, R185): the word of the crew's next run is fetched and held for its issue,
or its fault is taken by every thread of the run. -/
def State.fetchStep (s : State) (slot : Nat) : State :=
  match s.crew? slot with
  | none => s
  | some c =>
    match s.nextRun slot c with
    | none => s
    | some (pc, lanes) =>
      match s.fetch slot c pc with
      | (.error t, s) => s.takeFaults slot s.cycle (lanes.map fun l => (l, t))
      | (.ok w, s) => s.modCrew slot fun c => { c with fetched := some (BitVec.ofNat 64 (c.codeAddr pc), w) }

/-- INSTRUCTION_FETCH. -/
def execInstructionFetch (slot : Nat) (s : State) : Result := .next (s.fetchStep slot)

end Sys2Proof.Machine
end

