-- ==== Sys2Proof/Machine/Control.lean ====
section
/-! DEFINITION. Control flow, traps, launches and service calls (R185 to R205), the hint words (R132 to
R139) and words that are not instructions (R141). -/

namespace Sys2Proof.Machine

/-- A word that acts on each active lane in lane order: lanes whose guard is false go on, and each active
lane takes its effect on the state that the lanes before it left (R9, R130). -/
def State.lanesWord (s : State) (bad : Thread → Bool) (g : Guard) (cost : List Nat → Nat)
    (f : State → Nat → Nat → Crew → Thread → State) : Result :=
  s.costWord bad g cost fun s slot c lanes act =>
    let s := s.setCrew slot (c.next (lanes.filter fun l => !act.contains l))
    act.foldl (init := s) fun s l =>
      match s.crew? slot with
      | none => s
      | some c => f s slot l c (c.thread l)

/-- As lanesWord for an issue-stage word. -/
def State.laneWord (s : State) (bad : Thread → Bool) (g : Guard)
    (f : State → Nat → Nat → Crew → Thread → State) : Result := s.lanesWord bad g (fun _ => 1) f

/-- A fault of the executing word on a lane, at its PC with its pending hints (R131, R196). -/
def State.faultLane (s : State) (slot lane : Nat) (t : Trap) : State :=
  match s.crew? slot with
  | none => s
  | some c => s.takeFault slot lane t (c.thread lane).pc (c.thread lane).hints s.cycle

/-- The double fault of a CALL, CALLX or RET while TRAP is 1, whose second fault code is not given
(R66, R200, R360; log 12). -/
def State.windowDouble (s : State) (slot lane : Nat) : State :=
  { s.faultLane slot lane { code := Config.freeByte s.fresh } with fresh := s.fresh + 1 }

/-- A lane's PC set, its hints consumed (R132). -/
def Thread.jump (t : Thread) (pc : Word) : Thread := { t with pc := pc, hints := {} }

/-- The displacement of a B word (R129, R185). -/
def dispOf (i : BitVec 22) : Word := i.signExtend 32 <<< 2

/-- BRA (R187). -/
def execBra (g : Guard) (i : BitVec 22) (s : State) : Result :=
  s.issueWord noImmx g fun s slot c lanes act =>
    let c1 := c.next (lanes.filter fun l => !act.contains l)
    s.setCrew slot (c1.modLanes act fun _ t => t.jump (t.pc + dispOf i))

/-- Whether the window may move down (R65). -/
def Thread.roomBelow (t : Thread) : Bool := decide (t.depth + 2 ≤ 5 + t.lo) && decide (t.depth ≤ 1020)

/-- WINOVF, LIMIT set when it is raised at the depth limit (R65, R187). -/
def State.winovf (s : State) (slot lane : Nat) : State :=
  (s.modCrew slot fun c => c.modThread lane fun t => { t with limit := decide (t.depth = 1021) }).faultLane slot lane
    { code := codeWinovf }

/-- The window moved down with the link in the new %w15 (R187). -/
def Thread.enterFrame (t : Thread) : Thread :=
  let t1 := { t with depth := t.depth + 1 }
  t1.put (t1.entry 31) (t.pc + 4)

/-- The storage tag of the link's entry (R69, R187): as a write of an instruction issued under R38. -/
def State.tagLinks (s : State) (slot : Nat) (old : Crew) (done : List Nat) : State :=
  s.modCrew slot fun c =>
    let shifted := old.modLanes done fun _ t => { t with depth := t.depth + 1 }
    c.tagWrite shifted done true 31

/-- The lanes of a list whose depth rose: those that called. -/
def calledLanes (old new : Crew) (act : List Nat) : List Nat :=
  act.filter fun l => (new.thread l).depth = (old.thread l).depth + 1 ∧ !(new.thread l).trap

/-- A calling word: each active lane's own test and move, then the links' storage tag. -/
def State.callWord (s : State) (g : Guard) (f : State → Nat → Nat → Crew → Thread → State) : Result :=
  s.issueWord noImmx g fun s slot c lanes act =>
    let s1 := s.setCrew slot (c.next (lanes.filter fun l => !act.contains l))
    let s2 := act.foldl (init := s1) fun s l =>
      match s.crew? slot with
      | none => s
      | some c => f s slot l c (c.thread l)
    match s2.crew? slot with
    | none => s2
    | some c2 => s2.tagLinks slot c (calledLanes c c2 act)

/-- CALL (R187). -/
def execCall (g : Guard) (i : BitVec 22) (s : State) : Result :=
  s.callWord g fun s slot l _ t =>
    if t.trap then s.windowDouble slot l
    else if !t.roomBelow then s.winovf slot l
    else s.modCrew slot fun c => c.modThread l fun t => t.enterFrame.jump (t.pc + dispOf i)

/-- Whether a word is a TGT hint whose LAND has a bit set (R138, R188). -/
def landsAt (w : Word) (bit : Nat) : Bool :=
  match decode? w with
  | some (.tgt l) => l.getLsbD bit
  | _ => false

/-- The target check of BRX (bit 0) and CALLX (bit 1) for one lane (R188). -/
def State.landing (s : State) (slot : Nat) (c : Crew) (t : DWord) (bit : Nat) : Except Trap Word × State :=
  if t.toNat % 4 ≠ 0 then (.error { code := codeFetchAlign, addr := t }, s)
  else if t.toNat < c.cb.toNat ∨ 2 ^ 32 - 4 < t.toNat - c.cb.toNat then
    (.error (xlateTrap .fetch t ⟨3, 6⟩), s)
  else
    match s.codePlace slot c t.toNat with
    | (.error e, s) => (.error e, s)
    | (.ok pa, s) =>
      let r := s.codeWord (coreOf slot) pa
      if landsAt r.1 bit then (.ok ((t - c.cb).setWidth 32), r.2) else (.error { code := codeLanding, addr := t }, r.2)

/-- BRX (R188). -/
def execBrx (g : Guard) (x : Reg) (s : State) : Result :=
  s.laneWord noImmx g fun s slot l c t =>
    match s.landing slot c (c.read64 t x) 0 with
    | (.error e, s) => s.faultLane slot l e
    | (.ok pc, s) => s.modCrew slot fun c => c.modThread l fun t => t.jump pc

/-- CALLX (R188). -/
def execCallx (g : Guard) (x : Reg) (s : State) : Result :=
  s.callWord g fun s slot l c t =>
    if t.trap then s.windowDouble slot l
    else
      match s.landing slot c (c.read64 t x) 1 with
      | (.error e, s) => s.faultLane slot l e
      | (.ok pc, s) =>
        if !t.roomBelow then s.winovf slot l
        else s.modCrew slot fun c => c.modThread l fun t => t.enterFrame.jump pc

/-- RET (R189). Where LO is above D, which SPILLFs of a handler can leave, R65 asks for LO below D and names no fault, and R189
tests LO = D alone: the window moves (log 61, DESIGN CHOICE). -/
def execRet (g : Guard) (s : State) : Result :=
  s.laneWord noImmx g fun s slot l _ t =>
    let link := t.get (t.entry 31)
    if t.trap then s.windowDouble slot l
    else if t.depth = 0 then s.faultLane slot l { code := codeUndef }
    else if t.lo = t.depth then s.faultLane slot l { code := codeWinunf }
    else if link.toNat % 4 ≠ 0 then s.faultLane slot l { code := codeFetchAlign, addr := link.setWidth 64 }
    else s.modCrew slot fun c => c.modThread l fun t => { t.jump link with depth := t.depth - 1 }

/-- EXIT (R192); the exit of the last thread is a switch point (R44). -/
def execExit (g : Guard) (s : State) : Result :=
  s.issueWord noImmx g fun s slot c lanes act =>
    let c1 := c.next (lanes.filter fun l => !act.contains l)
    let c2 := c1.modLanes act fun _ t => { t with st := .exited, hints := {} }
    let s1 := s.setCrew slot c2
    if c2.allExited then s1.switchPoint slot false else s1

/-- YIELD (R194): its issue ends the waiting period, and it is a switch point in deterministic mode. -/
def execYield (g : Guard) (s : State) : Result :=
  s.issueWord noImmx g fun s slot c lanes act =>
    let s1 := (s.setCrew slot (c.next lanes)).endPeriod slot
    if act.isEmpty then s1 else s1.switchPoint slot true

/-- TRAP (R195, R198). -/
def execTrap (g : Guard) (c : BitVec 6) (s : State) : Result :=
  s.laneWord noImmx g fun s slot l _ _ => s.faultLane slot l { code := codeTrap, user := c, resume := 4 }

/-- BKPT (R195, R198, R390). -/
def execBkpt (g : Guard) (c : BitVec 6) (s : State) : Result :=
  s.laneWord noImmx g fun s slot l _ _ => s.faultLane slot l { code := codeBkpt, user := c, resume := 4 }

/-- A completion step begun for some lanes, which stand outside the PC table until it ends (R440); their
hints are consumed then. -/
def State.beginStep (s : State) (slot : Nat) (kind : StepKind) (lanes : List Nat) (pc : Word) : State :=
  if lanes.isEmpty then s
  else
    { s.modCrew slot fun c =>
      { c.modLanes lanes fun _ t => { t with outside := true } with
        steps := c.steps ++ [⟨s.nextId, kind, lanes, pc, s.cycle, c.fifo.map (·.id), [], []⟩] } with nextId := s.nextId + 1 }

/-- What a step's read has brought to a lane (R440). -/
def Crew.stepGets (c : Crew) (id lane : Nat) (d : StepData) : Crew :=
  { c with steps := c.steps.map fun (p : Pending) =>
      if p.id = id then { p with due := p.due.erase lane, got := p.got ++ [(lane, d)] } else p }

/-- SVC (R203): the run's lowest active lane posts; ALIGN, then DECKRANGE, are taken on that lane. -/
def execSvc (g : Guard) (y : Reg) (n : BitVec 6) (s : State) : Result :=
  s.issueWord noImmx g fun s slot c lanes act =>
    match act with
    | [] => s.setCrew slot (c.next lanes)
    | l :: _ =>
      let a := c.read64 (c.thread l) y
      let window := windowBase ≤ a.toNat ∧ a.toNat < 2 ^ 56
      if a.toNat % 64 ≠ 0 then
        (s.setCrew slot (c.next (lanes.filter (· ≠ l)))).faultLane slot l { code := codeAlign, addr := a }
      else if window then
        (s.setCrew slot (c.next (lanes.filter (· ≠ l)))).faultLane slot l { code := codeDeckrange, addr := a }
      else
        let s1 := s.setCrew slot (c.next lanes)
        { s1 with
          nextId := s1.nextId + 1
          cox := { s1.cox with
            deviceq := s1.cox.deviceq ++ [⟨n.toNat, a, some (c.ctx, (s.context c.ctx).priv), s1.nextId⟩] } }

/-! ## Hint words (R132 to R139) -/

/-- A hint word: threads for which it raises UNDEF fault, the others add it and go on (R132, R133). -/
def State.hintWord (s : State) (bad : Thread → Bool) (f : Hints → Hints) : Result :=
  s.wordFrame bad fun s slot c lanes =>
    (s.setCrew slot (c.modLanes lanes fun _ t => { t with pc := t.pc + 4, hints := f t.hints })).spend 1

/-- IMMX (R133, R135). -/
def execImmx (p : BitVec 22) (s : State) : Result :=
  s.hintWord (fun t => t.hints.immx.isSome) fun h => { h with immx := some p }

/-- MODX (R133, R136); the payload is kept whole. -/
def execModx (p : BitVec 3) (v : BitVec 1) (c : BitVec 6) (sat : BitVec 1) (r : BitVec 2) (s : State) : Result :=
  let payload : BitVec 22 := (0 : BitVec 9) ++ p ++ v ++ c ++ sat ++ r
  s.hintWord (fun t => t.hints.modx.isSome || decide (5 ≤ p.toNat)) fun h => { h with modx := some payload }

/-- SCHED (R133, R137). -/
def execSched (p : BitVec 2) (s : State) : Result :=
  s.hintWord (fun t => t.hints.sched.isSome || p == 3) fun h => { h with sched := some (p.setWidth 22) }

/-- TGT (R133, R138): UNDEF when anything is pending. -/
def execTgt (l : BitVec 2) (s : State) : Result :=
  s.hintWord (fun t => t.hints.kinds != 0 || l == 0) fun h => { h with tgt := some (l.setWidth 22) }

/-- CONVERGE (R133, R139): the crew's latest join point is kept for stall samples (R425). -/
def execConverge (j : BitVec 22) (s : State) : Result :=
  s.wordFrame (fun t => t.hints.conv.isSome) fun s slot c lanes =>
    let c1 := c.modLanes lanes fun _ t => { t with pc := t.pc + 4, hints := { t.hints with conv := some j } }
    let c2 := match lanes with
      | [] => c1
      | l :: _ => { c1 with join := some ((c.thread l).pc + dispOf j) }
    (s.setCrew slot c2).spend 1

/-- UNDEFINED_HINT (R133): a no-op that adds nothing. -/
def execUndefinedHint (_k : BitVec 4) (_p : BitVec 22) (s : State) : Result :=
  s.wordFrame anyImmx fun s slot c lanes =>
    (s.setCrew slot (c.modLanes lanes fun _ t => { t with pc := t.pc + 4 })).spend 1

/-- UNDEFINED_WORD (R131, R141): UNDEF on every thread of the run. -/
def execUndefinedWord (_w : BitVec 32) (s : State) : Result :=
  s.wordFrame (fun _ => true) fun s _ _ _ => s.spend 1

/-! ## Special registers (R62, R204, R205, R368) -/

/-- TRANS of a context (R367). -/
def Context.trans (x : Context) : DWord :=
  BitVec.ofNat 64 (x.root % 2 ^ 32 * 2 ^ 20) ||| (if x.replay then 2 else 0) ||| (if x.priv then 1 else 0)

/-- Whether a special register is held by the crew or the package (R38, R62). -/
def csrUniform (n : Nat) : Bool :=
  (decide (2 ≤ n) && decide (n ≤ 8)) || n == 0x10 || n == 0x20 || n == 0x22 || decide (0x200 ≤ n)

/-- A special register's value in a lane; nothing for a number that is not assigned (R62 table 2, R368). -/
def State.csrValue (s : State) (slot : Nat) (c : Crew) (lane : Nat) (n : Nat) : Option DWord :=
  let t := c.thread lane
  let w32 (v : Nat) : Option DWord := some (BitVec.ofNat 64 (v % 2 ^ 32))
  match n with
  | 0x000 => w32 (64 * c.crew + lane)
  | 0x001 => w32 lane
  | 0x002 => w32 c.crew
  | 0x003 => w32 c.team
  | 0x004 => w32 c.grid.toNat
  | 0x005 => w32 (256 * subOf slot + coreOf slot)
  | 0x006 => w32 c.nCrew
  | 0x007 => w32 c.nTeam
  | 0x008 => w32 c.depth
  | 0x010 => some (BitVec.ofNat 64 s.cycle)
  | 0x020 => w32 c.scopyLen
  | 0x021 => w32 t.fpflags.toNat
  | 0x022 => w32 c.fifo.length
  | 0x030 => w32 t.trapinfo.toNat
  | 0x031 => w32 t.trappc.toNat
  | 0x032 => some t.trapaddr
  | 0x040 => w32 t.winstate.toNat
  | 0x041 => some t.spillb
  | 0x200 => w32 c.ctx
  | 0x201 => some (s.context c.ctx).trans
  | 0x210 => some (c.watch.getD 0 0)
  | 0x211 => some (c.watch.getD 1 0)
  | 0x212 => some (c.watch.getD 2 0)
  | 0x213 => some (c.watch.getD 3 0)
  | _ => none

/-- The word-level fault of a special-register number (R62, R131, R368). -/
def State.csrFault (s : State) (slot : Nat) (c : Crew) (n : Nat) : Option (BitVec 8) :=
  if 0x200 ≤ n ∧ !(s.context c.ctx).priv then some codePriv
  else if (s.csrValue slot c 0 n).isNone then some codeUndef
  else none

/-- The frame of CSRR and CSRW: a number's fault is taken by every thread of the run (R131). -/
def State.csrWord (s : State) (n : BitVec 10) (k : State → Nat → Crew → List Nat → State) : Result :=
  s.wordFrame noImmx fun s slot c lanes =>
    match s.csrFault slot c n.toNat with
    | some f => (s.takeFaults slot s.cycle (lanes.map fun l => (l, { code := f }))).spend 1
    | none => k s slot c lanes

/-- CSRR (R204, R205). -/
def execCsrr (g : Guard) (x : Reg) (n : BitVec 10) (s : State) : Result :=
  s.csrWord n fun s slot c lanes =>
    let act := c.active lanes g
    let wide := csrWide n && (decide (48 ≤ x.toNat) || decide (x.toNat % 2 = 0))
    let u := csrUniform n.toNat
    let c1 := c.writeResults act x wide u fun l => (s.csrValue slot c l n.toNat).getD 0
    (s.setCrew slot (c1.next lanes)).spend (pipeCycles act (u || decide (48 ≤ x.toNat)) 1)

/-- The source of a CSRW (R204): a pair, one register zero-extended, or a whole %k. -/
def Crew.csrSource (c : Crew) (t : Thread) (n : BitVec 10) (y : Reg) : DWord :=
  if csrWide n ∧ (48 ≤ y.toNat ∨ y.toNat % 2 = 0) then c.read64 t y else (c.read32 t y).setWidth 64

/-- A length of R257. -/
def slenValid (v : Nat) : Bool := v == 128 || v == 256 || v == 512 || v == 1024

/-- %SLEN written: a changed length empties every stream register (R257). -/
def Crew.writeSlen (c : Crew) (v : Nat) : Crew :=
  if !slenValid v || v == c.slen then c
  else { c with
    slen := v, scopyLen := v, streams := c.streams.map fun _ => Stream.reset, scopy := c.scopy.map fun _ => (0, true) }

/-- The writable bits of a WATCH register (R368). -/
def watchMask : DWord := 0x00FFFFFFFFFFFFFB

/-- CSRW (R204, R205): thread-held registers in each active lane, crew-held ones once; RO writes ignored. -/
def execCsrw (g : Guard) (y : Reg) (n : BitVec 10) (s : State) : Result :=
  s.csrWord n fun s slot c lanes =>
    let act := c.active lanes g
    let v (l : Nat) : DWord := c.csrSource (c.thread l) n y
    let first (f : DWord → Crew) : Crew :=
      match act with
      | [] => c
      | l :: _ => f (v l)
    let c1 : Crew :=
      match n.toNat with
      | 0x020 => first fun x => c.writeSlen (x.toNat % 2048)
      | 0x021 => c.modLanes act fun l t => { t with fpflags := (v l).setWidth 32 &&& 0x1F }
      | 0x041 => c.modLanes act fun l t => { t with spillb := v l }
      | 0x210 => first fun x => { c with watch := setAt c.watch 0 (x &&& watchMask) }
      | 0x211 => first fun x => { c with watch := setAt c.watch 1 (x &&& watchMask) }
      | 0x212 => first fun x => { c with watch := setAt c.watch 2 (x &&& watchMask) }
      | 0x213 => first fun x => { c with watch := setAt c.watch 3 (x &&& watchMask) }
      | _ => c
    let u := c.uniformIssue lanes (.csrw g y n)
    (s.setCrew slot (c1.next lanes)).spend (pipeCycles act (u || csrUniform n.toNat) 1)

end Sys2Proof.Machine
end

