-- ==== Sys2Proof/Machine/Memory.lean ====
section
/-! DEFINITION. The issue of words that reach memory (R201, R206 to R227): loads and stores, LDK and STK, the
deck operations, the slice atomics, multicast, prefetch, cache control, fences and mailbox delivery. What
happens where an access is performed is in Slices.lean. -/

namespace Sys2Proof.Machine

/-- One lane's checked access: where it lands, the address it named and the lanes that take its faults. -/
structure Touch where
  lane : Nat
  va : DWord
  place : Place
deriving DecidableEq, Repr

/-- The accesses that one stroke makes to one line (R206). -/
structure TouchGroup where
  stroke : Nat
  space : Space
  line : Nat
  touches : List Touch
deriving DecidableEq, Repr

/-- A touch added to its group, a new group last. -/
def addTouch (t : Touch) : List TouchGroup → List TouchGroup
  | [] => [⟨t.lane / 16, t.place.space, lineOf t.place.addr, [t]⟩]
  | g :: r =>
    if g.stroke = t.lane / 16 ∧ g.space = t.place.space ∧ g.line = lineOf t.place.addr then
      { g with touches := g.touches ++ [t] } :: r
    else g :: addTouch t r

/-- Touches grouped by stroke and line, in lane order. -/
def groupTouches (l : List Touch) : List TouchGroup := l.foldl (fun m t => addTouch t m) []

/-- The checks of an instruction's lanes, in lane order: the touches that pass and the faults of the rest. -/
def State.checkLanes (s : State) (f : State → Nat → Except Trap Touch × State) :
    List Nat → List Touch × List (Nat × Trap) × State
  | [] => ([], [], s)
  | l :: r =>
    match f s l with
    | (.error t, s) =>
      let q := State.checkLanes s f r
      (q.1, (l, t) :: q.2.1, q.2.2)
    | (.ok u, s) =>
      let q := State.checkLanes s f r
      (u :: q.1, q.2.1, q.2.2)

/-- One lane's check of R208. -/
def State.checkLane (s : State) (slot : Nat) (c : Crew) (lane : Nat) (a : DWord) (n : Nat) (kind : WalkKind) :
    Except Trap Touch × State :=
  match s.check slot c a n kind with
  | (.error t, s) => (.error t, s)
  | (.ok p, s) => (.ok ⟨lane, a, p⟩, s)

/-- Whether a watchpoint of the crew covers an access of n bytes at an address, for reads or for writes
(R362, R368). -/
def Crew.watched (c : Crew) (a : DWord) (n : Nat) (read write : Bool) : Bool :=
  c.watch.any fun w =>
    let granule := field w.toNat 3 53 * 8
    ((read && w.getLsbD 0) || (write && w.getLsbD 1))
      && decide (a.toNat < granule + 8) && decide (granule < a.toNat + n)

/-- The WATCH fault (R358, R362). -/
def watchTrap (a : DWord) : Trap := { code := codeWatch, addr := a, resume := 4 }

/-- The frame of a word that checks an access per lane: lanes that fail fault, the rest make their access. The faulting lanes
enter their traps in lane order, then those that a watchpoint stops: R362 gives no order between them (log 61, DESIGN
CHOICE). -/
def State.accessWord (s : State) (bad : Thread → Bool) (g : Guard)
    (chk : Crew → State → Nat → Nat → Except Trap Touch × State)
    (k : State → Nat → Crew → List Touch → State) (watch : Crew → Touch → Bool) : Result :=
  s.wordFrame bad fun s slot c lanes =>
    let act := c.active lanes g
    let q := s.checkLanes (fun s l => chk c s slot l) act
    let s1 := q.2.2.setCrew slot c
    let failed := q.2.1.map fun (e : Nat × Trap) => e.1
    let seen := (q.1.filter (watch c)).map fun u => (u.lane, watchTrap u.va)
    let stay := failed ++ seen.map fun (e : Nat × Trap) => e.1
    let hintsOf (l : Nat) : Hints := (c.thread l).hints
    let s2 := k s1 slot c q.1
    let s3 := s2.modCrew slot fun x => x.next (lanes.filter fun l => !stay.contains l)
    let all := q.2.1 ++ seen
    let s4 := all.foldl (init := s3) fun s (e : Nat × Trap) =>
      s.takeFault slot e.1 e.2 (c.thread e.1).pc (hintsOf e.1) s.cycle
    s4.spend (portCycles 1 act)

/-! ## Loads (R209 to R212) -/

/-- Whether an entry leaves a value at a byte that its FIFO does not know (R211). -/
def EntryOp.unknown : EntryOp → Bool
  | .atom .. | .atomr _ | .scadd _ | .binapp => true
  | _ => false

/-- The youngest byte a FIFO holds for a byte of a space (R211). -/
def forward (fifo : List Entry) (sp : Space) (a : Nat) : Option Byte :=
  fifo.foldl (init := none) fun m e =>
    if e.space = sp ∧ e.line = lineOf a then
      match Cells.find e.bytes (a % 128) with
      | some b => some b
      | none => m
    else m

/-- Bytes of an access taken from the crew's own FIFO. -/
def forwardBytes (fifo : List Entry) (sp : Space) (a : Nat) : Nat → List (Option Byte)
  | 0 => []
  | n + 1 => forward fifo sp a :: forwardBytes fifo sp (a + 1) n

/-- The proxy slice of a home slice for a core: the slice of the core's own sector with the same e (R281). -/
def proxySlice (core home : Nat) : Nat := core / 16 * 16 + home % 16

/-- Whether a load of a policy uses the L1 (R282). -/
def usesL1 (policy : Nat) : Bool := policy == 0 || policy == 4

/-- Whether a load of a policy goes through the proxy slice (R281, R282). -/
def usesProxy (policy : Nat) : Bool := policy != 1 && policy != 3

/-- Whether a core reaches a home slice by a proxy slice: the home lies in another sector of the core's die (R281), and the
proxy slice is not retired (log 55). -/
def State.viaProxy (s : State) (core home : Nat) : Bool :=
  core / 48 == home / 48 && core / 16 != home / 16 && !(s.slice (proxySlice core home)).retired

/-- Whether a load of a policy from a core to a line goes by the proxy slice (R281, R282). -/
def State.proxied (s : State) (core line policy : Nat) : Bool :=
  !decide (hostBase ≤ line) && usesProxy policy && s.viaProxy core (s.homeSlice line)

/-- The slice a request goes to first: the proxy slice for a proxied load, else the home (R276, R281). -/
def State.firstSlice (s : State) (q : Req) : Nat :=
  let home := s.homeSlice q.line
  match q.kind with
  | .load _ _ true => if s.viaProxy q.core home then proxySlice q.core home else home
  | _ => home

/-- The resend delay of an attempt (R287). -/
def retryDelay (attempt : Nat) : Nat := 8 * min attempt 64

/-- A request back in its core's retry buffer after a NACK (R287). -/
def State.backToCore (s : State) (q : Req) : State :=
  let q1 := { q with attempt := q.attempt + 1 }
  s.modCore q.core fun k =>
    { k with
      unanswered := k.unanswered.map fun (x : Req) => if x.id = q.id then q1 else x
      retry := k.retry ++ [⟨q1, false, s.cycle + retryDelay q.attempt⟩] }

/-- The entries of a slice's ingress queue and of a core's retry buffer (R284, R287). -/
def ingressRoom : Nat := 32
def retryRoom : Nat := 32

/-- A request reaches a slice: it joins the ingress queue, or finds the queue full and is dropped with a NACK (R284, R287;
log 52). -/
def State.arrive (s : State) (slice : Nat) (q : Req) : State :=
  if (s.slice slice).ingress.length < ingressRoom then s.modSlice slice fun e => { e with ingress := e.ingress ++ [q] }
  else s.backToCore q

/-- A request sent, or kept until the retry buffer has room for its copy (R287). -/
def State.sendReq (s : State) (q : Req) : State :=
  if (s.core q.core).unanswered.length < retryRoom then
    (s.modCore q.core fun k => { k with unanswered := k.unanswered ++ [q] }).arrive (s.firstSlice q) q
  else s.modCore q.core fun k => { k with sendq := k.sendq ++ [q] }

/-- A request is answered: its copy leaves the retry buffer, and the oldest request that waits for room is sent (R287). -/
def State.answered (s : State) (core : Nat) (done : Req → Bool) : State :=
  let k := s.core core
  if k.unanswered.any done then
    let s1 := s.setCore core { k with unanswered := k.unanswered.filter fun q => !done q, sendq := k.sendq.drop 1 }
    match k.sendq with
    | [] => s1
    | q :: _ => s1.sendReq q
  else s

/-- A new request of a core (R284, R287, R290). -/
def State.request (s : State) (core line : Nat) (kind : ReqKind) (lts policy : Nat) (cxl : Bool) : State :=
  let r : Req := ⟨s.nextId, core, line, kind, lts, policy, cxl, (s.die (homeDie line)).gen, 1⟩
  { s with nextId := s.nextId + 1 }.sendReq r

/-- A load sent on its way: bytes wholly forwarded, a deck or operand buffer, an L1 lease (R280), the proxy
slice (R281) or the home. -/
def State.sendLoad (s : State) (slot : Nat) (l : Load) : State :=
  match s.crew? slot with
  | none => s
  | some c =>
    let core := coreOf slot
    let whole := l.lanes.all fun x => x.fwd.all Option.isSome
    if whole then s.post (.load slot l.id (.bytes []))
    else
      match l.space with
      | .deck k => s.modCore k fun x => { x with deckq := x.deckq ++ [.load slot l.id] }
      | .obuf k => s.modCore k fun x => { x with deckq := x.deckq ++ [.load slot l.id] }
      | .mailbox => s
      | .global =>
        let miss := s.request core l.line (.load slot l.id (s.proxied core l.line l.policy)) c.lts l.policy l.cxl
        if decide (hostBase ≤ l.line) || !usesL1 l.policy then miss
        else
          match Cells.find (s.core core).l1 l.line with
          | some cp =>
            if c.lts ≤ cp.rts then
              ((s.setCrew slot { c with lts := max c.lts cp.wts }).modCore core fun k => k.l1Hit l.line).post
                (.load slot l.id (.bytes cp.data))
            else miss
          | none => miss

/-- A load issued: it is recorded with its forwarded bytes and sent. -/
def State.issueLoad (s : State) (slot : Nat) (l : Load) : State :=
  let l := { l with id := s.nextId }
  let s := { s.modCrew slot fun c => { c with loads := c.loads ++ [l] } with nextId := s.nextId + 1 }
  s.sendLoad slot l

/-- Lanes with the hints pending in them (R132). -/
def Crew.withHints (c : Crew) (lanes : List Nat) : List (Nat × Hints) := lanes.map fun l => (l, (c.thread l).hints)

/-- The loads of a word's touches: one for each stroke and line, with the cache policy of its lowest lane, since the
rules give none where the lanes' pending hints differ (R136, R206, R278, R282; log 50, DESIGN CHOICE). -/
def State.loadTouches (s : State) (slot : Nat) (c : Crew) (n : Nat) (dest : Nat → Dest) (takers : Nat → List Nat)
    (policy : Thread → Nat) (watch : Touch → Bool) (us : List Touch) : State :=
  (groupTouches us).foldl (init := s) fun s g =>
    match g.touches with
    | [] => s
    | u :: _ =>
      let t := c.thread u.lane
      s.issueLoad slot {
        id := 0, space := g.space, line := g.line, cxl := u.place.cxl, policy := policy t, pc := t.pc, cycle := s.cycle,
        lanes := g.touches.map fun x => {
          lane := x.lane, va := x.va, addr := x.place.addr, size := n,
          fwd := forwardBytes c.fifo x.place.space x.place.addr n, dest := dest x.lane,
          takers := c.withHints (takers x.lane), watch := watch x } }

/-- The reads of the completion step begun last: a lane whose check fails keeps its fault for the step's end, every
other lane's read is a load of the crew, of policy NORMAL and not watched (R282, R362, R440). -/
def State.stepReads (s : State) (slot : Nat) (c : Crew) (n : Nat) (chk : State → Nat → Except Trap Touch × State)
    (lanes : List Nat) : State :=
  match (s.crew? slot).bind fun c => c.steps.getLast? with
  | none => s
  | some p =>
    let q := s.checkLanes chk lanes
    let p1 := { p with
      due := q.1.map fun u => u.lane, got := q.2.1.map fun (e : Nat × Trap) => (e.1, StepData.fault e.2) }
    (q.2.2.modCrew slot fun c => { c with steps := c.steps.dropLast ++ [p1] }).loadTouches slot c n
      (fun _ => .step p.id) (fun l => [l]) (fun _ => 0) (fun _ => false) q.1

/-- The address of a format M word in a lane (R209). -/
def Crew.mAddr (c : Crew) (t : Thread) (b : Reg) (o : BitVec 7) (n : Nat) : DWord := c.read64 t b + t.offM o n

/-- LD (R209 to R211): n bytes, into `regs` registers from d. -/
def State.loadWord (s : State) (g : Guard) (d b : Reg) (o : BitVec 7) (n regs : Nat) (signed : Bool) : Result :=
  s.accessWord anyImmx g
    (fun c s slot l => s.checkLane slot c l (c.mAddr (c.thread l) b o n) n .read)
    (fun s slot c us =>
      let dest (l : Nat) : Dest := .regs ((c.thread l).destEntries d regs) signed
      s.loadTouches slot c n dest (fun l => [l]) Thread.policy (fun u => c.watched u.va n true false) us)
    (fun _ _ => false)

/-- LD_N8 (R210, R211). -/
def execLdN8 (g : Guard) (d b : Reg) (o : BitVec 7) (s : State) : Result := s.loadWord g d b o 1 1 false
/-- LD_I8 (R210, R211). -/
def execLdI8 (g : Guard) (d b : Reg) (o : BitVec 7) (s : State) : Result := s.loadWord g d b o 1 1 true
/-- LD_N16 (R210, R211). -/
def execLdN16 (g : Guard) (d b : Reg) (o : BitVec 7) (s : State) : Result := s.loadWord g d b o 2 1 false
/-- LD_I16 (R210, R211). -/
def execLdI16 (g : Guard) (d b : Reg) (o : BitVec 7) (s : State) : Result := s.loadWord g d b o 2 1 true
/-- LD_32 (R210, R211). -/
def execLd32 (g : Guard) (d b : Reg) (o : BitVec 7) (s : State) : Result := s.loadWord g d b o 4 1 false
/-- LD_64 (R210, R211). -/
def execLd64 (g : Guard) (d b : Reg) (o : BitVec 7) (s : State) : Result := s.loadWord g d b o 8 2 false
/-- LD_128 (R210, R211). -/
def execLd128 (g : Guard) (d b : Reg) (o : BitVec 7) (s : State) : Result := s.loadWord g d b o 16 4 false

/-! ## Stores (R209 to R211) -/

/-- Four registers from a field, or two %k (R210, R221). -/
def Crew.readQuad (c : Crew) (t : Thread) (f : Reg) : BitVec 128 :=
  if 48 ≤ f.toNat then c.kreg (f.toNat - 47) ++ c.kreg (f.toNat - 48)
  else
    t.get (t.entry (f.toNat + 3)) ++ t.get (t.entry (f.toNat + 2)) ++ t.get (t.entry (f.toNat + 1))
      ++ t.get (t.entry f.toNat)

/-- The bytes a store of n bytes takes from its data field (R210). -/
def Crew.storeBytes (c : Crew) (t : Thread) (d : Reg) (n : Nat) : List Byte :=
  if n = 16 then bytesOf 16 (c.readQuad t d).toNat
  else if n = 8 then bytesOf 8 (c.read64 t d).toNat
  else bytesOf n (c.read32 t d).toNat

/-- Bytes laid over others at an offset, the later standing. -/
def overlay (m : List (Nat × Byte)) (off : Nat) : List Byte → List (Nat × Byte)
  | [] => m
  | b :: r => overlay (Cells.put m off b) (off + 1) r

/-- The cache policy of an entry: CP of a pending MODX for the majors that take one, NORMAL for SPILLF, a trap record
and RPUT (R136, R206, R282). -/
def EntryOp.policy (op : EntryOp) (t : Thread) : Nat :=
  match op with
  | .spill | .record | .rput _ => 0
  | _ => t.policy

/-- An entry for a group of touches (R206), with the cache policy of its lowest lane (R136, R282; log 50, DESIGN
CHOICE). -/
def TouchGroup.entry (g : TouchGroup) (op : EntryOp) (t : Thread) (size cycle : Nat) (cxl : Bool)
    (bytes : List (Nat × Byte)) (items : List Item) : Entry where
  id := 0
  op := op
  space := g.space
  line := g.line
  bytes := bytes
  items := items
  lane := (g.touches.map (·.lane)).headD 0
  size := size
  cxl := cxl
  policy := op.policy t
  series := 0
  seq := 0
  sent := false
  pc := t.pc
  cycle := cycle
  after := []

/-- Whether a group's line is host-homed on the CXL path. -/
def TouchGroup.cxl (g : TouchGroup) : Bool := g.touches.any fun u => u.place.cxl

/-- The store entries of a word's touches, in lane order (R206, R211). -/
def State.storeTouches (s : State) (slot : Nat) (c : Crew) (op : EntryOp) (n : Nat) (data : Nat → List Byte)
    (us : List Touch) : State :=
  (groupTouches us).foldl (init := s) fun s g =>
    let bytes := g.touches.foldl (init := []) fun m u => overlay m (u.place.addr % 128) (data u.lane)
    s.enter slot (g.entry op (c.thread ((g.touches.map (·.lane)).headD 0)) n s.cycle g.cxl bytes [])

/-- ST (R209 to R211). -/
def State.storeWord (s : State) (g : Guard) (d b : Reg) (o : BitVec 7) (n : Nat) : Result :=
  s.accessWord anyImmx g
    (fun c s slot l => s.checkLane slot c l (c.mAddr (c.thread l) b o n) n .write)
    (fun s slot c us => s.storeTouches slot c .store n (fun l => c.storeBytes (c.thread l) d n) us)
    (fun c u => c.watched u.va n false true)

/-- ST_8 (R210, R211). -/
def execSt8 (g : Guard) (d b : Reg) (o : BitVec 7) (s : State) : Result := s.storeWord g d b o 1
/-- ST_16 (R210, R211). -/
def execSt16 (g : Guard) (d b : Reg) (o : BitVec 7) (s : State) : Result := s.storeWord g d b o 2
/-- ST_32 (R210, R211). -/
def execSt32 (g : Guard) (d b : Reg) (o : BitVec 7) (s : State) : Result := s.storeWord g d b o 4
/-- ST_64 (R210, R211). -/
def execSt64 (g : Guard) (d b : Reg) (o : BitVec 7) (s : State) : Result := s.storeWord g d b o 8
/-- ST_128 (R210, R211). -/
def execSt128 (g : Guard) (d b : Reg) (o : BitVec 7) (s : State) : Result := s.storeWord g d b o 16

/-! ## Words that act once per run (R207, R212) -/

/-- The frame of a word that acts once per run: the lowest active lane checks; its fault is taken by every
active lane; otherwise the effect is made and every lane goes on (R207). -/
def State.onceWord (s : State) (bad : Thread → Bool) (g : Guard)
    (chk : Crew → State → Nat → Nat → Except Trap Touch × State)
    (k : State → Nat → Crew → List Nat → Touch → State) (watch : Crew → Touch → Bool) : Result :=
  s.wordFrame bad fun s slot c lanes =>
    let act := c.active lanes g
    match act with
    | [] => (s.setCrew slot (c.next lanes)).spend 1
    | l :: _ =>
      let rest := lanes.filter fun l => !act.contains l
      let fault (s : State) (t : Trap) : State :=
        act.foldl (init := s.modCrew slot fun x => x.next rest) fun s l =>
          s.takeFault slot l t (c.thread l).pc (c.thread l).hints s.cycle
      match chk c s slot l with
      | (.error t, s) => (fault s t).spend 1
      | (.ok u, s) =>
        let s1 := k (s.setCrew slot c) slot c act u
        if watch c u then (fault s1 (watchTrap u.va)).spend 1
        else (s1.modCrew slot fun x => x.next lanes).spend 1

/-- The address of LDK and STK (R212). -/
def Crew.kAddr (c : Crew) (t : Thread) (y : Reg) (o : BitVec 8) (n : Nat) : DWord :=
  c.read64 t y + o.signExtend 64 * BitVec.ofNat 64 n

/-- LDK (R212). -/
def execLdk (g : Guard) (x y : Reg) (w : BitVec 1) (o : BitVec 8) (s : State) : Result :=
  let n := if w = 1 then 8 else 4
  s.onceWord noImmx g
    (fun c s slot l => s.checkLane slot c l (c.kAddr (c.thread l) y o n) n .read)
    (fun s slot c act u => s.loadTouches slot c n (fun _ => .kreg (x.toNat - 48) (w = 1)) (fun _ => act) Thread.policy
      (fun u => c.watched u.va n true false) [u])
    (fun _ _ => false)

/-- STK (R212). -/
def execStk (g : Guard) (x y : Reg) (w : BitVec 1) (o : BitVec 8) (s : State) : Result :=
  let n := if w = 1 then 8 else 4
  s.onceWord noImmx g
    (fun c s slot l => s.checkLane slot c l (c.kAddr (c.thread l) y o n) n .write)
    (fun s slot c _ u => s.storeTouches slot c .store n (fun _ => bytesOf n (c.kreg (x.toNat - 48)).toNat) [u])
    (fun c u => c.watched u.va n false true)

/-! ## Window spill and fill (R65, R201) -/

/-- The address of a frame in a thread's spill area (R65). -/
def Thread.frameAddr (t : Thread) (lo : Nat) : DWord := t.spillb + BitVec.ofNat 64 (64 * lo)

/-- The 64 bytes of a logical frame, in entry order. -/
def Thread.frameBytes (t : Thread) (f : Nat) : List Byte :=
  ((upFrom 0 16).map fun e => bytesOf 4 (t.get (16 + 16 * (f % 7) + e)).toNat).flatten

/-- The failing cases of SPILLF and FILLF before their access (R65, R201). -/
def Thread.frameFault (t : Thread) (spill : Bool) : Option Trap :=
  if !t.trap then some { code := codeUndef }
  else if spill ∧ t.depth ≤ t.lo then some { code := codeWinovf }
  else if !spill ∧ (t.lo = 0 ∨ 5 + t.lo < t.depth + 2) then some { code := codeWinunf }
  else if t.spillb.toNat % 64 ≠ 0 then some { code := codeAlign, addr := t.spillb }
  else none

/-- SPILLF (R65, R201). -/
def execSpillf (g : Guard) (s : State) : Result :=
  s.lanesWord noImmx g (portCycles 4) fun s slot l c t =>
    match t.frameFault true with
    | some f => s.faultLane slot l f
    | none =>
      match s.checkLane slot c l (t.frameAddr t.lo) 64 .write with
      | (.error f, s) => s.faultLane slot l f
      | (.ok u, s) =>
        let s1 := s.storeTouches slot c .spill 64 (fun _ => t.frameBytes t.lo) [u]
        s1.modCrew slot fun c => c.modThread l fun t => { t.next with lo := t.lo + 1 }

/-- FILLF (R65, R201): the lanes whose condition holds wait outside the PC table for their loads of frame LO − 1,
which its completion step writes. -/
def execFillf (g : Guard) (s : State) : Result :=
  s.costWord noImmx g (portCycles 4) fun s slot c lanes act =>
    let good := act.filter fun l => ((c.thread l).frameFault false).isNone
    let s1 := s.setCrew slot (c.next (lanes.filter fun l => !act.contains l))
    let s2 := act.foldl (init := s1) fun s l =>
      match (c.thread l).frameFault false with
      | some f => s.faultLane slot l f
      | none => s
    if good.isEmpty then s2
    else
      (s2.beginStep slot .fillf good ((c.thread (good.headD 0)).pc)).stepReads slot c 64
        (fun s l => s.checkLane slot c l ((c.thread l).frameAddr ((c.thread l).lo - 1)) 64 .read) good

/-! ## Words whose completion step reads memory (R199, R202, R440) -/

/-- ERET (R199): the record's load is its completion step. -/
def execEret (g : Guard) (s : State) : Result :=
  s.issueWord noImmx g fun s slot c lanes act =>
    let s1 := s.setCrew slot (c.next (lanes.filter fun l => !act.contains l))
    let good := act.filter fun l => (c.thread l).trap
    let s2 := s1.takeFaults slot s.cycle ((act.filter fun l => !(c.thread l).trap).map fun l => (l, { code := codeUndef }))
    if good.isEmpty then s2
    else
      (s2.beginStep slot .eret good ((c.thread (good.headD 0)).pc)).stepReads slot c 64
        (fun s l => s.checkLane slot c l ((c.thread l).spillb - 64) 64 .read) good

/-- LAUNCH (R202): the team leader's record read is its completion step; other active lanes fault PRIV. -/
def execLaunch (g : Guard) (y : Reg) (s : State) : Result :=
  s.laneWord noImmx g fun s slot l c t =>
    let a := c.read64 t y
    if 64 * c.crew + l ≠ 0 then s.faultLane slot l { code := codePriv }
    else if c.depth = 10 then s.faultLane slot l { code := codeLaunchdepth, addr := a }
    else if a.toNat % 64 ≠ 0 then s.faultLane slot l { code := codeAlign, addr := a }
    else
      (s.beginStep slot (.launch a) [l] t.pc).stepReads slot c 64 (fun s l => s.checkLane slot c l a 64 .read) [l]

/-! ## Slice atomics (R221 to R226) -/

/-- An access that must not lie in the core window (R222, R225). -/
def State.checkGlobal (s : State) (slot : Nat) (c : Crew) (lane : Nat) (a : DWord) (n : Nat) (kind : WalkKind) :
    Except Trap Touch × State :=
  match s.checkLane slot c lane a n kind with
  | (.error t, s) =>
    if windowBase ≤ a.toNat ∧ a.toNat < 2 ^ 56 ∧ a.toNat % n = 0 then (.error { code := codeDeckrange, addr := a }, s)
    else (.error t, s)
  | (.ok u, s) =>
    if u.place.space = .global then (.ok u, s) else (.error { code := codeDeckrange, addr := a }, s)

/-- Whether an atomic to a host-homed page of the PCIe path can be sent as an AtomicOp (R223, R355). -/
def State.hostAtomOk (s : State) (op : Nat) (p : Place) : Bool :=
  decide (p.addr < hostBase) || p.cxl || (s.links.atomicEnable && (op == 0 || op == 8 || op == 9))

/-- The check of ATOM (R222, R223, R355). -/
def State.checkAtom (s : State) (slot : Nat) (c : Crew) (lane : Nat) (a : DWord) (n op : Nat) :
    Except Trap Touch × State :=
  match s.checkGlobal slot c lane a n .atomic with
  | (.error t, s) => (.error t, s)
  | (.ok u, s) => if s.hostAtomOk op u.place then (.ok u, s) else (.error { code := codeHostatom, addr := a }, s)

/-- The entries of an atomic word: the items of one stroke's lanes on one line (R206). -/
def State.atomTouches (s : State) (slot : Nat) (c : Crew) (op : EntryOp) (n : Nat) (item : Touch → Item)
    (us : List Touch) : State :=
  (groupTouches us).foldl (init := s) fun s g =>
    s.enter slot (g.entry op (c.thread ((g.touches.map (·.lane)).headD 0)) n s.cycle g.cxl [] (g.touches.map item))

/-- ATOM (R221, R222): op, width, RET. -/
def State.atomWord (s : State) (g : Guard) (op : Nat) (x y : Reg) (w r : BitVec 1) : Result :=
  let n := if w = 1 then 8 else 4
  s.accessWord noImmx g
    (fun c s slot l => s.checkAtom slot c l (c.read64 (c.thread l) y) n op)
    (fun s slot c us =>
      let item (u : Touch) : Item :=
        let t := c.thread u.lane
        let one : DWord := if w = 1 then c.read64 t x else (c.read32 t x).setWidth 64
        let q := c.readQuad t x
        let cmp : DWord := if w = 1 then c.read64 t x else (c.read32 t x).setWidth 64
        let new : DWord :=
          if w = 1 then q.extractLsb' 64 64
          else if 48 ≤ x.toNat then (q.extractLsb' 64 32).setWidth 64 else (q.extractLsb' 32 32).setWidth 64
        { lane := u.lane, va := u.va, addr := u.place.addr
          data := if op = 9 then cmp else one
          data2 := if op = 9 then new else 0, hints := t.hints
          dest := if r = 1 then .regs (t.destEntries x (if w = 1 then 2 else 1)) false else .discard }
      s.atomTouches slot c (.atom (BitVec.ofNat 4 op) (w = 1) (r = 1)) n item us)
    (fun c u => c.watched u.va n true true)

/-- ATOM_ADD (R221, R222). -/
def execAtomAdd (g : Guard) (x y : Reg) (w r : BitVec 1) (s : State) : Result := s.atomWord g 0 x y w r
/-- ATOM_MIN (R221, R222). -/
def execAtomMin (g : Guard) (x y : Reg) (w r : BitVec 1) (s : State) : Result := s.atomWord g 1 x y w r
/-- ATOM_MAX (R221, R222). -/
def execAtomMax (g : Guard) (x y : Reg) (w r : BitVec 1) (s : State) : Result := s.atomWord g 2 x y w r
/-- ATOM_MINU (R221, R222). -/
def execAtomMinu (g : Guard) (x y : Reg) (w r : BitVec 1) (s : State) : Result := s.atomWord g 3 x y w r
/-- ATOM_MAXU (R221, R222). -/
def execAtomMaxu (g : Guard) (x y : Reg) (w r : BitVec 1) (s : State) : Result := s.atomWord g 4 x y w r
/-- ATOM_AND (R221, R222). -/
def execAtomAnd (g : Guard) (x y : Reg) (w r : BitVec 1) (s : State) : Result := s.atomWord g 5 x y w r
/-- ATOM_OR (R221, R222). -/
def execAtomOr (g : Guard) (x y : Reg) (w r : BitVec 1) (s : State) : Result := s.atomWord g 6 x y w r
/-- ATOM_XOR (R221, R222). -/
def execAtomXor (g : Guard) (x y : Reg) (w r : BitVec 1) (s : State) : Result := s.atomWord g 7 x y w r
/-- ATOM_XCHG (R221, R222). -/
def execAtomXchg (g : Guard) (x y : Reg) (w r : BitVec 1) (s : State) : Result := s.atomWord g 8 x y w r
/-- ATOM_CAS (R221, R222). -/
def execAtomCas (g : Guard) (x y : Reg) (w r : BitVec 1) (s : State) : Result := s.atomWord g 9 x y w r
/-- ATOM_FADD (R221, R222). -/
def execAtomFadd (g : Guard) (x y : Reg) (r : BitVec 1) (s : State) : Result := s.atomWord g 10 x y 0 r

/-- ATOMR (R225): a 4-byte write at the line, without an alignment test on y. -/
def execAtomr (g : Guard) (x y : Reg) (r : BitVec 6) (s : State) : Result :=
  s.accessWord noImmx g
    (fun c s slot l =>
      let a := c.read64 (c.thread l) y
      match s.checkGlobal slot c l (a &&& ~~~(0x7F : DWord)) 4 .atomic with
      | (.error t, s) => (.error t, s)
      | (.ok u, s) =>
        if hostBase ≤ u.place.addr then (.error { code := codeHostatom, addr := a &&& ~~~(0x7F : DWord) }, s)
        else (.ok u, s))
    (fun s slot c us =>
      let item (u : Touch) : Item :=
        let t := c.thread u.lane
        { lane := u.lane, va := u.va, addr := u.place.addr, data := (c.read32 t x).setWidth 64
          data2 := c.read64 t y &&& 0x7F, dest := .regs (t.destEntries x 1) false, hints := t.hints }
      s.atomTouches slot c (.atomr r.toNat) 4 item us)
    (fun c u => c.watched u.va 4 true true)

/-! ## Deck operations (R217 to R220) -/

/-- The check of a deck offset (R217). -/
def State.checkDeck (s : State) (slot : Nat) (c : Crew) (lane : Nat) (y : Word) (n : Nat) :
    Except Trap Touch × State :=
  let v := y.toNat
  let off := field v 0 19
  let core := field v 21 2
  let cl := v.testBit 23
  let z : DWord := y.setWidth 64
  let range : Except Trap Touch × State := (.error { code := codeDeckrange, addr := z }, s)
  if field v 24 8 ≠ 0 ∨ field v 19 2 ≠ 0 ∨ (!cl ∧ core ≠ 0) then range
  else if cl ∧ !c.cluster then range
  else if off % n ≠ 0 then (.error { code := codeAlign, addr := z }, s)
  else
    let own := coreOf slot
    let tcore := if cl then clusterCore own core else own
    let deck := if cl ∧ tcore ≠ own then s.teamDeck c.grid (c.team / 4 * 4 + core) tcore else some (c.deckBase, c.deckSize)
    match deck with
    | none => range
    | some (b, size) =>
      if size < off + n then range
      else
        let va := windowBase + (if cl then 0x04000000 + 0x100000 * core else 0) + off
        (.ok ⟨lane, BitVec.ofNat 64 va, ⟨.deck tcore, b + off, false⟩⟩, s)

/-- SCADD (R219). -/
def execScadd (g : Guard) (x y : Reg) (t : BitVec 2) (s : State) : Result :=
  let n := if 2 ≤ t.toNat then 8 else 4
  s.accessWord noImmx g
    (fun c s slot l => s.checkDeck slot c l (c.read32 (c.thread l) y) n)
    (fun s slot c us =>
      let item (u : Touch) : Item :=
        let th := c.thread u.lane
        { lane := u.lane, va := u.va, addr := u.place.addr
          data := if n = 8 then c.read64 th x else (c.read32 th x).setWidth 64, data2 := 0, dest := .discard
          hints := th.hints }
      s.atomTouches slot c (.scadd t) n item us)
    (fun c u => c.watched u.va n true true)

/-- BINAPP (R220). -/
def execBinapp (g : Guard) (x y : Reg) (s : State) : Result :=
  s.accessWord noImmx g
    (fun c s slot l => s.checkDeck slot c l (c.read32 (c.thread l) y) 8)
    (fun s slot c us =>
      let item (u : Touch) : Item :=
        { lane := u.lane, va := u.va, addr := u.place.addr, data := 0, data2 := 0
          dest := .regs ((c.thread u.lane).destEntries x 1) false, hints := (c.thread u.lane).hints }
      s.atomTouches slot c .binapp 8 item us)
    (fun c u => c.watched u.va 8 true true)

/-! ## Multicast, prefetch, cache control, fences and mailboxes (R213 to R216, R227) -/

/-- The check of MCAST.LD (R208, R216): the line, then the control word. -/
def State.checkMcast (s : State) (slot : Nat) (c : Crew) (lane : Nat) (a ctl : DWord) : Except Trap Touch × State :=
  match s.checkGlobal slot c lane a 128 .read with
  | (.error t, s) => (.error t, s)
  | (.ok u, s) =>
    if field ctl.toNat 35 29 ≠ 0 then (.error { code := codeDeckrange, addr := a }, s)
    else if field ctl.toNat 16 7 ≠ 0 then (.error { code := codeAlign, addr := a }, s)
    else (.ok u, s)

/-- MCAST_LD (R216): each active lane its own entry. -/
def execMcastLd (g : Guard) (x y : Reg) (s : State) : Result :=
  s.accessWord noImmx g
    (fun c s slot l => s.checkMcast slot c l (c.read64 (c.thread l) y) (c.read64 (c.thread l) x))
    (fun s slot c us =>
      us.foldl (init := s) fun s u =>
        let t := c.thread u.lane
        let grp : TouchGroup := ⟨u.lane / 16, .global, lineOf u.place.addr, [u]⟩
        let item : Item := ⟨u.lane, u.va, u.place.addr, 0, 0, .discard, t.hints⟩
        s.enter slot (grp.entry (.mcast (c.read64 t x)) t 128 s.cycle u.place.cxl [] [item]))
    (fun _ _ => false)

/-- PREFETCH (R213, R278): one request for each stroke and line; a lane whose address would fault drops its prefetch. -/
def execPrefetch (g : Guard) (y : Reg) (l : BitVec 2) (s : State) : Result :=
  s.costWord noImmx g (portCycles 1) fun s slot c lanes act =>
    let far := act.filter fun lane =>
      let a := (c.read64 (c.thread lane) y).toNat
      !(decide (windowBase ≤ a) && decide (a < 2 ^ 56))
    let q := s.checkLanes (fun s lane => s.checkLane slot c lane (c.read64 (c.thread lane) y) 1 .read) far
    let s1 := (groupTouches q.1).foldl (init := q.2.2) fun s grp =>
      s.request (coreOf slot) grp.line (.prefetch (coreOf slot) l.toNat) c.lts
        (c.thread ((grp.touches.map (·.lane)).headD 0)).policy grp.cxl
    s1.modCrew slot fun c => c.next lanes

/-- CCTL (R214): one entry per active lane; a core-window address does nothing. -/
def State.cctlWord (s : State) (g : Guard) (y : Reg) (op : Nat) : Result :=
  s.accessWord noImmx g
    (fun c s slot l =>
      let a := c.read64 (c.thread l) y
      if windowBase ≤ a.toNat ∧ a.toNat < 2 ^ 56 then (.ok ⟨l, a, ⟨.mailbox, 0, false⟩⟩, s)
      else s.checkLane slot c l a 1 .read)
    (fun s slot c us =>
      us.foldl (init := s) fun s u =>
        if u.place.space = .mailbox then s
        else
          let grp : TouchGroup := ⟨u.lane / 16, .global, lineOf u.place.addr, [u]⟩
          s.enter slot (grp.entry (.cctl op) (c.thread u.lane) 1 s.cycle u.place.cxl [] []))
    (fun _ _ => false)

/-- CCTL_IINV (R214). -/
def execCctlIinv (g : Guard) (y : Reg) (s : State) : Result := s.cctlWord g y 0
/-- CCTL_L1INV (R214). -/
def execCctlL1inv (g : Guard) (y : Reg) (s : State) : Result := s.cctlWord g y 1
/-- CCTL_L2WB (R214). -/
def execCctlL2wb (g : Guard) (y : Reg) (s : State) : Result := s.cctlWord g y 2
/-- CCTL_L2INV (R214). -/
def execCctlL2inv (g : Guard) (y : Reg) (s : State) : Result := s.cctlWord g y 3

/-- The largest lease end of any L1 or sector copy that a core could use (R281). -/
def State.largestLease (s : State) (core : Nat) : Nat :=
  let l1 := (s.core core).l1.foldl (fun m e => max m e.2.rts) 0
  (upFrom (core / 16 * 16) 16).foldl (init := l1) fun m e =>
    (s.slice e).copies.foldl (fun m x => max m x.2.rts) m

/-- A logical time past every older lease (R281). -/
def State.pastLeases (s : State) (slot : Nat) : State :=
  s.modCrew slot fun c => { c with lts := max c.lts (s.largestLease (coreOf slot) + 1) }

/-- FENCE (R215, R281, R346): the wait of its scope is a hold at issue; from die scope up every older lease
expires for the crew, and at system scope a flush read follows the crew's PCIe-path writes. -/
def execFence (g : Guard) (s' : BitVec 3) (s : State) : Result :=
  s.issueWord noImmx g fun s slot c lanes act =>
    let s1 := s.setCrew slot (c.next lanes)
    if act.isEmpty then s1
    else
      let s2 := if 3 ≤ s'.toNat then s1.pastLeases slot else s1
      if s'.toNat = 5 ∧ c.pcieWrites then
        let t := c.thread (act.headD 0)
        let q : PcieReq := ⟨s2.nextId, slot, 0, .fence, s2.cycle, some ⟨c.withHints act, t.pc⟩⟩
        ({ s2.modCrew slot fun c => { c with pcieWrites := false } with
          links := { s2.links with pcie := s2.links.pcie ++ [q] }, nextId := s2.nextId + 1 }).emit .pcieFlush
      else s2

/-- RPUT (R227). -/
def execRput (g : Guard) (x y : Reg) (m : BitVec 3) (s : State) : Result :=
  s.accessWord noImmx g
    (fun c s _ l =>
      let a := c.read64 (c.thread l) y
      if 1024 * c.nTeam ≤ a.toNat ∨ 64 * c.nCrew ≤ a.toNat % 1024 then (.error { code := codeRemote, addr := a }, s)
      else (.ok ⟨l, a, ⟨.mailbox, a.toNat * 128, false⟩⟩, s))
    (fun s slot c us =>
      (groupTouches us).foldl (init := s) fun s grp =>
        let item (u : Touch) : Item :=
          { lane := u.lane, va := u.va, addr := grp.line / 128, data := (c.read32 (c.thread u.lane) x).setWidth 64
            data2 := 0, dest := .discard, hints := (c.thread u.lane).hints }
        let e := grp.entry (.rput m.toNat) (c.thread ((grp.touches.map (·.lane)).headD 0)) 4 s.cycle false []
          (grp.touches.map item)
        s.enter slot { e with line := grp.line / 128 })
    (fun _ _ => false)

end Sys2Proof.Machine
end

