-- ==== Sys2Proof/Machine/Counters.lean ====
section
/-! DEFINITION. Counters: handles and homes (R72 to R77), the counter and ticket instructions (R228, R229),
what a home does with an operation (R76 to R88), its answers and wakes (R87, R441), the pending engine fault
(R92), and engine tickets (R89, R90). -/

namespace Sys2Proof.Machine

/-! ## Handles and homes -/

/-- The fields of a handle (R72): scope, home, index, generation. -/
def handleScope (h : DWord) : Nat := field h.toNat 61 3
def handleHome (h : DWord) : Nat := field h.toNat 48 13
def handleIndex (h : DWord) : Nat := field h.toNat 24 24
def handleGen (h : DWord) : Nat := field h.toNat 0 24

/-- A handle made of its fields (R72). -/
def handleOf (scope home index gen : Nat) : DWord :=
  BitVec.ofNat 64 (scope % 8 * 2 ^ 61 + home % 2 ^ 13 * 2 ^ 48 + index % 2 ^ 24 * 2 ^ 24 + gen % 2 ^ 24)

/-- A counter's home (R73). -/
inductive HomeRef where
  | crew (slot : Nat)
  | core (n : Nat)
  | cluster (n : Nat)
  | die (h : Nat)
  /-- A die counter engine of another module. -/
  | peer
deriving DecidableEq, Repr

/-- What a home holds. -/
def State.home (s : State) : HomeRef → CtrHome
  | .crew slot =>
    match s.crew? slot with
    | some c => c.ctrs
    | none => CtrHome.reset
  | .core n => (s.core n).ctrs
  | .cluster n => (s.cluster n).ctrs
  | .die h => (s.die h).ctrs
  | .peer => CtrHome.reset

/-- A home's contents replaced. -/
def State.setHome (s : State) (r : HomeRef) (v : CtrHome) : State :=
  match r with
  | .crew slot => s.modCrew slot fun c => { c with ctrs := v }
  | .core n => s.modCore n fun c => { c with ctrs := v }
  | .cluster n => s.setCluster n { s.cluster n with ctrs := v }
  | .die h => s.modDie h fun d => { d with ctrs := v }
  | .peer => s

/-- The number of counters of a home (R73, R74). -/
def State.homeSize (s : State) : HomeRef → Nat
  | .crew _ => 16
  | .core _ | .cluster _ => 256
  | .die h => 65536 * (1 + (s.die h).pages)
  | .peer => 0

/-- The waiter entries of a home (R87). -/
def waiterRoom : HomeRef → Nat
  | .crew _ => 16
  | .core _ | .cluster _ => 64
  | .die _ => 4096
  | .peer => 0

/-- The check of R73 for a crew: the home of a well-formed handle within reach. -/
def State.reach (s : State) (slot : Nat) (c : Crew) (h : DWord) : Option HomeRef :=
  let home := handleHome h
  let idx := handleIndex h
  let core := coreOf slot
  match handleScope h with
  | 0 => if home = 0 ∧ idx < 16 then some (.crew slot) else none
  | 1 => if home = 0 ∧ idx < 256 then some (.core core) else none
  | 2 =>
    if home = 0 ∧ idx < 256 ∧ (s.cluster (clusterOf core)).owner = some c.ctx then some (.cluster (clusterOf core))
    else none
  | 3 => if home = dieOf core ∧ idx < s.homeSize (.die home) then some (.die home) else none
  | 4 => if home < 4 ∧ idx < s.homeSize (.die home) then some (.die home) else none
  | 5 =>
    if home / 4 ≠ s.cox.moduleNo then some .peer
    else if idx < s.homeSize (.die (home % 4)) then some (.die (home % 4)) else none
  | _ => none

/-- The home of a package or system handle for a unit outside the cores (R73): Ringmaster, Coxswain, host. -/
def State.packageHome (s : State) (h : DWord) : Option HomeRef :=
  let home := handleHome h
  let idx := handleIndex h
  match handleScope h with
  | 4 => if home < 4 ∧ idx < s.homeSize (.die home) then some (.die home) else none
  | 5 =>
    if home / 4 = s.cox.moduleNo ∧ idx < s.homeSize (.die (home % 4)) then some (.die (home % 4)) else none
  | _ => none

/-- A counter of a home. -/
def CtrHome.ctr (h : CtrHome) (i : Nat) : Counter := Cells.get Counter.reset h.ctrs i
def CtrHome.setCtr (h : CtrHome) (i : Nat) (v : Counter) : CtrHome :=
  { h with ctrs := Cells.set Counter.reset h.ctrs i v }

/-- The counters of a home none of which is live any more (R193). -/
def CtrHome.ended (h : CtrHome) : List (Nat × Counter) :=
  h.ctrs.map fun (e : Nat × Counter) => (e.1, { e.2 with live := false })

/-- Whether an operation on a handle is stale at its home (R77). -/
def CtrHome.stale (h : CtrHome) (handle : DWord) : Bool :=
  let k := h.ctr (handleIndex handle)
  !k.live || k.gen != handleGen handle

/-- The lowest index from n that is not live, in a table of rising keys (R76). -/
def lowestFree : List (Nat × Counter) → Nat → Nat
  | [], n => n
  | e :: t, n => if e.1 = n then (if e.2.live then lowestFree t (n + 1) else n) else n

/-- The generation after another (R76). -/
def nextGen (g : Nat) : Nat := if g = 0xFFFFFF then 1 else g + 1

/-- CALLOC at a home (R76): the new handle, or the null handle when no counter is free. -/
def CtrHome.alloc (h : CtrHome) (size scope home : Nat) : DWord × CtrHome :=
  let i := lowestFree h.ctrs 0
  if size ≤ i then (0, h)
  else
    let g := nextGen (h.ctr i).gen
    (handleOf scope home i g, h.setCtr i ⟨0, true, g, 0, scope⟩)

/-- The largest counter value (R80). -/
def ctrMax : Nat := 0xFFFFFFFFFFFFFFFF

/-- An add at a home (R79, R80, R83): the old value, whether it saturates, and the home. -/
def CtrHome.add (h : CtrHome) (handle : DWord) (inc lts : Nat) : Nat × Bool × CtrHome :=
  let i := handleIndex handle
  let k := h.ctr i
  (k.value, decide (ctrMax < k.value + inc),
    h.setCtr i { k with value := min ctrMax (k.value + inc), lts := max k.lts lts })

/-! ## Waking (R78, R84 to R88) -/

/-- A lane leaves its wait: it goes on past the CWAIT, its predicate written when the CWAIT has a timeout. -/
def Thread.wakeUp (t : Thread) (w : CounterWait) (met : Bool) : Thread :=
  let t := { t.next with st := .runnable }
  match w.pred with
  | some p => t.setPred p.toNat met
  | none => t

/-- The crew, by slot, with a lane blocked on a wait. -/
def State.waitingSlot (s : State) (op : Nat) : Option Nat :=
  (s.crews.find? fun e => e.2.threads.any fun t =>
    match t.st with
    | .waitCounter w => w.op == op
    | _ => false).map (·.1)

/-- The lanes of a crew blocked on a wait. -/
def Crew.waitLanes (c : Crew) (op : Nat) : List Nat :=
  c.lanesWith fun t =>
    match t.st with
    | .waitCounter w => w.op == op
    | _ => false

/-- Whether a lane's wait has passed the end of its timeout (R85). -/
def Thread.timedOut (t : Thread) (cycle : Nat) : Bool :=
  match t.st with
  | .waitCounter w => w.expiry.any fun x => decide (x < cycle)
  | _ => false

/-- A wake applied to a crew (R35, R84, R85): its waiting lanes go on with acquire, those past their timeout without one and
with a false predicate. A stale wake is left to the caller to fault. -/
def Crew.wake (c : Crew) (op lts cycle : Nat) : Crew :=
  let lanes := c.waitLanes op
  let inTime (l : Nat) : Bool := !(c.thread l).timedOut cycle
  { c.modLanes lanes fun l t =>
      match t.st with
      | .waitCounter w => t.wakeUp w (inTime l)
      | _ => t with
    lts := if lanes.any inTime then max c.lts lts else c.lts }

/-- The lanes of a stale wait made runnable at their CWAIT, to fault there. -/
def Crew.unblock (c : Crew) (op : Nat) : Crew := c.modLanes (c.waitLanes op) fun _ t => { t with st := .runnable }

/-- A wake that has reached its subcore, or the saved crew it is credited to (R35, R53, R78, R87). -/
def State.wakeOp (s : State) (op lts : Nat) (stale : Bool) : State :=
  match s.waitingSlot op with
  | some slot =>
    match s.crew? slot with
    | none => s
    | some c =>
      if stale then
        let lanes := c.waitLanes op
        let h := match (c.thread (lanes.headD 0)).st with
          | .waitCounter w => w.handle
          | _ => 0
        (s.setCrew slot (c.unblock op)).takeFaults slot s.cycle
          (lanes.map fun l => (l, { code := codeCstale, addr := h }))
      else s.setCrew slot (c.wake op lts s.cycle)
  | none =>
    let saved := s.rm.saved.map fun (v : SavedCore) =>
      { v with crews := v.crews.map fun (w : SavedCrew) =>
        { w with crew := if stale then w.crew.unblock op else w.crew.wake op lts s.cycle } }
    { s with rm := { s.rm with saved := saved } }

/-- A home sends a waiter its wake: in the same c for crew waiters, else as a message (R87). -/
def State.sendWake (s : State) (r : HomeRef) (who : WaitWho) (lts : Nat) (stale : Bool) : State :=
  match who with
  | .lanes op =>
    match r with
    | .crew _ => s.wakeOp op lts stale
    | _ => s.post (.wake op lts stale)
  | .carousel core chan => s.post (.carouselWake core chan lts stale)
  | .dependence serial n => s.post (.dependenceWake serial n lts stale)
  | .peer id => s.emit (.peerAnswer id (if stale then codeCstale.toNat else 0) 0 lts)

/-- The wake check of a home (R86): met entries removed, their wakes sent in registration order. -/
def State.wakeCheck (s : State) (r : HomeRef) (index : Nat) : State :=
  let h := s.home r
  let k := h.ctr index
  let met := h.waiters.filter fun w => w.index == index && decide (w.threshold ≤ k.value)
  let s1 := s.setHome r { h with
    waiters := h.waiters.filter fun w => !(w.index == index && decide (w.threshold ≤ k.value))
    woken := match r with
      | .crew _ => h.woken
      | _ => h.woken ++ met.map fun w => (index, w.who) }
  met.foldl (fun s w => s.sendWake r w.who k.lts false) s1

/-- An add applied at its home, with the wakes it meets (R79, R80, R86). -/
def State.applyAdd (s : State) (r : HomeRef) (handle : DWord) (inc lts : Nat) : Nat × Bool × State :=
  let q := (s.home r).add handle inc lts
  (q.1, q.2.1, (s.setHome r q.2.2).wakeCheck r (handleIndex handle))

/-- A wake under way made stale: its counter was freed in the c of the add, before the wake check of that c (R86). -/
def Msg.recalled (who : WaitWho) (m : Msg) : Msg :=
  match m, who with
  | .wake op lts stale, .lanes o => if op = o then .wake op 0 true else .wake op lts stale
  | .carouselWake k c lts stale, .carousel k' c' => if k = k' ∧ c = c' then .carouselWake k c 0 true else .carouselWake k c lts stale
  | .dependenceWake g n lts stale, .dependence g' n' =>
    if g = g' ∧ n = n' then .dependenceWake g n lts true else .dependenceWake g n lts stale
  | m, _ => m

/-- What the Ringmaster has been sent for a grid's dependence: the counter's logical time, and whether it was freed. -/
def State.depWake (s : State) (serial n : Nat) : Option (Nat × Bool) :=
  s.msgs.findSome? fun m => match m.2 with
    | .dependenceWake g k lts stale => if g == serial && k == n then some (lts, stale) else none
    | _ => none

/-- Whether every dependence of a grid has been met: it is no longer pending (R324). -/
def State.depsMet (s : State) (g : Grid) : Bool :=
  g.unmet.all fun d => ((s.depWake g.serial d.1).map fun w => !w.2).getD false

/-- The dependences of pending grids on a counter of a home (R325). -/
def State.depsOn (s : State) (r : HomeRef) (i : Nat) : List WaitWho :=
  ((s.rm.grids.filter fun g => !g.started && !s.depsMet g).map fun g =>
    (g.unmet.filter fun d => s.packageHome d.2.1 == some r && handleIndex d.2.1 == i).map fun d =>
      WaitWho.dependence g.serial d.1).flatten

/-- A counter freed at its home; its waiters wake stale (R78), those too whose wakes the home sent in this c (R86), and the
grids still pending that had found it met (R325). -/
def State.applyFree (s : State) (r : HomeRef) (handle : DWord) : State :=
  let i := handleIndex handle
  let h := s.home r
  let gone := h.waiters.filter fun w => w.index == i
  let h1 : CtrHome := { h.setCtr i { h.ctr i with live := false } with waiters := h.waiters.filter fun w => w.index != i }
  let back : List WaitWho := match r with
    | .crew _ => []
    | _ => (if h.served.1 = s.cycle then (h.woken.filter fun w => w.1 == i).map (·.2) else []) ++ s.depsOn r i
  let s1 := gone.foldl (fun s w => s.sendWake r w.who 0 true) (s.setHome r h1)
  back.foldl (init := s1) fun s w =>
    { s with msgs := s.msgs.map fun (m : Nat × Msg) => (m.1, m.2.recalled w) }

/-! ## The order at a home (R86) and overflow counters (R87) -/

/-- The place of an operation among those that reach a home in one c (R86): its class (0 adds, 1 CALLOC and CFREE, 2 reads,
tests and registrations), then its input. -/
def ctrPlace (cls input : Nat) : Nat := 32 * cls + input

/-- Whether a home can still serve an operation of a place in this c. -/
def CtrHome.serves (h : CtrHome) (cycle place : Nat) : Bool := h.served.1 != cycle || decide (h.served.2 ≤ place)

/-- An operation of a place served by a home in this c. -/
def State.served (s : State) (r : HomeRef) (place : Nat) : State :=
  let h := s.home r
  s.setHome r { h with served := (s.cycle, place), woken := if h.served.1 = s.cycle then h.woken else [] }

/-- The input of a die's counter engine that a core's operations arrive on (R17, R86, R286): 0 the Big Wheel's clockwise
input, 1 its counter-clockwise one. They enter the die's ring at their sector's stop or at the bridge they cross last. -/
def dieInput (core die : Nat) : Nat :=
  let x := dieOf core
  let stop :=
    if x = die then core / 16 % 3
    else if x = (die + 1) % 4 ∨ (x = (die + 2) % 4 ∧ x % 2 = 1) then 3
    else 5
  if stop = 0 ∨ stop = 5 then 1 else 0

/-- The input of a home that an operation on a counter arrives on (R86): unit 0-3 a subcore, 4 the copy, 5 the matrix and 6
the collective engine of a core. -/
def homeInput (r : HomeRef) (core unit index : Nat) : Nat :=
  match r with
  | .crew _ | .core _ => unit
  | .cluster _ => if core % 4 = index % 4 then unit else 7 + core % 4
  | .die d => if unit = 6 ∧ dieOf core = d then 2 else dieInput core d
  | .peer => 0

/-- Whether a handle names an overflow counter of a die counter engine (R74). -/
def overflowAt (r : HomeRef) (index : Nat) : Bool :=
  match r with
  | .die _ => decide (65536 ≤ index)
  | _ => false

/-- An operation on an overflow counter taken by its engine (R87): it is applied 220 c later. -/
def State.takeLate (s : State) (r : HomeRef) (v : LateCtr) : State :=
  match r with
  | .die d => s.modDie d fun x => { x with overflow := x.overflow ++ [⟨v, s.cycle + 220⟩] }
  | _ => s

/-- An add of a unit that is no crew, on a live counter (R81, R83, R87): whether it saturates. On an overflow counter it waits
its turn at the engine. -/
def State.unitAdd (s : State) (source : AddSource) (r : HomeRef) (h : DWord) (inc lts : Nat) : Bool × State :=
  if overflowAt r (handleIndex h) then (false, s.takeLate r (.add source h inc lts))
  else
    let q := s.applyAdd r h inc lts
    (q.2.1, q.2.2)

/-- A waiter registered, when its home has room (R84, R88). -/
def State.register (s : State) (r : HomeRef) (handle : DWord) (threshold : Nat) (who : WaitWho) : Bool × State :=
  let h := s.home r
  if h.waiters.length < waiterRoom r then
    (true, s.setHome r { h with waiters := h.waiters ++ [⟨handleIndex handle, handle, threshold, who⟩] })
  else (false, s)

/-! ## Pending engine faults and tickets (R89 to R92, R441) -/

/-- The pending engine fault set, or counted as lost (R92). -/
def Crew.setEfault (c : Crew) (f : EngFault) : Crew :=
  match c.efault with
  | none => { c with efault := some f }
  | some _ => { c with lost := min 255 (c.lost + 1) }

/-- Raised on the lowest active lane of a counter or ticket instruction, which does not execute it; the lost
count goes into the record and is cleared (R92). -/
def State.raiseEfault (s : State) (slot : Nat) (act : List Nat) : List Nat × State :=
  match s.crew? slot, act with
  | some c, l :: rest =>
    match c.efault with
    | none => (act, s)
    | some f =>
      let s1 := s.faultLane slot l { code := f.code, addr := f.addr, ext := f.ext, src := 1 }
      (rest, s1.modCrew slot fun c => { c with efault := none, lost := 0 })
  | _, _ => (act, s)

/-- A ticket pair's values. -/
def Crew.issuedOf (c : Crew) (cls : Nat) : Nat := c.issued.getD cls 0
def Crew.doneOf (c : Crew) (cls : Nat) : Nat := c.done.getD cls 0

/-- Whether a WAITE of class and k that read an ISSUED value is met (R90). -/
def Crew.ticketMet (c : Crew) (cls k issued : Nat) : Bool := decide (issued ≤ k) || decide (issued - k ≤ c.doneOf cls)

/-- DONE raised over the commands of a class that have completed in issue order, at most so many (R89). -/
def Crew.raiseDone (c : Crew) (cls : Nat) : Nat → Crew
  | 0 => c
  | n + 1 =>
    let next := (cls, c.doneOf cls + 1)
    if c.early.contains next then
      { c with early := c.early.erase next, done := setAt c.done cls (c.doneOf cls + 1) }.raiseDone cls n
    else c

/-- A command completed: its write time counts for WAITE, DONE advances in issue order, and waiting lanes whose
ticket is met go on (R89, R90, R305). -/
def Crew.finish (c : Crew) (cls ticket wtime : Nat) : Crew :=
  let c0 := { c with
    early := c.early ++ [(cls, ticket)], cmdTime := setAt c.cmdTime cls (max (c.cmdTime.getD cls 0) wtime) }
  let c1 := c0.raiseDone cls (c0.early.length)
  let woken := c1.lanesWith fun t =>
    match t.st with
    | .waitTicket k' k i => k' == cls && c1.ticketMet cls k i
    | _ => false
  if woken.isEmpty then c1
  else { c1.modLanes woken fun _ t => { t.next with st := .runnable } with lts := max c1.lts (c1.cmdTime.getD cls 0) }

/-- WAITE (R90, R92, R229, R305). -/
def execWaite (g : Guard) (c : BitVec 2) (k : BitVec 7) (s : State) : Result :=
  s.issueWord noImmx g fun s slot cr lanes act =>
    let s1 := s.setCrew slot (cr.next (lanes.filter fun l => !act.contains l))
    let q := s1.raiseEfault slot act
    let s2 := q.2.modCrew slot fun x =>
      let i := x.issuedOf c.toNat
      if x.ticketMet c.toNat k.toNat i then
        if q.1.isEmpty then x else { x.next q.1 with lts := max x.lts (x.cmdTime.getD c.toNat 0) }
      else x.modLanes q.1 fun _ t => { t with st := .waitTicket c.toNat k.toNat i }
    if act.isEmpty then s2 else s2.switchPoint slot false

/-! ## The instructions (R228, R229) -/

/-- A counter operation handed to its home, on behalf of lanes (R82, R229, R441). -/
def State.sendCtr (s : State) (slot : Nat) (kind : CtrKind) (h thr : DWord) (lanes : List Nat) (dest : Dest)
    (pc : Word) : State :=
  { s.modCrew slot fun c =>
      let o : CtrOp := {
        id := s.nextId, kind := kind, handle := h, threshold := thr, lanes := lanes, dest := dest
        older := c.loads.map (·.id) ++ (c.fifo.filter fun e => e.op.unknown).map (·.id), taken := false
        lts := c.lts, pc := pc, hints := c.withHints lanes, cycle := s.cycle }
      { c with ctrOps := c.ctrOps ++ [o] } with
    nextId := s.nextId + 1 }

/-- Whether a scope is the crew's own (R441). -/
def crewScope (h : DWord) : Bool := handleScope h == 0

/-- The frame of the counter instructions: the pending engine fault first, then each presenting lane in lane
order, or once per run when the destination is a %k register, whose fault every remaining lane takes (R92,
R207, R229). The effect answers a fault or a state in which the lane has gone on. -/
def State.ctrWord (s : State) (g : Guard) (once : Bool)
    (f : State → Nat → Crew → Nat → List Nat → Except Trap State × State) : Result :=
  s.costWord noImmx g (portCycles 1) fun s slot c lanes act =>
    let s1 := s.setCrew slot (c.next (lanes.filter fun l => !act.contains l))
    let q := s1.raiseEfault slot act
    if once then
      match q.1, q.2.crew? slot with
      | l :: rest, some c =>
        match f q.2 slot c l (l :: rest) with
        | (.ok s, _) => s.modCrew slot fun c => c.next rest
        | (.error t, s) => (l :: rest).foldl (init := s) fun s l => s.faultLane slot l t
      | _, _ => q.2
    else
      q.1.foldl (init := q.2) fun s l =>
        match s.crew? slot with
        | none => s
        | some c =>
          match f s slot c l [l] with
          | (.ok s, _) => s
          | (.error t, s) => s.faultLane slot l t

/-- The checks of R73 and, for crew scope, R77 on a lane's handle. -/
def State.checkHandle (s : State) (slot : Nat) (c : Crew) (h : DWord) : Except Trap HomeRef :=
  match s.reach slot c h with
  | none => .error { code := codeCscope, addr := h }
  | some r => if crewScope h && (s.home r).stale h then .error { code := codeCstale, addr := h } else .ok r

/-- A lane goes on past a counter instruction. -/
def State.laneNext (s : State) (slot lane : Nat) : State := s.modCrew slot fun c => c.modThread lane fun t => t.next

/-- A 64-bit result written to a lane's destination, or once to a %k register; tagged P (R59, R69). -/
def State.ctrResult (s : State) (slot lane : Nat) (x : Reg) (v : DWord) : State :=
  s.modCrew slot fun c => c.writeResults [lane] x true false fun _ => v

/-- The destination a counter answer writes. -/
def Crew.ctrDest (c : Crew) (lane : Nat) (x : Reg) : Dest :=
  if 48 ≤ x.toNat then .kreg (x.toNat - 48) true else .regs ((c.thread lane).destEntries x 2) false

/-- CALLOC (R76, R228). What %TRAPADDR holds when it faults CSCOPE is free: no handle exists yet (log 12). -/
def execCalloc (g : Guard) (x : Reg) (s' : BitVec 3) (s : State) : Result :=
  s.ctrWord g (48 ≤ x.toNat) fun s slot c l all =>
    let t := c.thread l
    let core := coreOf slot
    if s' = 0 then
      let q := (s.home (.crew slot)).alloc 16 0 0
      (.ok (((s.setHome (.crew slot) q.2).ctrResult slot l x q.1).laneNext slot l), s)
    else if s' = 2 ∧ (s.cluster (clusterOf core)).owner ≠ some c.ctx then
      (.error { code := codeCscope, addr := Config.freeWord s.fresh }, { s with fresh := s.fresh + 1 })
    else
      (.ok ((s.sendCtr slot (.alloc s'.toNat) 0 0 all (c.ctrDest l x) t.pc).laneNext slot l), s)

/-- CFREE (R78, R228, R441). -/
def execCfree (g : Guard) (y : Reg) (s : State) : Result :=
  s.ctrWord g false fun s slot c l _ =>
    let t := c.thread l
    let h := c.read64 t y
    match s.checkHandle slot c h with
    | .error e => (.error e, s)
    | .ok r =>
      if crewScope h then (.ok ((s.applyFree r h).laneNext slot l), s)
      else (.ok ((s.sendCtr slot .free h 0 [l] .discard t.pc).laneNext slot l), s)

/-- CREAD (R83, R228). -/
def execCread (g : Guard) (x y : Reg) (s : State) : Result :=
  s.ctrWord g (48 ≤ x.toNat) fun s slot c l all =>
    let t := c.thread l
    let h := c.read64 t y
    match s.checkHandle slot c h with
    | .error e => (.error e, s)
    | .ok r =>
      if crewScope h then
        let k := (s.home r).ctr (handleIndex h)
        let s1 := s.modCrew slot fun c => { c with lts := max c.lts k.lts }
        (.ok ((s1.ctrResult slot l x (BitVec.ofNat 64 k.value)).laneNext slot l), s)
      else (.ok ((s.sendCtr slot .read h 0 all (c.ctrDest l x) t.pc).laneNext slot l), s)

/-- CTEST (R83, R228). -/
def execCtest (g : Guard) (x y : Reg) (p : BitVec 3) (s : State) : Result :=
  s.ctrWord g false fun s slot c l _ =>
    let t := c.thread l
    let h := c.read64 t y
    let thr := c.read64 t x
    match s.checkHandle slot c h with
    | .error e => (.error e, s)
    | .ok r =>
      if crewScope h then
        let k := (s.home r).ctr (handleIndex h)
        let met := decide (thr.toNat ≤ k.value)
        let s1 := if met then s.modCrew slot fun c => { c with lts := max c.lts k.lts } else s
        (.ok ((s1.modCrew slot fun c => c.modThread l fun t => t.setPred p.toNat met).laneNext slot l), s)
      else (.ok ((s.sendCtr slot .test h thr [l] (.pred p.toNat) t.pc).laneNext slot l), s)

/-- CADD of one lane (R79, R80, R82, R441). -/
def State.caddLane (s : State) (slot : Nat) (c : Crew) (l : Nat) (h : DWord) (inc : Word) : Except Trap State × State :=
  let t := c.thread l
  match s.checkHandle slot c h with
  | .error e => (.error e, s)
  | .ok r =>
    if crewScope h then
      let q := s.applyAdd r h inc.toNat c.lts
      if q.2.1 then (.error { code := codeCovf, addr := h }, q.2.2) else (.ok (q.2.2.laneNext slot l), s)
    else (.ok ((s.sendCtr slot (.add inc) h 0 [l] .discard t.pc).laneNext slot l), s)

/-- CADD_REG (R79, R228). -/
def execCaddReg (g : Guard) (x y : Reg) (s : State) : Result :=
  s.ctrWord g false fun s slot c l _ => s.caddLane slot c l (c.read64 (c.thread l) y) (c.read32 (c.thread l) x)

/-- CADD_IMM (R79, R228). -/
def execCaddImm (g : Guard) (y : Reg) (i : BitVec 8) (s : State) : Result :=
  s.ctrWord g false fun s slot c l _ => s.caddLane slot c l (c.read64 (c.thread l) y) (i.setWidth 32)

/-- CADDR of one lane: the old value is written even when the add saturates (R79, R80). -/
def State.caddrLane (s : State) (slot : Nat) (c : Crew) (l : Nat) (all : List Nat) (x : Reg) (h : DWord) (inc : Word) :
    Except Trap State × State :=
  let t := c.thread l
  match s.checkHandle slot c h with
  | .error e => (.error e, s)
  | .ok r =>
    if crewScope h then
      let q := s.applyAdd r h inc.toNat c.lts
      let s1 := q.2.2.ctrResult slot l x (BitVec.ofNat 64 q.1)
      if q.2.1 then (.error { code := codeCovf, addr := h }, s1) else (.ok (s1.laneNext slot l), s)
    else (.ok ((s.sendCtr slot (.addr inc) h 0 all (c.ctrDest l x) t.pc).laneNext slot l), s)

/-- CADDR_REG (R79, R228). -/
def execCaddrReg (g : Guard) (x y : Reg) (s : State) : Result :=
  s.ctrWord g (48 ≤ x.toNat) fun s slot c l all =>
    s.caddrLane slot c l all x (c.read64 (c.thread l) y) (c.read32 (c.thread l) x)

/-- CADDR_IMM (R79, R228). -/
def execCaddrImm (g : Guard) (x y : Reg) (i : BitVec 8) (s : State) : Result :=
  s.ctrWord g (48 ≤ x.toNat) fun s slot c l all =>
    s.caddrLane slot c l all x (c.read64 (c.thread l) y) (i.setWidth 32)

/-- The operation number of the waiter entry that a lane of one CWAIT shares: that of an earlier lane of the
same instruction with the same handle and threshold (R84). -/
def Crew.sharedWait (c : Crew) (h thr : DWord) (from' : Nat) : Option Nat :=
  c.threads.findSome? fun t =>
    match t.st with
    | .waitCounter w => if w.handle = h ∧ w.threshold = thr ∧ from' ≤ w.op then some w.op else none
    | _ => none

/-- One lane's CWAIT (R84, R85, R88): a crew counter is tested at once; every other home is asked, and the
lane blocks at its CWAIT until it answers. `first` is the next number when the instruction began. -/
def State.cwaitLane (s : State) (slot : Nat) (c : Crew) (l : Nat) (h thr : DWord) (pred : Option (BitVec 3))
    (expiry : Option Nat) (first : Nat) : Except Trap State × State :=
  let t := c.thread l
  match s.checkHandle slot c h with
  | .error e => (.error e, s)
  | .ok r =>
    let wait (op : Nat) (poller : Option Nat) : CounterWait := ⟨h, thr, expiry, pred, poller, op⟩
    let k := (s.home r).ctr (handleIndex h)
    if crewScope h && decide (thr.toNat ≤ k.value) then
      let s1 := s.modCrew slot fun c => { c with lts := max c.lts k.lts }
      (.ok (s1.modCrew slot fun c => c.modThread l fun t => t.wakeUp (wait 0 none) true), s)
    else
      match c.sharedWait h thr first with
      | some op =>
        let poller := c.threads.findSome? fun t =>
          match t.st with
          | .waitCounter w => if w.op = op then w.poller else none
          | _ => none
        (.ok (s.modCrew slot fun c => c.modThread l fun t => { t with st := .waitCounter (wait op poller) }), s)
      | none =>
        if crewScope h then
          let q := s.register r h thr.toNat (.lanes s.nextId)
          let poller := if q.1 then none else some (s.cycle + 256)
          (.ok { q.2.modCrew slot fun c => c.modThread l fun t => { t with st := .waitCounter (wait s.nextId poller) } with
            nextId := s.nextId + 1 }, s)
        else
          let op := s.nextId
          let s1 := s.sendCtr slot .wait h thr [l] .discard t.pc
          (.ok (s1.modCrew slot fun c => c.modThread l fun t => { t with st := .waitCounter (wait op none) }), s)

/-- What follows a CWAIT: a switch point in deterministic mode, but nothing where its guard is false for the whole run
(R44, R440). -/
def State.waitSwitch (s : State) (g : Guard) : Result → Result
  | .next t =>
    match s.crew? s.cur.slot with
    | some c => if (c.active s.cur.lanes g).isEmpty then .next t else .next (t.switchPoint s.cur.slot false)
    | none => .next t
  | r => r

/-- CWAIT (R84, R228). -/
def execCwait (g : Guard) (x y : Reg) (s : State) : Result :=
  let first := s.nextId
  s.waitSwitch g <| s.ctrWord g false fun s slot c l _ =>
    s.cwaitLane slot c l (c.read64 (c.thread l) y) (c.read64 (c.thread l) x) none none first

/-- T of the timeout form: [31:0] of x+2, or of %kN+1; 0 is read as 1 (R85, R228). -/
def Crew.timeout (c : Crew) (t : Thread) (x : Reg) : Nat :=
  max 1 ((c.readQuad t x).extractLsb' 64 32).toNat

/-- CWAIT_TO (R85, R228). -/
def execCwaitTo (g : Guard) (x y : Reg) (p : BitVec 3) (s : State) : Result :=
  let first := s.nextId
  s.waitSwitch g <| s.ctrWord g false fun s slot c l _ =>
    let t := c.thread l
    s.cwaitLane slot c l (c.read64 t y) (c.read64 t x) (some p) (some (s.cycle + c.timeout t x)) first

/-! ## At the homes (R76 to R88) -/

/-- A crew's operation by number. -/
def Crew.ctrOp? (c : Crew) (id : Nat) : Option CtrOp := c.ctrOps.find? fun o => o.id == id

/-- Whether an operation has left its crew: an add of wider scope than crew waits for %UNACK 0 and for older
loads and atomics (R82); the operations of one instruction on one counter keep lane order (R79, R229). -/
def Crew.ctrLeaves (c : Crew) (o : CtrOp) : Bool :=
  let release := match o.kind with
    | .add _ | .addr _ => c.fifo.isEmpty && !(c.loads.any fun l => o.older.contains l.id)
    | _ => true
  release && !(c.ctrOps.any fun p => p.cycle == o.cycle && decide (p.id < o.id) && !p.taken)

/-- The state with an operation of a crew replaced or removed. -/
def State.modCtrOp (s : State) (slot id : Nat) (f : CtrOp → CtrOp) : State :=
  s.modCrew slot fun c => { c with ctrOps := c.ctrOps.map fun o => if o.id = id then f o else o }
def State.dropCtrOp (s : State) (slot id : Nat) : State :=
  s.modCrew slot fun c => { c with ctrOps := c.ctrOps.filter fun o => o.id != id }

/-- The home an allocation or a handle goes to (R73, R76). -/
def State.opHome (s : State) (slot : Nat) (c : Crew) (o : CtrOp) : HomeRef :=
  match o.kind with
  | .alloc 1 => .core (coreOf slot)
  | .alloc 2 => .cluster (clusterOf (coreOf slot))
  | .alloc _ => .die (dieOf (coreOf slot))
  | _ => (s.reach slot c o.handle).getD .peer

/-- A poller's next check (R88). -/
def Thread.pollAt (t : Thread) (cycle : Nat) : Thread :=
  match t.st with
  | .waitCounter w => { t with st := .waitCounter { w with poller := some cycle } }
  | _ => t

/-- A Rolper port's state, peer and count of flits resent (R433). -/
def State.port (s : State) (p : Nat) : Nat × Nat × Nat := Cells.get (0, 0, 0) s.fleet.ports p

/-- Whether the port of traffic to a C-die of another module is UP (R433, R434): x is the counter index or rank. -/
def State.portUp (s : State) (die x : Nat) : Bool :=
  let st := (s.port (4 * die + x % 4)).1
  st == 2 || st == 3

/-- What an operation on another module's counter brings back (R96, R434): value and logical time, or the code of
its fault there, zero when it cannot be delivered. The other module's part is free (log 13). -/
def State.peerReply (s : State) (h : DWord) : Except (BitVec 8) (Nat × Nat) :=
  if s.portUp (handleHome h % 4) (handleIndex h) then
    let a := Config.peerAnswer s.fresh
    if a.1 = 0 then .ok a.2 else .error a.1
  else .error 0

/-- What a kind of operation sends to another module (R96). -/
def CtrKind.sent (k : CtrKind) (h thr : DWord) (lts : Nat) : Option Egress :=
  let asks (o : PeerOp) : Option Egress := some (.peerOp (handleHome h / 4) o h lts)
  match k with
  | .alloc _ => none
  | .add i => some (.peerAdd (handleHome h / 4) h i)
  | .addr i => asks (.addr i)
  | .free => asks .free
  | .read => asks .read
  | .test => asks (.test thr)
  | .wait => asks (.wait thr)

/-- An operation sent to another module, when its port is UP (R434). -/
def State.sendPeer (s : State) (k : CtrKind) (h thr : DWord) (lts : Nat) : State :=
  match k.sent h thr lts with
  | none => s
  | some e => if s.portUp (handleHome h % 4) (handleIndex h) then s.emit e else s

/-- An operation applied at its home and answered (R76 to R84, R96). -/
def State.serveCtr (s : State) (slot : Nat) (c : Crew) (o : CtrOp) : State :=
  let r := s.opHome slot c o
  let answer (s : State) (x : CtrResult) : State := s.post (.answer slot o.id x)
  let stale (s : State) : State := answer s (.fault codeCstale 0 none)
  match r with
  | .peer =>
    let s1 := { s with fresh := s.fresh + 1 }
    let s2 := s1.sendPeer o.kind o.handle o.threshold o.lts
    match s.peerReply o.handle with
    | .ok v => answer s2 (.ok v.1 v.2)
    | .error e => answer s2 (.fault codeRemote e none)
  | _ =>
    let h := s.home r
    match o.kind with
    | .alloc scope =>
      let home := if 5 ≤ scope then s.cox.moduleNo * 4 + dieOf (coreOf slot) else if 3 ≤ scope then dieOf (coreOf slot) else 0
      let q := h.alloc (s.homeSize r) scope home
      let s1 := s.setHome r q.2
      let s2 := if scope = 1 ∧ q.1 ≠ 0 then
          s1.modCore (coreOf slot) fun k =>
            { k with allocs := Cells.put k.allocs (handleIndex q.1) (c.grid.toNat, c.team) }
        else s1
      answer s2 (.ok q.1.toNat 0)
    | .free => if h.stale o.handle then stale s else answer (s.applyFree r o.handle) (.ok 0 0)
    | .read =>
      if h.stale o.handle then stale s
      else
        let k := h.ctr (handleIndex o.handle)
        answer s (.ok k.value k.lts)
    | .test =>
      if h.stale o.handle then stale s
      else
        let k := h.ctr (handleIndex o.handle)
        if o.threshold.toNat ≤ k.value then answer s (.ok 1 k.lts) else answer s (.ok 0 0)
    | .add i =>
      if h.stale o.handle then stale s
      else
        let q := s.applyAdd r o.handle i.toNat o.lts
        if q.2.1 then answer q.2.2 (.fault codeCovf 0 none) else answer q.2.2 (.ok 0 0)
    | .addr i =>
      if h.stale o.handle then stale s
      else
        let q := s.applyAdd r o.handle i.toNat o.lts
        if q.2.1 then answer q.2.2 (.fault codeCovf 0 (some q.1)) else answer q.2.2 (.ok q.1 0)
    | .wait =>
      if h.stale o.handle then s.post (.wake o.id 0 true)
      else
        let k := h.ctr (handleIndex o.handle)
        if o.threshold.toNat ≤ k.value then s.post (.wake o.id k.lts false)
        else
          let q := s.register r o.handle o.threshold.toNat (.lanes o.id)
          if q.1 then q.2
          else
            s.modCrew slot fun c => c.modLanes (c.waitLanes o.id) fun _ t => t.pollAt (o.cycle + 256)

/-- The class of an operation in the order of a home (R86). -/
def CtrKind.cls : CtrKind → Nat
  | .add _ | .addr _ => 0
  | .alloc _ | .free => 1
  | .read | .test | .wait => 2

/-- The place of a crew's operation among those that reach its home in one c (R86). -/
def CtrOp.place (o : CtrOp) (r : HomeRef) (slot : Nat) : Nat :=
  ctrPlace o.kind.cls (homeInput r (coreOf slot) (subOf slot) (handleIndex o.handle))

/-- Whether an operation is on an overflow counter (R74, R87): a CALLOC is where the engine's SRAM has no counter free. -/
def State.lateOp (s : State) (r : HomeRef) (o : CtrOp) : Bool :=
  match o.kind with
  | .alloc _ => overflowAt r (lowestFree (s.home r).ctrs 0) && decide (lowestFree (s.home r).ctrs 0 < s.homeSize r)
  | _ => overflowAt r (handleIndex o.handle)

/-- A home takes one operation of a crew, in its place among those of the c (R86): an overflow counter's waits 220 c at the
engine (R87), any other is applied at once. A wait leaves no operation behind. -/
def State.takeCtr (s : State) (slot id : Nat) (ok : CtrKind → Bool) : State :=
  match s.crew? slot with
  | none => s
  | some c =>
    match c.ctrOp? id with
    | none => s
    | some o =>
      let r := s.opHome slot c o
      let place := o.place r slot
      if o.taken || !ok o.kind || !c.ctrLeaves o || !(s.home r).serves s.cycle place then s
      else
        let o1 := { o with taken := true, lts := max o.lts c.lts }
        let s1 := (s.modCtrOp slot id fun _ => o1).served r place
        if s.lateOp r o then s1.takeLate r (.op slot o1)
        else
          let s2 := s1.serveCtr slot c o1
          match o.kind with
          | .wait => if r = .peer then s2 else s2.dropCtrOp slot id
          | _ => s2

/-- COUNTER_HOME_ADD (R79, R80, R86). -/
def execCounterHomeAdd (slot id : Nat) (s : State) : Result :=
  .next (s.takeCtr slot id fun k => match k with | .add _ | .addr _ => true | _ => false)

/-- COUNTER_HOME_ALLOC (R76). -/
def execCounterHomeAlloc (slot id : Nat) (s : State) : Result :=
  .next (s.takeCtr slot id fun k => match k with | .alloc _ => true | _ => false)

/-- COUNTER_HOME_FREE (R78). -/
def execCounterHomeFree (slot id : Nat) (s : State) : Result :=
  .next (s.takeCtr slot id fun k => match k with | .free => true | _ => false)

/-- COUNTER_HOME_READ (R83). -/
def execCounterHomeRead (slot id : Nat) (s : State) : Result :=
  .next (s.takeCtr slot id fun k => match k with | .read | .test => true | _ => false)

/-- COUNTER_WAITER_REGISTER (R84, R88). -/
def execCounterWaiterRegister (slot id : Nat) (s : State) : Result :=
  .next (s.takeCtr slot id fun k => match k with | .wait => true | _ => false)

/-- The slot of the resident crew that holds an operation, which may have been restored elsewhere (R55). -/
def State.opSlot (s : State) (hint op : Nat) : Nat :=
  if ((s.crew? hint).bind fun c => c.ctrOp? op).isSome then hint
  else ((s.crews.find? fun e => (e.2.ctrOp? op).isSome).map (·.1)).getD hint

/-- An operation by number, with its crew and the slot it issued from: resident, or saved with its crew (R53). -/
def State.findOp (s : State) (hint op : Nat) : Option (Nat × Crew × CtrOp) :=
  let slot := s.opSlot hint op
  match (s.crew? slot).bind fun c => (c.ctrOp? op).map fun o => (c, o) with
  | some (c, o) => some (slot, c, o)
  | none =>
    s.rm.saved.findSome? fun v => v.crews.findSome? fun w => (w.crew.ctrOp? op).map fun o => (w.oldSlot, w.crew, o)

/-- The report of an add of no crew that its home drops or that saturates (R81, R91, R95, R96). -/
def State.reportAdd (s : State) (source : AddSource) (h : DWord) (stale : Bool) : State :=
  match source with
  | .engine slot => s.modCrew slot fun c => c.setEfault ⟨if stale then codeEngstale else codeCovf, h, 0⟩
  | .logged n ctx => s.event n 16 ctx (bytesOf 8 h.toNat)
  | .peer => s.emit (.peerReply (if stale then codeCstale else codeCovf).toNat)

/-- An operation of another module served at this module's engine (R96): its answer, or the fault at the remote home. -/
def State.servePeerOp (s : State) (r : HomeRef) (op : PeerOp) (h : DWord) (id : Nat) : State :=
  let answer (s : State) (value lts : Nat) : State := s.emit (.peerAnswer id 0 value lts)
  let k := (s.home r).ctr (handleIndex h)
  if (s.home r).stale h then s.emit (.peerAnswer id codeCstale.toNat 0 0)
  else
    match op with
    | .addr i =>
      let q := s.applyAdd r h i.toNat 0
      q.2.2.emit (.peerAnswer id (if q.2.1 then codeCovf.toNat else 0) q.1 0)
    | .free => answer (s.applyFree r h) 0 0
    | .read => answer s k.value k.lts
    | .test thr => if thr.toNat ≤ k.value then answer s 1 k.lts else answer s 0 0
    | .wait thr => if thr.toNat ≤ k.value then answer s 0 k.lts else (s.register r h thr.toNat (.peer id)).2

/-- An operation on an overflow counter applied (R87). -/
def State.applyLate (s : State) (die : Nat) : LateCtr → State
  | .op slot0 o =>
    let found := s.findOp slot0 o.id
    let slot := (found.map fun f => f.1).getD slot0
    match found.map (fun f => f.2.1) with
    | some c =>
      let s1 := s.serveCtr slot c o
      match o.kind with
      | .wait => s1.dropCtrOp slot o.id
      | _ => s1
    | none =>
      if (s.home (.die die)).stale o.handle then s
      else
        match o.kind with
        | .add i | .addr i => (s.applyAdd (.die die) o.handle i.toNat o.lts).2.2
        | .free => s.applyFree (.die die) o.handle
        | .alloc _ | .read | .test | .wait => s
  | .add source h inc lts =>
    if (s.home (.die die)).stale h then s.reportAdd source h true
    else
      let q := s.applyAdd (.die die) h inc lts
      if q.2.1 then q.2.2.reportAdd source h false
      else if source = .peer then q.2.2.emit (.peerReply 0) else q.2.2
  | .peer op h id => s.servePeerOp (.die die) op h id

/-- OVERFLOW_COUNTER_APPLY (R87): the oldest operation that a die's engine has taken, once it is due. -/
def execOverflowCounterApply (die : Nat) (s : State) : Result :=
  let d := s.die die
  match d.overflow with
  | [] => .next s
  | v :: rest => if s.cycle < v.due then .next s else .next ((s.setDie die { d with overflow := rest }).applyLate die v.late)

/-- A message removed. -/
def State.dropMsg (s : State) (id : Nat) : State := { s with msgs := Cells.erase s.msgs id }

/-- COUNTER_WAKE (R35, R84, R87). -/
def execCounterWake (id : Nat) (s : State) : Result :=
  match Cells.find s.msgs id with
  | some (.wake op lts stale) => .next ((s.dropMsg id).wakeOp op lts stale)
  | _ => .next s

/-- Bytes written to a destination in a lane: a value of so many bytes, zero- or sign-extended (R58, R210);
thread registers are tagged P (R69). -/
def Crew.deliver (c : Crew) (lane : Nat) (d : Dest) (bytes : List Byte) : Crew :=
  match d with
  | .regs es signed =>
    let v := natOf bytes
    let n := 8 * bytes.length
    let wide : BitVec 128 := if signed then (BitVec.ofInt 128 (BitVec.ofNat n v).toInt) else BitVec.ofNat 128 v
    let t := (mapFrom (fun i (e : Nat) => (e, wide.extractLsb' (32 * i) 32)) 0 es).foldl
      (fun (t : Thread) (p : Nat × Word) => t.put p.1 p.2) (c.thread lane)
    (c.setThread lane t).tagP es
  | .kreg k wide => c.setKreg k (BitVec.ofNat 64 (if wide then natOf bytes else natOf (bytes.take 4)))
  | .pred p => c.modThread lane fun t => t.setPred p (natOf bytes != 0)
  | .step id => c.stepGets id lane (.bytes bytes)
  | .discard => c

/-- A fault found after its instruction issued, on lanes that have not exited (R196): with the instruction's own
PC and cycle, and each lane's own hints (R132). -/
def State.lateFaults (s : State) (slot : Nat) (lanes : List (Nat × Hints)) (t : Trap) (pc : Word) (issued : Nat) : State :=
  lanes.foldl (init := s) fun s l =>
    match s.crew? slot with
    | none => s
    | some c => if (c.thread l.1).st = .exited then s else s.takeFault slot l.1 t pc l.2 issued

/-- A change to every saved crew (R53, R307). -/
def State.modSaved (s : State) (f : Crew → Crew) : State :=
  { s with rm := { s.rm with saved := s.rm.saved.map fun (v : SavedCore) =>
      { v with crews := v.crews.map fun (w : SavedCrew) => { w with crew := f w.crew } } } }

/-- An answer to a CADD or CFREE of a crew that has been saved meanwhile, credited to its image (R53, R441). -/
def Crew.credit (c : Crew) (op : Nat) (r : CtrResult) : Crew :=
  match c.ctrOp? op with
  | none => c
  | some o =>
    let c1 := { c with ctrOps := c.ctrOps.filter fun p => p.id != op }
    match r with
    | .fault code ext _ => c1.setEfault ⟨code, o.handle, ext⟩
    | _ => c1

/-- COUNTER_ANSWER (R77, R80, R83, R96, R441): a result into its destination with acquire, a fault on the
presenting lanes, or, for CADD and CFREE, the crew's pending engine fault. -/
def execCounterAnswer (id : Nat) (s : State) : Result :=
  match Cells.find s.msgs id with
  | some (.answer slot0 op r) =>
    let s1 := s.dropMsg id
    let slot := s1.opSlot slot0 op
    match s1.crew? slot with
    | none => .next (s1.modSaved fun c => c.credit op r)
    | some c =>
      match c.ctrOp? op with
      | none => .next (s1.modSaved fun c => c.credit op r)
      | some o =>
        let c1 := { c with ctrOps := c.ctrOps.filter fun p => p.id != op }
        let s2 := s1.setCrew slot c1
        match r with
        | .ok v lts =>
          match o.kind with
          | .wait => .next (s2.wakeOp op lts false)
          | _ =>
            let c2 := c1.deliver (o.lanes.headD 0) o.dest (bytesOf 8 v)
            .next (s2.setCrew slot { c2 with lts := max c2.lts lts })
        | .blocked => .next s2
        | .fault code ext old =>
          let t : Trap := { code := code, addr := o.handle, ext := ext }
          match o.kind with
          | .add _ | .free => .next (s2.setCrew slot (c1.setEfault ⟨code, o.handle, ext⟩))
          | .wait =>
            let lanes := c1.waitLanes op
            .next ((s2.setCrew slot (c1.unblock op)).lateFaults slot (o.hints.filter fun h => lanes.contains h.1) t o.pc o.cycle)
          | _ =>
            let c2 := match old with
              | some v => c1.deliver (o.lanes.headD 0) o.dest (bytesOf 8 v)
              | none => c1
            .next ((s2.setCrew slot c2).lateFaults slot o.hints t o.pc o.cycle)
  | _ => .next s

/-- Whether an operation taken and not yet applied is a wait of a number. -/
def LateCtr.waits (op : Nat) : LateCtr → Bool
  | .op _ o => o.id == op && o.kind == .wait
  | _ => false

/-- A wait taken out of every home once no lane waits for it (R85). -/
def State.unregister (s : State) (op : Nat) : State :=
  match s.waitingSlot op with
  | some _ => s
  | none =>
    let drop (h : CtrHome) : CtrHome := { h with waiters := h.waiters.filter fun w => w.who != .lanes op }
    { s with
      crews := s.crews.map fun (e : Nat × Crew) =>
        (e.1, { e.2 with ctrs := drop e.2.ctrs, ctrOps := e.2.ctrOps.filter fun o => o.id != op })
      cores := s.cores.map fun (e : Nat × Core) => (e.1, { e.2 with ctrs := drop e.2.ctrs })
      clusters := s.clusters.map fun (e : Nat × Cluster) => (e.1, { e.2 with ctrs := drop e.2.ctrs })
      dies := s.dies.map fun (e : Nat × Die) =>
        (e.1, { e.2 with ctrs := drop e.2.ctrs, overflow := e.2.overflow.filter fun v => !v.late.waits op }) }

/-- Whether a wake for a wait is on its way. -/
def State.wakeComing (s : State) (op : Nat) : Bool :=
  s.msgs.any fun m => match m.2 with
    | .wake o _ false => o == op
    | _ => false

/-- CWAIT_TIMEOUT (R85): a wake that arrives in the c of the expiry wins. -/
def execCwaitTimeout (slot lane : Nat) (s : State) : Result :=
  match s.crew? slot with
  | none => .next s
  | some c =>
    match (c.thread lane).st with
    | .waitCounter w =>
      match w.expiry with
      | some x =>
        if s.cycle < x ∨ (s.cycle = x ∧ s.wakeComing w.op) then .next s
        else .next ((s.setCrew slot (c.modThread lane fun t => t.wakeUp w false)).unregister w.op)
      | none => .next s
    | _ => .next s

/-- POLLER_RECHECK (R78, R88). -/
def execPollerRecheck (slot lane : Nat) (s : State) : Result :=
  match s.crew? slot with
  | none => .next s
  | some c =>
    match (c.thread lane).st with
    | .waitCounter w =>
      match w.poller with
      | some due =>
        if due ≤ s.cycle then
          let r := (s.reach slot c w.handle).getD .peer
          let h := s.home r
          let k := h.ctr (handleIndex w.handle)
          if h.stale w.handle then .next (s.wakeOp w.op 0 true)
          else if w.threshold.toNat ≤ k.value then .next (s.wakeOp w.op k.lts false)
          else
            .next (s.modCrew slot fun c => c.modLanes (c.waitLanes w.op) fun _ t => t.pollAt (due + 256))
        else .next s
      | none => .next s
    | _ => .next s

/-- LTS_TICK (R279). -/
def execLtsTick (s : State) : Result :=
  if s.cycle / 256 ≤ s.ticks then .next s
  else .next { s with ticks := s.ticks + 1, crews := s.crews.map fun (e : Nat × Crew) => (e.1, { e.2 with lts := e.2.lts + 1 }) }

end Sys2Proof.Machine
end

