-- ==== Sys2Proof/Machine/Integer.lean ====
section
/-! DEFINITION. Integer and address arithmetic, comparisons, moves and predicate logic (R168 to R175). -/

namespace Sys2Proof.Machine

/-- An exact sum or difference clamped to the signed or unsigned range of n bits under SAT (R98, R168). -/
def clampTo (n : Nat) (signed : Bool) (v : Int) : Nat :=
  let lo : Int := if signed then -(2 ^ (n - 1) : Nat) else 0
  let hi : Int := if signed then (2 ^ (n - 1) : Nat) - 1 else (2 ^ n : Nat) - 1
  let c := if v < lo then lo else if hi < v then hi else v
  (c % (2 ^ n : Nat)).toNat

/-- An operand as an exact integer. -/
def asInt {n : Nat} (signed : Bool) (v : BitVec n) : Int := if signed then v.toInt else v.toNat

/-- ADD and SUB (R168): wrap, or clamp when SAT is pending. -/
def addSub {n : Nat} (signed sub : Bool) (t : Thread) (a b : BitVec n) : BitVec n :=
  if t.sat then
    BitVec.ofNat n (clampTo n signed (if sub then asInt signed a - asInt signed b else asInt signed a + asInt signed b))
  else if sub then a - b else a + b

/-- Rotate right (R168). -/
def rotr {n : Nat} (a : BitVec n) (k : Nat) : BitVec n := a.rotateRight k

/-- Signed and unsigned minimum and maximum (R168). -/
def minS {n : Nat} (a b : BitVec n) : BitVec n := if b.slt a then b else a
def maxS {n : Nat} (a b : BitVec n) : BitVec n := if a.slt b then b else a
def minU {n : Nat} (a b : BitVec n) : BitVec n := if b.ult a then b else a
def maxU {n : Nat} (a b : BitVec n) : BitVec n := if a.ult b then b else a

/-- Leading zero bits of a 32-bit value (R170). -/
def clz32 (a : Word) : Word := if a = 0 then 32 else BitVec.ofNat 32 (31 - Nat.log2 a.toNat)

/-- Number of one bits in the low n bits of a number (R170). -/
def popcount (v : Nat) : Nat → Nat
  | 0 => 0
  | n + 1 => v % 2 + popcount (v / 2) n

/-- The low n bits of a number in reverse order (R124, R170). -/
def bitrev (v : Nat) : Nat → Nat
  | 0 => 0
  | n + 1 => v % 2 * 2 ^ n + bitrev (v / 2) n

/-- divide of R98: quotient and remainder. -/
def divide {n : Nat} (signed : Bool) (a b : BitVec n) : BitVec n × BitVec n :=
  if b = 0 then (BitVec.allOnes n, a)
  else if signed then
    if a = BitVec.intMin n ∧ b = BitVec.allOnes n then (BitVec.intMin n, 0) else (a.sdiv b, a.srem b)
  else (a / b, a % b)

/-- The field that BFX and BFI take from b (R171): position and length. -/
def bitField (b : Word) : Nat × Nat :=
  let pos := field b.toNat 0 5
  let len := if field b.toNat 8 5 = 0 then 32 else field b.toNat 8 5
  (pos, min len (32 - pos))

/-- BFX (R171). -/
def bfxOf (a b : Word) : Word :=
  let p := bitField b
  let f := a.toNat / 2 ^ p.1 % 2 ^ p.2
  if b.getLsbD 16 ∧ f.testBit (p.2 - 1) then BitVec.ofInt 32 ((f : Int) - (2 ^ p.2 : Nat)) else BitVec.ofNat 32 f

/-- BFI (R171). -/
def bfiOf (d a b : Word) : Word :=
  let p := bitField b
  let mask := BitVec.ofNat 32 (2 ^ p.2 - 1)
  (d &&& ~~~(mask <<< p.1)) ||| ((a &&& mask) <<< p.1)

/-- The condition codes of ICMP (R173). -/
def icmpOf {n : Nat} (cc : BitVec 3) (a b : BitVec n) : Bool :=
  match cc.toNat with
  | 0 => a == b
  | 1 => a != b
  | 2 => a.slt b
  | 3 => !a.slt b
  | 4 => a.ult b
  | 5 => !a.ult b
  | 6 => !b.slt a
  | _ => b.slt a

/-- A 32-bit result as a register word's value. -/
def lo32 (v : Word) : DWord := v.setWidth 64

/-- ADD_I32 (R168). -/
def execAddI32 (g : Guard) (d a b : Reg) (s : State) : Result :=
  s.regWord (.addI32 g d a b) noImmx g d false 1 true fun c _ t =>
    lo32 (addSub true false t (c.read32 t a) (c.read32 t b))

/-- SUB_I32 (R168). -/
def execSubI32 (g : Guard) (d a b : Reg) (s : State) : Result :=
  s.regWord (.subI32 g d a b) noImmx g d false 1 true fun c _ t =>
    lo32 (addSub true true t (c.read32 t a) (c.read32 t b))

/-- ADD_N32 (R168). -/
def execAddN32 (g : Guard) (d a b : Reg) (s : State) : Result :=
  s.regWord (.addN32 g d a b) noImmx g d false 1 true fun c _ t =>
    lo32 (addSub false false t (c.read32 t a) (c.read32 t b))

/-- SUB_N32 (R168). -/
def execSubN32 (g : Guard) (d a b : Reg) (s : State) : Result :=
  s.regWord (.subN32 g d a b) noImmx g d false 1 true fun c _ t =>
    lo32 (addSub false true t (c.read32 t a) (c.read32 t b))

/-- AND_32 (R168). -/
def execAnd32 (g : Guard) (d a b : Reg) (s : State) : Result :=
  s.regWord (.and32 g d a b) noImmx g d false 1 true fun c _ t =>
    lo32 ((c.read32 t a) &&& (c.read32 t b))

/-- OR_32 (R168). -/
def execOr32 (g : Guard) (d a b : Reg) (s : State) : Result :=
  s.regWord (.or32 g d a b) noImmx g d false 1 true fun c _ t =>
    lo32 ((c.read32 t a) ||| (c.read32 t b))

/-- XOR_32 (R168). -/
def execXor32 (g : Guard) (d a b : Reg) (s : State) : Result :=
  s.regWord (.xor32 g d a b) noImmx g d false 1 true fun c _ t =>
    lo32 ((c.read32 t a) ^^^ (c.read32 t b))

/-- SHL_32 (R168). -/
def execShl32 (g : Guard) (d a b : Reg) (s : State) : Result :=
  s.regWord (.shl32 g d a b) noImmx g d false 1 true fun c _ t =>
    lo32 ((c.read32 t a) <<< ((c.read32 t b).toNat % 32))

/-- SHR_32 (R168). -/
def execShr32 (g : Guard) (d a b : Reg) (s : State) : Result :=
  s.regWord (.shr32 g d a b) noImmx g d false 1 true fun c _ t =>
    lo32 ((c.read32 t a) >>> ((c.read32 t b).toNat % 32))

/-- SHA_32 (R168). -/
def execSha32 (g : Guard) (d a b : Reg) (s : State) : Result :=
  s.regWord (.sha32 g d a b) noImmx g d false 1 true fun c _ t =>
    lo32 ((c.read32 t a).sshiftRight ((c.read32 t b).toNat % 32))

/-- ROT_32 (R168). -/
def execRot32 (g : Guard) (d a b : Reg) (s : State) : Result :=
  s.regWord (.rot32 g d a b) noImmx g d false 1 true fun c _ t =>
    lo32 (rotr (c.read32 t a) ((c.read32 t b).toNat % 32))

/-- MIN_32 (R168). -/
def execMin32 (g : Guard) (d a b : Reg) (s : State) : Result :=
  s.regWord (.min32 g d a b) noImmx g d false 1 true fun c _ t =>
    lo32 (minS (c.read32 t a) (c.read32 t b))

/-- MAX_32 (R168). -/
def execMax32 (g : Guard) (d a b : Reg) (s : State) : Result :=
  s.regWord (.max32 g d a b) noImmx g d false 1 true fun c _ t =>
    lo32 (maxS (c.read32 t a) (c.read32 t b))

/-- MINU_32 (R168). -/
def execMinu32 (g : Guard) (d a b : Reg) (s : State) : Result :=
  s.regWord (.minu32 g d a b) noImmx g d false 1 true fun c _ t =>
    lo32 (minU (c.read32 t a) (c.read32 t b))

/-- MAXU_32 (R168). -/
def execMaxu32 (g : Guard) (d a b : Reg) (s : State) : Result :=
  s.regWord (.maxu32 g d a b) noImmx g d false 1 true fun c _ t =>
    lo32 (maxU (c.read32 t a) (c.read32 t b))

/-- ANDN (R168). -/
def execAndn (g : Guard) (d a b : Reg) (s : State) : Result :=
  s.regWord (.andn g d a b) noImmx g d false 1 true fun c _ t =>
    lo32 ((c.read32 t a) &&& ~~~(c.read32 t b))

/-- ADD with an immediate (R154, R169): the immediate is imm10, or the 32-bit value of an IMMX; a pending SAT clamps to
the I32 range, both operands read as signed. -/
def execAddImm (g : Guard) (d a : Reg) (i : BitVec 10) (s : State) : Result :=
  s.regWord (.addImm g d a i) anyImmx g d false 1 true fun c _ t =>
    lo32 (addSub true false t (c.read32 t a) (t.imm10 i))

/-- ADD_I64 (R168). -/
def execAddI64 (g : Guard) (d a b : Reg) (s : State) : Result :=
  s.regWord (.addI64 g d a b) noImmx g d true 1 true fun c _ t =>
    addSub true false t (c.read64 t a) (c.read64 t b)

/-- SUB_I64 (R168). -/
def execSubI64 (g : Guard) (d a b : Reg) (s : State) : Result :=
  s.regWord (.subI64 g d a b) noImmx g d true 1 true fun c _ t =>
    addSub true true t (c.read64 t a) (c.read64 t b)

/-- ADD_N64 (R168). -/
def execAddN64 (g : Guard) (d a b : Reg) (s : State) : Result :=
  s.regWord (.addN64 g d a b) noImmx g d true 1 true fun c _ t =>
    addSub false false t (c.read64 t a) (c.read64 t b)

/-- SUB_N64 (R168). -/
def execSubN64 (g : Guard) (d a b : Reg) (s : State) : Result :=
  s.regWord (.subN64 g d a b) noImmx g d true 1 true fun c _ t =>
    addSub false true t (c.read64 t a) (c.read64 t b)

/-- AND_64 (R168). -/
def execAnd64 (g : Guard) (d a b : Reg) (s : State) : Result :=
  s.regWord (.and64 g d a b) noImmx g d true 1 true fun c _ t =>
    (c.read64 t a) &&& (c.read64 t b)

/-- OR_64 (R168). -/
def execOr64 (g : Guard) (d a b : Reg) (s : State) : Result :=
  s.regWord (.or64 g d a b) noImmx g d true 1 true fun c _ t =>
    (c.read64 t a) ||| (c.read64 t b)

/-- XOR_64 (R168). -/
def execXor64 (g : Guard) (d a b : Reg) (s : State) : Result :=
  s.regWord (.xor64 g d a b) noImmx g d true 1 true fun c _ t =>
    (c.read64 t a) ^^^ (c.read64 t b)

/-- SHL_64 (R168). -/
def execShl64 (g : Guard) (d a b : Reg) (s : State) : Result :=
  s.regWord (.shl64 g d a b) noImmx g d true 1 true fun c _ t =>
    (c.read64 t a) <<< ((c.read64 t b).toNat % 64)

/-- SHR_64 (R168). -/
def execShr64 (g : Guard) (d a b : Reg) (s : State) : Result :=
  s.regWord (.shr64 g d a b) noImmx g d true 1 true fun c _ t =>
    (c.read64 t a) >>> ((c.read64 t b).toNat % 64)

/-- SHA_64 (R168). -/
def execSha64 (g : Guard) (d a b : Reg) (s : State) : Result :=
  s.regWord (.sha64 g d a b) noImmx g d true 1 true fun c _ t =>
    (c.read64 t a).sshiftRight ((c.read64 t b).toNat % 64)

/-- ROT_64 (R168). -/
def execRot64 (g : Guard) (d a b : Reg) (s : State) : Result :=
  s.regWord (.rot64 g d a b) noImmx g d true 1 true fun c _ t =>
    rotr (c.read64 t a) ((c.read64 t b).toNat % 64)

/-- MIN_64 (R168). -/
def execMin64 (g : Guard) (d a b : Reg) (s : State) : Result :=
  s.regWord (.min64 g d a b) noImmx g d true 1 true fun c _ t =>
    minS (c.read64 t a) (c.read64 t b)

/-- MAX_64 (R168). -/
def execMax64 (g : Guard) (d a b : Reg) (s : State) : Result :=
  s.regWord (.max64 g d a b) noImmx g d true 1 true fun c _ t =>
    maxS (c.read64 t a) (c.read64 t b)

/-- MINU_64 (R168). -/
def execMinu64 (g : Guard) (d a b : Reg) (s : State) : Result :=
  s.regWord (.minu64 g d a b) noImmx g d true 1 true fun c _ t =>
    minU (c.read64 t a) (c.read64 t b)

/-- MAXU_64 (R168). -/
def execMaxu64 (g : Guard) (d a b : Reg) (s : State) : Result :=
  s.regWord (.maxu64 g d a b) noImmx g d true 1 true fun c _ t =>
    maxU (c.read64 t a) (c.read64 t b)

/-- MULLO_64 (R168). -/
def execMullo64 (g : Guard) (d a b : Reg) (s : State) : Result :=
  s.regWord (.mullo64 g d a b) noImmx g d true 1 true fun c _ t =>
    (c.read64 t a) * (c.read64 t b)

/-- MOV (R170). -/
def execMov (g : Guard) (x y : Reg) (s : State) : Result :=
  s.regWord (.mov g x y) noImmx g x false 1 true fun c _ t =>
    lo32 ((c.read32 t y))

/-- CLZ (R170). -/
def execClz (g : Guard) (x y : Reg) (s : State) : Result :=
  s.regWord (.clz g x y) noImmx g x false 1 true fun c _ t =>
    lo32 (clz32 (c.read32 t y))

/-- POPC (R170). -/
def execPopc (g : Guard) (x y : Reg) (s : State) : Result :=
  s.regWord (.popc g x y) noImmx g x false 1 true fun c _ t =>
    lo32 (BitVec.ofNat 32 (popcount (c.read32 t y).toNat 32))

/-- BREV (R170). -/
def execBrev (g : Guard) (x y : Reg) (s : State) : Result :=
  s.regWord (.brev g x y) noImmx g x false 1 true fun c _ t =>
    lo32 (BitVec.ofNat 32 (bitrev (c.read32 t y).toNat 32))

/-- ABS (R170). -/
def execAbs (g : Guard) (x y : Reg) (s : State) : Result :=
  s.regWord (.abs g x y) noImmx g x false 1 true fun c _ t =>
    lo32 (if (c.read32 t y).msb then -(c.read32 t y) else (c.read32 t y))

/-- SHL_32_IMM (R170). -/
def execShl32Imm (g : Guard) (x y : Reg) (m : BitVec 5) (s : State) : Result :=
  s.regWord (.shl32Imm g x y m) noImmx g x false 1 true fun c _ t =>
    lo32 ((c.read32 t y) <<< m.toNat)

/-- SHR_32_IMM (R170). -/
def execShr32Imm (g : Guard) (x y : Reg) (m : BitVec 5) (s : State) : Result :=
  s.regWord (.shr32Imm g x y m) noImmx g x false 1 true fun c _ t =>
    lo32 ((c.read32 t y) >>> m.toNat)

/-- SHA_32_IMM (R170). -/
def execSha32Imm (g : Guard) (x y : Reg) (m : BitVec 5) (s : State) : Result :=
  s.regWord (.sha32Imm g x y m) noImmx g x false 1 true fun c _ t =>
    lo32 ((c.read32 t y).sshiftRight m.toNat)

/-- ROT_32_IMM (R170). -/
def execRot32Imm (g : Guard) (x y : Reg) (m : BitVec 5) (s : State) : Result :=
  s.regWord (.rot32Imm g x y m) noImmx g x false 1 true fun c _ t =>
    lo32 (rotr (c.read32 t y) m.toNat)

/-- MOV_64 (R170). -/
def execMov64 (g : Guard) (x y : Reg) (s : State) : Result :=
  s.regWord (.mov64 g x y) noImmx g x true 1 true fun c _ t =>
    (c.read64 t y)

/-- SHL_64_IMM (R170). -/
def execShl64Imm (g : Guard) (x y : Reg) (m : BitVec 6) (s : State) : Result :=
  s.regWord (.shl64Imm g x y m) noImmx g x true 1 true fun c _ t =>
    (c.read64 t y) <<< m.toNat

/-- SHR_64_IMM (R170). -/
def execShr64Imm (g : Guard) (x y : Reg) (m : BitVec 6) (s : State) : Result :=
  s.regWord (.shr64Imm g x y m) noImmx g x true 1 true fun c _ t =>
    (c.read64 t y) >>> m.toNat

/-- SHA_64_IMM (R170). -/
def execSha64Imm (g : Guard) (x y : Reg) (m : BitVec 6) (s : State) : Result :=
  s.regWord (.sha64Imm g x y m) noImmx g x true 1 true fun c _ t =>
    (c.read64 t y).sshiftRight m.toNat

/-- ROT_64_IMM (R170). -/
def execRot64Imm (g : Guard) (x y : Reg) (m : BitVec 6) (s : State) : Result :=
  s.regWord (.rot64Imm g x y m) noImmx g x true 1 true fun c _ t =>
    rotr (c.read64 t y) m.toNat

/-- MULLO (R171). -/
def execMullo (g : Guard) (d a b : Reg) (s : State) : Result :=
  s.regWord (.mullo g d a b) noImmx g d false 1 true fun c _ t =>
    lo32 ((c.read32 t a) * (c.read32 t b))

/-- MULHI (R171). -/
def execMulhi (g : Guard) (d a b : Reg) (s : State) : Result :=
  s.regWord (.mulhi g d a b) noImmx g d false 1 true fun c _ t =>
    lo32 (BitVec.ofInt 32 ((c.read32 t a).toInt * (c.read32 t b).toInt / 2 ^ 32))

/-- MULHU (R171). -/
def execMulhu (g : Guard) (d a b : Reg) (s : State) : Result :=
  s.regWord (.mulhu g d a b) noImmx g d false 1 true fun c _ t =>
    lo32 (BitVec.ofNat 32 ((c.read32 t a).toNat * (c.read32 t b).toNat / 2 ^ 32))

/-- MAD (R171). -/
def execMad (g : Guard) (d a b : Reg) (s : State) : Result :=
  s.regWord (.mad g d a b) noImmx g d false 1 true fun c _ t =>
    lo32 ((c.read32 t a) * (c.read32 t b) + c.read32 t d)

/-- MAD_WIDE (R171). -/
def execMadWide (g : Guard) (d a b : Reg) (s : State) : Result :=
  s.regWord (.madWide g d a b) noImmx g d true 1 true fun c _ t =>
    (c.read32 t a).signExtend 64 * (c.read32 t b).signExtend 64 + c.read64 t d

/-- LEA (R171). -/
def execLea (g : Guard) (d a b : Reg) (s : State) : Result :=
  s.regWord (.lea g d a b) noImmx g d true 1 true fun c _ t =>
    (c.read64 t a) + (c.read32 t b).signExtend 64

/-- BFX (R171). -/
def execBfx (g : Guard) (d a b : Reg) (s : State) : Result :=
  s.regWord (.bfx g d a b) noImmx g d false 1 true fun c _ t =>
    lo32 (bfxOf (c.read32 t a) (c.read32 t b))

/-- BFI (R171). -/
def execBfi (g : Guard) (d a b : Reg) (s : State) : Result :=
  s.regWord (.bfi g d a b) noImmx g d false 1 true fun c _ t =>
    lo32 (bfiOf (c.read32 t d) (c.read32 t a) (c.read32 t b))

/-- SEL (R171). -/
def execSel (g : Guard) (d a b : Reg) (n : BitVec 3) (s : State) : Result :=
  s.regWord (.sel g d a b n) noImmx g d false 1 false fun c _ t =>
    lo32 (if t.pred n.toNat then (c.read32 t a) else (c.read32 t b))

/-- DIV (R98, R172). -/
def execDiv (g : Guard) (d a b : Reg) (s : State) : Result :=
  s.regWord (.div g d a b) noImmx g d false 4 true fun c _ t =>
    lo32 (divide true (c.read32 t a) (c.read32 t b)).1

/-- DIV_64 (R98, R172). -/
def execDiv64 (g : Guard) (d a b : Reg) (s : State) : Result :=
  s.regWord (.div64 g d a b) noImmx g d true 4 true fun c _ t =>
    (divide true (c.read64 t a) (c.read64 t b)).1

/-- DIVU (R98, R172). -/
def execDivu (g : Guard) (d a b : Reg) (s : State) : Result :=
  s.regWord (.divu g d a b) noImmx g d false 4 true fun c _ t =>
    lo32 (divide false (c.read32 t a) (c.read32 t b)).1

/-- DIVU_64 (R98, R172). -/
def execDivu64 (g : Guard) (d a b : Reg) (s : State) : Result :=
  s.regWord (.divu64 g d a b) noImmx g d true 4 true fun c _ t =>
    (divide false (c.read64 t a) (c.read64 t b)).1

/-- REM (R98, R172). -/
def execRem (g : Guard) (d a b : Reg) (s : State) : Result :=
  s.regWord (.rem g d a b) noImmx g d false 4 true fun c _ t =>
    lo32 (divide true (c.read32 t a) (c.read32 t b)).2

/-- REM_64 (R98, R172). -/
def execRem64 (g : Guard) (d a b : Reg) (s : State) : Result :=
  s.regWord (.rem64 g d a b) noImmx g d true 4 true fun c _ t =>
    (divide true (c.read64 t a) (c.read64 t b)).2

/-- REMU (R98, R172). -/
def execRemu (g : Guard) (d a b : Reg) (s : State) : Result :=
  s.regWord (.remu g d a b) noImmx g d false 4 true fun c _ t =>
    lo32 (divide false (c.read32 t a) (c.read32 t b)).2

/-- REMU_64 (R98, R172). -/
def execRemu64 (g : Guard) (d a b : Reg) (s : State) : Result :=
  s.regWord (.remu64 g d a b) noImmx g d true 4 true fun c _ t =>
    (divide false (c.read64 t a) (c.read64 t b)).2

/-- ICMP, register form (R173). A write to %p0 is discarded. -/
def execIcmpReg (g : Guard) (x y : Reg) (cc : BitVec 3) (w : BitVec 1) (p : BitVec 3) (s : State) : Result :=
  s.predWord (.icmpReg g x y cc w p) g p.toNat 1 true fun c _ t =>
    (if w = 1 then icmpOf cc (c.read64 t x) (c.read64 t y) else icmpOf cc (c.read32 t x) (c.read32 t y), 0)

/-- ICMP, immediate form (R173): IMM5 is zero-extended for CC 4 and 5 and sign-extended otherwise. -/
def execIcmpImm (g : Guard) (x : Reg) (y cc : BitVec 3) (w : BitVec 1) (i : BitVec 5) (s : State) : Result :=
  s.predWord (.icmpImm g x y cc w i) g y.toNat 1 true fun c _ t =>
    let unsigned := cc = 4 ∨ cc = 5
    (if w = 1 then icmpOf cc (c.read64 t x) (if unsigned then i.setWidth 64 else i.signExtend 64)
     else icmpOf cc (c.read32 t x) (if unsigned then i.setWidth 32 else i.signExtend 32), 0)

/-- MOVI (R155, R174): imm16 sign-extended, or the 32-bit value of an IMMX. -/
def execMovi (g : Guard) (d : Reg) (i : BitVec 16) (s : State) : Result :=
  s.regWord (.movi g d i) wideImmx g d false 1 true fun _ _ t =>
    lo32 (t.imm16 i)

/-- MOVHI (R155, R174): bits [63:32] of a pair or %k written, the lower half kept; field 0 is discarded (R57). -/
def execMovhi (g : Guard) (d : Reg) (i : BitVec 16) (s : State) : Result :=
  if 48 ≤ d.toNat then
    s.regWord (.movhi g d i) wideImmx g d true 1 true fun c _ t => t.imm16 i ++ (c.read64 t d).setWidth 32
  else
    s.regWord (.movhi g d i) wideImmx g (if d = 0 then 0 else d + 1) false 1 true fun _ _ t => lo32 (t.imm16 i)

/-- PAND (R175). A write to %p0 is discarded. -/
def execPand (g : Guard) (d a b : BitVec 3) (s : State) : Result :=
  s.predWord (.pand g d a b) g d.toNat 1 false fun _ _ t => (t.pred a.toNat && t.pred b.toNat, 0)

/-- POR (R175). A write to %p0 is discarded. -/
def execPor (g : Guard) (d a b : BitVec 3) (s : State) : Result :=
  s.predWord (.por g d a b) g d.toNat 1 false fun _ _ t => (t.pred a.toNat || t.pred b.toNat, 0)

/-- PXOR (R175). A write to %p0 is discarded. -/
def execPxor (g : Guard) (d a b : BitVec 3) (s : State) : Result :=
  s.predWord (.pxor g d a b) g d.toNat 1 false fun _ _ t => (t.pred a.toNat != t.pred b.toNat, 0)

/-- PNOT (R175). A write to %p0 is discarded. -/
def execPnot (g : Guard) (d a : BitVec 3) (s : State) : Result :=
  s.predWord (.pnot g d a) g d.toNat 1 false fun _ _ t => (!t.pred a.toNat, 0)

/-- PMOV (R175). A write to %p0 is discarded. -/
def execPmov (g : Guard) (d a : BitVec 3) (s : State) : Result :=
  s.predWord (.pmov g d a) g d.toNat 1 false fun _ _ t => (t.pred a.toNat, 0)

end Sys2Proof.Machine
end

