-- ==== Sys2Proof/Machine/Streams.lean ====
section
/-! DEFINITION. Stochastic streams: the checks and queueing of stream words at issue (R256 to R262, R318), and
what the engine does when it starts an operation (R123 to R126, R257, R263 to R271). -/

namespace Sys2Proof.Machine

/-! ## At issue -/

/-- The subcore's copy of a stream register: its tag and EMPTY flag as they will be (R318). -/
def Crew.sview (c : Crew) (r : Nat) : BitVec 16 × Bool := c.scopy.getD r (0, true)

/-- %TRAPADDR of a stream fault (R261 table 3). -/
def streamAddr (tagX tagY : BitVec 16) (regX regY : Nat) : DWord :=
  BitVec.ofNat 64 (tagX.toNat * 2 ^ 48 + tagY.toNat * 2 ^ 32 + regY % 8 * 16 + regX % 8)

/-- SEMPTY for a register (R261). -/
def semptyTrap (r : Nat) : Trap := { code := codeSempty, addr := streamAddr 0 0 r 0 }

/-- A tag test between two registers: disjoint tags for SCORR, one common single tag for SINDEP (R267). -/
def Crew.scorr (c : Crew) (x y : Nat) : Option Trap :=
  let a := (c.sview x).1
  let b := (c.sview y).1
  if a &&& b ≠ 0 then some { code := codeScorr, addr := streamAddr a b x y } else none
def Crew.sindep (c : Crew) (x y : Nat) : Option Trap :=
  let a := (c.sview x).1
  let b := (c.sview y).1
  if a = b ∧ popcount a.toNat 16 = 1 then none else some { code := codeSindep, addr := streamAddr a b x y }

/-- The checks of R261 in their order: registers granted, sources not empty, the entry's tag test. -/
def Crew.streamFault (c : Crew) (fields sources : List Nat) (test : Crew → Option Trap) : Option Trap :=
  match fields.find? fun r => decide (c.nStreams ≤ r) with
  | some r => some (semptyTrap r)
  | none =>
    match sources.find? fun r => (c.sview r).2 with
    | some r => some (semptyTrap r)
    | none => test c

/-- The lanes a stream result is written in (R260): the run's, and those of exited threads. -/
def Crew.writtenLanes (c : Crew) (lanes : List Nat) : List Nat :=
  (upFrom 0 c.threads.length).filter fun l => lanes.contains l || (c.thread l).st == .exited

/-- The tag rule of R260 on the subcore's copy. -/
def Crew.noteWrite (c : Crew) (d : Nat) (written : List Nat) (tag : BitVec 16) : Crew :=
  let old := (c.sview d).1
  { c with scopy := setAt c.scopy d (if written.length = 64 then tag else old ||| tag, false) }

/-- The frame of a stream word (R259 to R262): its fault is taken by every active lane; otherwise the operation
joins the core's queue with what it read at issue. -/
def State.streamWord (s : State) (i : Instr) (fields sources : List Nat) (test : Crew → Option Trap)
    (note : Crew → List Nat → Crew) (vals : Crew → List DWord) (dest : Option Reg) : Result :=
  s.wordFrame noImmx fun s slot c lanes =>
    match c.streamFault fields sources test with
    | some t => (s.takeFaults slot s.cycle (lanes.map fun l => (l, t))).spend 1
    | none =>
      let exited := c.lanesWith fun t => t.st == .exited
      let dests := match dest with
        | some f => lanes.map fun l => (l, (c.thread l).entry f.toNat)
        | none => []
      let op : StreamOp := ⟨slot, i, lanes, exited, vals c, dests⟩
      if lanes.isEmpty then s.spend 1
      else
        let s1 := s.setCrew slot ((note c (c.writtenLanes lanes)).next lanes)
        (s1.modCore (coreOf slot) fun x => { x with streamq := x.streamq ++ [op] }).spend 1

/-- The test of an instruction without one. -/
def noTest (_ : Crew) : Option Trap := none

/-- The tag of one generator (R264). -/
def genTag (n : Nat) : BitVec 16 := (1 : BitVec 16) <<< n

/-- The field of %wD, D 0 to 7 (R268). -/
def wField (d : BitVec 3) : Reg := 16 + d.setWidth 6

/-- SSEED (R263). -/
def execSseed (n : BitVec 4) (m : BitVec 2) (s : State) : Result :=
  s.streamWord (.sseed n m) [] [] noTest (fun c _ => c) (fun c => [c.kreg 15, c.kreg 14]) none

/-- SGEN (R264). -/
def execSgen (d s' : BitVec 3) (n : BitVec 4) (s : State) : Result :=
  s.streamWord (.sgen d s' n) [d.toNat] [] noTest (fun c w => c.noteWrite d.toNat w (genTag n.toNat))
    (fun c => (upFrom 0 64).map fun l => ((c.read32 (c.thread l) (wField s'))).setWidth 64) none

/-- SGENK (R264). -/
def execSgenk (d s' : BitVec 3) (n : BitVec 4) (s : State) : Result :=
  s.streamWord (.sgenk d s' n) [d.toNat] [] noTest (fun c w => c.noteWrite d.toNat w (genTag n.toNat))
    (fun c => [c.kreg (8 + s'.toNat)]) none

/-- The length that SLEN's C names (R265). -/
def slenOf (l : BitVec 2) : Nat := 128 * 2 ^ l.toNat

/-- SLEN (R257, R265). -/
def execSlen (l : BitVec 2) (s : State) : Result :=
  s.streamWord (.slen l) [] [] noTest
    (fun c w =>
      if w.isEmpty || slenOf l == c.scopyLen then c
      else { c with scopyLen := slenOf l, scopy := c.scopy.map fun _ => (0, true) })
    (fun _ => []) none

/-- A two-source logic word (R267). -/
def State.logicWord (s : State) (i : Instr) (d a b : BitVec 3) (test : Crew → Nat → Nat → Option Trap)
    (tag : BitVec 16 → BitVec 16 → BitVec 16) : Result :=
  s.streamWord i [d.toNat, a.toNat, b.toNat] [a.toNat, b.toNat] (fun c => test c a.toNat b.toNat)
    (fun c w => c.noteWrite d.toNat w (tag (c.sview a.toNat).1 (c.sview b.toNat).1)) (fun _ => []) none

/-- SAND (R267). -/
def execSand (d a b : BitVec 3) (s : State) : Result := s.logicWord (.sand d a b) d a b Crew.scorr (· ||| ·)
/-- SXNOR (R267). -/
def execSxnor (d a b : BitVec 3) (s : State) : Result := s.logicWord (.sxnor d a b) d a b Crew.scorr (· ||| ·)
/-- SOR (R267). -/
def execSor (d a b : BitVec 3) (s : State) : Result := s.logicWord (.sor d a b) d a b (fun _ _ _ => none) (· ||| ·)
/-- SSUB (R267). -/
def execSsub (d a b : BitVec 3) (s : State) : Result := s.logicWord (.ssub d a b) d a b Crew.sindep (fun x _ => x)
/-- SMIN (R267). -/
def execSmin (d a b : BitVec 3) (s : State) : Result := s.logicWord (.smin d a b) d a b Crew.sindep (fun x _ => x)
/-- SMAX (R267). -/
def execSmax (d a b : BitVec 3) (s : State) : Result := s.logicWord (.smax d a b) d a b Crew.sindep (fun x _ => x)

/-- A one-source word whose new tag is its source's (R267, R270). -/
def State.copyWord (s : State) (i : Instr) (d a : BitVec 3) : Result :=
  s.streamWord i [d.toNat, a.toNat] [a.toNat] noTest
    (fun c w => c.noteWrite d.toNat w (c.sview a.toNat).1) (fun _ => []) none

/-- SNOT (R267). -/
def execSnot (d a : BitVec 3) (s : State) : Result := s.copyWord (.snot d a) d a
/-- SMOV (R270). -/
def execSmov (d a : BitVec 3) (s : State) : Result := s.copyWord (.smov d a) d a
/-- SROT (R270). -/
def execSrot (d a : BitVec 3) (m : BitVec 6) (s : State) : Result := s.copyWord (.srot d a m) d a

/-- SMUX (R267): s against a, then s against b. -/
def execSmux (d a b s' : BitVec 3) (s : State) : Result :=
  s.streamWord (.smux d a b s') [d.toNat, a.toNat, b.toNat, s'.toNat] [a.toNat, b.toNat, s'.toNat]
    (fun c =>
      match c.scorr s'.toNat a.toNat with
      | some t => some t
      | none => c.scorr s'.toNat b.toNat)
    (fun c w =>
      c.noteWrite d.toNat w ((c.sview a.toNat).1 ||| (c.sview b.toNat).1 ||| (c.sview s'.toNat).1))
    (fun _ => []) none

/-- SCNT (R268). -/
def execScnt (a s' : BitVec 3) (s : State) : Result :=
  s.streamWord (.scnt a s') [a.toNat] [a.toNat] noTest (fun c _ => c) (fun _ => []) (some (wField s'))

/-- STAG (R268): neither the EMPTY check nor a tag test. -/
def execStag (a s' : BitVec 3) (s : State) : Result :=
  s.streamWord (.stag a s') [a.toNat] [] noTest (fun c _ => c) (fun _ => []) (some (wField s'))

/-- SDOT (R269). -/
def execSdot (a b s' : BitVec 3) (s : State) : Result :=
  s.streamWord (.sdot a b s') [a.toNat, b.toNat] [a.toNat, b.toNat] (fun c => c.scorr a.toNat b.toNat) (fun c _ => c)
    (fun _ => []) (some (wField s'))

/-- SREGEN (R266): no tag test. -/
def execSregen (d a : BitVec 3) (n : BitVec 4) (s : State) : Result :=
  s.streamWord (.sregen d a n) [d.toNat, a.toNat] [a.toNat] noTest
    (fun c w => c.noteWrite d.toNat w (genTag n.toNat)) (fun _ => []) none

/-! ## Generators (R124 to R126) -/

/-- step(x) of R124. -/
def xsStep (x : DWord) : DWord :=
  let x := x ^^^ (x <<< 13)
  let x := x ^^^ (x >>> 7)
  x ^^^ (x <<< 17)

/-- The seeded state of a lane (R125). -/
def xsSeed (seed : DWord) (l : Nat) : DWord :=
  let v := seed ^^^ (BitVec.ofNat 64 l * 0x9E3779B97F4A7C15)
  xsStep (if v = 0 then 0x9E3779B97F4A7C15 else v)

/-- A generator seeded (R263). -/
def seeded (mode : GenMode) (seed : DWord) (pos : Nat) : Generator :=
  ⟨mode, seed, pos, (upFrom 0 64).map (xsSeed seed)⟩

/-- A generator of a core that passes to a new context (R258). -/
def Generator.reset : Generator := seeded .ramp 0 0

/-- Bits of an XS draw: bit i set when its draw is below the threshold; the state after. -/
def xsBits (t : Nat) : Nat → Nat → DWord → Nat × DWord
  | 0, _, x => (0, x)
  | n + 1, i, x =>
    let x1 := xsStep x
    let r := xsBits t n (i + 1) x1
    ((if (x1 >>> 48).toNat < t then 2 ^ i else 0) + r.1, r.2)

/-- Bits of a VDC or RAMP draw. -/
def posBits (draw : Nat → Nat) (t : Nat) : Nat → Nat → Nat
  | 0, _ => 0
  | n + 1, i => (if draw i < t then 2 ^ i else 0) + posBits draw t n (i + 1)

/-- The draw of a position mode (R124). -/
def posDraw (mode : GenMode) (p len i : Nat) : Nat :=
  match mode with
  | .vdc => bitrev ((p + i) % 65536) 16
  | _ => (p + i) % len * (65536 / len)

/-- A generation (R124, R126, R264): the bits of every lane against its threshold, and the generator after. -/
def Generator.draw (g : Generator) (len : Nat) (thr : Nat → Nat) : List (BitVec 1024) × Generator :=
  match g.mode with
  | .xs =>
    let r := mapFrom (fun l (x : DWord) => xsBits (min (thr l) 65536) len 0 x) 0 g.lanes
    (r.map fun e => BitVec.ofNat 1024 e.1, { g with lanes := r.map (·.2), pos := (g.pos + len) % 65536 })
  | m =>
    ((upFrom 0 64).map fun l => BitVec.ofNat 1024 (posBits (posDraw m g.pos len) (min (thr l) 65536) len 0),
      { g with pos := (g.pos + len) % 65536 })

/-! ## In the engine (R257, R259, R260, R271) -/

/-- A stream register of a crew and a lane of it. -/
def Crew.stream (c : Crew) (r : Nat) : Stream := c.streams.getD r Stream.reset
def Stream.lane (v : Stream) (l : Nat) : BitVec 1024 := Cells.get 0 v.lanes l

/-- write(sd, result, newtag) of R260; written words get fresh parity (R271). -/
def Stream.write (v : Stream) (written : List Nat) (len : Nat) (result : Nat → BitVec 1024) (tag : BitVec 16) : Stream :=
  let mask := BitVec.ofNat 1024 (2 ^ len - 1)
  { lanes := written.foldl (fun m l => Cells.set 0 m l (result l &&& mask)) v.lanes
    tag := if written.length = 64 then tag else v.tag ||| tag
    empty := false
    bad := v.bad.filter fun e => !written.contains e.1 }

/-- The words of a register that its parity finds wrong among those an operation reads (R271). -/
def Stream.errors (v : Stream) (len : Nat) : Nat := (v.bad.filter fun e => decide (32 * e.2 < len)).length

/-- What an operation's sources cost in parity errors. -/
def Crew.streamErrors (c : Crew) (sources : List Nat) : Nat :=
  sources.foldl (fun m r => m + (c.stream r).errors c.slen) 0

/-- A crew after a stream result. -/
def Crew.putStream (c : Crew) (o : StreamOp) (d : Nat) (result : Nat → BitVec 1024) (tag : BitVec 16) : Crew :=
  { c with streams := setAt c.streams d ((c.stream d).write (o.lanes ++ o.exited) c.slen result tag) }

/-- A per-lane %w result of a stream operation, tagged P (R69, R259). -/
def Crew.putCounts (c : Crew) (o : StreamOp) (f : Nat → Word) : Crew :=
  o.dests.foldl (init := c) fun c (e : Nat × Nat) =>
    (c.modThread e.1 fun t => t.put e.2 (f e.1)).tagP [e.2]

/-- Ones of a lane below the stream length. -/
def Crew.ones (c : Crew) (r l : Nat) : Nat := popcount (((c.stream r).lane l).toNat % 2 ^ c.slen) c.slen

/-- A generator of a core. -/
def Core.gen (c : Core) (n : Nat) : Generator := Cells.get Generator.reset c.gens n
def Core.setGen (c : Core) (n : Nat) (g : Generator) : Core := { c with gens := Cells.put c.gens n g }

/-- Rotation of the low bits of a lane (R270). -/
def rotBits (x : BitVec 1024) (len n : Nat) : BitVec 1024 :=
  let v := x.toNat % 2 ^ len
  BitVec.ofNat 1024 (v / 2 ^ n + v % 2 ^ n * 2 ^ (len - n))

/-- What the engine does with an operation, for a crew and its core (R263 to R270). -/
def streamStart (o : StreamOp) (c : Crew) (k : Core) : Crew × Core :=
  let generate (d n : Nat) (thr : Nat → Nat) : Crew × Core :=
    let r := (k.gen n).draw c.slen thr
    (c.putStream o d (fun l => r.1.getD l 0) (genTag n), k.setGen n r.2)
  let logic (d : Nat) (sources : List Nat) (tag : BitVec 16) (f : Nat → BitVec 1024) : Crew × Core :=
    (c.putStream o d f tag, { k with softErrors := k.softErrors + c.streamErrors sources })
  let tagOf (r : BitVec 3) : BitVec 16 := (c.stream r.toNat).tag
  let at' (r : BitVec 3) (l : Nat) : BitVec 1024 := (c.stream r.toNat).lane l
  match o.instr with
  | .sseed n m =>
    let mode : GenMode := if m = 0 then .xs else if m = 1 then .vdc else .ramp
    (c, k.setGen n.toNat (seeded mode (o.vals.getD 0 0) ((o.vals.getD 1 0).toNat % 65536)))
  | .sgen d _ n => generate d.toNat n.toNat fun l => (o.vals.getD l 0).toNat
  | .sgenk d _ n => generate d.toNat n.toNat fun _ => (o.vals.getD 0 0).toNat
  | .slen l =>
    if slenOf l = c.slen then (c, k)
    else ({ c with slen := slenOf l, streams := c.streams.map fun _ => Stream.reset }, k)
  | .sregen d a n =>
    let r := generate d.toNat n.toNat fun l => c.ones a.toNat l * 65536 / c.slen
    (r.1, { r.2 with softErrors := r.2.softErrors + c.streamErrors [a.toNat] })
  | .sand d a b => logic d.toNat [a.toNat, b.toNat] (tagOf a ||| tagOf b) fun l => at' a l &&& at' b l
  | .sxnor d a b => logic d.toNat [a.toNat, b.toNat] (tagOf a ||| tagOf b) fun l => ~~~(at' a l ^^^ at' b l)
  | .sor d a b => logic d.toNat [a.toNat, b.toNat] (tagOf a ||| tagOf b) fun l => at' a l ||| at' b l
  | .ssub d a b => logic d.toNat [a.toNat, b.toNat] (tagOf a) fun l => at' a l ^^^ at' b l
  | .smin d a b => logic d.toNat [a.toNat, b.toNat] (tagOf a) fun l => at' a l &&& at' b l
  | .smax d a b => logic d.toNat [a.toNat, b.toNat] (tagOf a) fun l => at' a l ||| at' b l
  | .snot d a => logic d.toNat [a.toNat] (tagOf a) fun l => ~~~(at' a l)
  | .smux d a b s' =>
    logic d.toNat [a.toNat, b.toNat, s'.toNat] (tagOf a ||| tagOf b ||| tagOf s') fun l =>
      (at' s' l &&& at' b l) ||| (~~~(at' s' l) &&& at' a l)
  | .smov d a => logic d.toNat [a.toNat] (tagOf a) fun l => at' a l
  | .srot d a m => logic d.toNat [a.toNat] (tagOf a) fun l => rotBits (at' a l) c.slen m.toNat
  | .scnt a _ =>
    (c.putCounts o fun l => BitVec.ofNat 32 (c.ones a.toNat l),
      { k with softErrors := k.softErrors + c.streamErrors [a.toNat] })
  | .stag a _ =>
    let v := c.stream a.toNat
    (c.putCounts o fun _ => v.tag.setWidth 32 ||| (if v.empty then 0x10000 else 0), k)
  | .sdot a b _ =>
    let v := (upFrom 0 64).foldl
      (fun m l => m + popcount ((at' a l &&& at' b l).toNat % 2 ^ c.slen) c.slen) 0
    (c.putCounts o fun _ => BitVec.ofNat 32 v,
      { k with softErrors := k.softErrors + c.streamErrors [a.toNat, b.toNat] })
  | _ => (c, k)

/-- STREAM_OP_START (R259, R271): the oldest operation of a core's queue. -/
def execStreamOpStart (core : Nat) (s : State) : Result :=
  let k := s.core core
  match k.streamq with
  | [] => .next s
  | o :: rest =>
    let k1 := { k with streamq := rest }
    match s.crew? o.slot with
    | none => .next (s.setCore core k1)
    | some c =>
      let r := streamStart o c k1
      let s1 := (s.setCore core r.2).setCrew o.slot r.1
      .next (if r.2.softErrors = k1.softErrors then s1 else s1.countError 7 core true)

end Sys2Proof.Machine
end

