-- ==== Sys2Proof/Machine/Slices.lean ====
section
/-! DEFINITION. Where accesses are performed: store FIFOs and acknowledgements (R206, R298, R307), the L2
slices with their leases, misses, atomics and filters (R222 to R226, R276 to R285, R290), decks (R218 to
R220), multicast (R292), retries (R287, R290) and mailboxes (R68). -/

namespace Sys2Proof.Machine

/-! ## Lines at their home (R279, R283) -/

/-- A line the slice does not hold. -/
def LineMeta.absent : LineMeta := ⟨false, 0, 0, false, false, false, []⟩

/-- A line as its home slice has it. -/
def Slice.line (e : Slice) (a : Nat) : LineMeta := Cells.get LineMeta.absent e.lines a
def Slice.setLine (e : Slice) (a : Nat) (m : LineMeta) : Slice := { e with lines := Cells.set LineMeta.absent e.lines a m }
def State.line (s : State) (a : Nat) : LineMeta := (s.slice (s.homeSlice a)).line a
def State.modLine (s : State) (a : Nat) (f : LineMeta → LineMeta) : State :=
  s.modSlice (s.homeSlice a) fun e => e.setLine a (f (e.line a))

/-- LEASE (R279). -/
def lease : Nat := 16

/-- A read at the home by a crew (R279): its lease end moves, and the line's WTS and RTS are returned. -/
def State.homeRead (s : State) (a lts : Nat) : Nat × Nat × State :=
  let m := s.line a
  let rts := max m.rts (max (m.wts + lease) (lts + lease))
  (m.wts, rts, s.modLine a fun m => { m with rts := rts })

/-- The write time of a write-class operation at the home (R279). -/
def State.homeWrite (s : State) (a lts : Nat) : Nat × State :=
  let m := s.line a
  let w := max (m.rts + 1) lts
  (w, s.modLine a fun m => { m with wts := w, rts := w, dirty := true })

/-- Whether a line is host-homed. -/
def hostLine (a : Nat) : Bool := decide (hostBase ≤ a)

/-- The 128 bytes of a line at its home. -/
def State.lineBytes (s : State) (a : Nat) : List Byte := s.bytesAt .global a 128

/-- The bytes of a host line as the host has them. -/
def State.hostBytes (s : State) (a : Nat) : List Byte := s.hostMem.read (a - hostBase) 128

/-- Bytes written to the host's memory at a device physical address. -/
def State.hostWrite (s : State) (a : Nat) (data : List Byte) : State := { s with hostMem := s.hostMem.write (a - hostBase) data }

/-- A dirty line written back (R214, R283, R345): a host line to the host, a device line to the LLC of its M-die. -/
def State.writeBack (s : State) (a : Nat) : State :=
  let m := s.line a
  if !m.dirty then s
  else
    let s1 := if hostLine a then (if m.present then s.hostWrite a m.data else s) else s.useLlc a true
    s1.modLine a fun m => { m with dirty := false }

/-- A line evicted from its home slice (R283): written back when dirty, its keep bit cleared. -/
def State.evict (s : State) (a : Nat) : State :=
  (s.writeBack a).modLine a fun m => { m with present := false, keep := false, exclusive := false, data := [] }

/-- Whether a slice holds a line: as its home or as a sector copy (R281). -/
def Slice.holds (v : Slice) (a : Nat) : Bool := (v.line a).present || (Cells.find v.copies a).isSome

/-- The set of a line in a slice: 16 MiB, 16 ways, 128 B lines. -/
def l2Set (line : Nat) : Nat := Config.cacheSet 1 line % 8192

/-- A hit in a slice (R283). -/
def Slice.hit (v : Slice) (a : Nat) : Slice := { v with ways := v.ways.use 4 (l2Set a) a true }

/-- A line displaced from a slice: its home line evicted, or its sector copy dropped. -/
def State.displace (s : State) (slice a : Nat) : State :=
  if ((s.slice slice).line a).present then s.evict a
  else s.modSlice slice fun v => { v with copies := Cells.erase v.copies a }

/-- A way taken in a slice for a line that comes in, as the most recent or as its set's next victim (R281 to R283). -/
def State.makeRoom (s : State) (slice a : Nat) (next : Bool) : State :=
  let v := s.slice slice
  if v.holds a then s.modSlice slice fun v => { v with ways := v.ways.use 4 (l2Set a) a (!next) }
  else
    let r := v.ways.room 4 (l2Set a) v.holds fun l => (v.line l).keep
    let s1 := match r.2 with
      | some l => s.displace slice l
      | none => s
    s1.modSlice slice fun v => { v with ways := (v.ways.place 4 (l2Set a) r.1 a).use 4 (l2Set a) a (!next) }

/-- A host-homed line that a slice which its bucket has left still holds, or that waits in a flush buffer: the slice, the
bytes, and whether they are modified (R290, R351). -/
def State.heldBefore (s : State) (a : Nat) : Option (Nat × List Byte × Bool) :=
  let home := s.homeSlice a
  s.slices.findSome? fun e =>
    match Cells.find e.2.flush a with
    | some d => some (e.1, d, true)
    | none =>
      let m := e.2.line a
      if e.1 != home && m.present then some (e.1, m.data, m.dirty) else none

/-- A line that a slice held before its bucket left it, dropped there. -/
def State.dropBefore (s : State) (slice a : Nat) : State :=
  s.modSlice slice fun v => { v with lines := Cells.erase v.lines a, flush := Cells.erase v.flush a }

/-- The bytes of a host line brought in over CXL, with whether they are newer than the host's: from the slice that held the
line before its bucket moved (R290, R351), else from the host, whose bytes the host itself may have changed (R345, log 51). -/
def State.fetchHost (s : State) (a : Nat) : List Byte × Bool × State :=
  match s.heldBefore a with
  | some (e, d, dirty) => (d, dirty, s.dropBefore e a)
  | none =>
    let data := (((Config.hostLine s.fresh).getD (s.hostBytes a)) ++ bytesOf 128 0).take 128
    (data, false, { s.hostWrite a data with fresh := s.fresh + 1 })

/-- A line brought into its home slice under a policy (R282, R345): a device line from the LLC, taking no way under NOALLOC;
a host line of the CXL path with its bytes, or made exclusive where it is held shared. -/
def State.fillLine (s : State) (a policy : Nat) (own : Bool) : State :=
  let home := s.homeSlice a
  let keep (m : LineMeta) : Bool := m.keep || policy == 4
  if hostLine a then
    if (s.line a).present then s.modLine a fun m => { m with keep := keep m, exclusive := m.exclusive || own }
    else
      let q := (s.makeRoom home a (policy == 1)).fetchHost a
      q.2.2.modLine a fun m =>
        { m with present := true, keep := keep m, dirty := q.2.1, exclusive := own || q.2.1, data := q.1 }
  else
    let s1 := s.useLlc a false
    if policy = 3 then s1
    else (s1.makeRoom home a (policy == 1)).modLine a fun m => { m with present := true, keep := keep m }

/-- Whether a line is held at its home as a request needs it: present, and a host line to be changed exclusive. -/
def State.lineReady (s : State) (a : Nat) (own : Bool) : Bool :=
  let m := s.line a
  m.present && (!hostLine a || !own || m.exclusive)

/-- A line used at its home by an engine or the host, with policy NORMAL: a hit, or a fill (R277, R282). -/
def State.useLine (s : State) (a : Nat) (own : Bool) : State :=
  if s.lineReady a own then s.modSlice (s.homeSlice a) fun v => v.hit a else s.fillLine a 0 own

/-- The page-table lines that walkers have read used at their home slices, with policy NORMAL and no lease (R278, R377). -/
def State.useWalks (s : State) : State :=
  if s.dies.all fun e => e.2.walks.isEmpty then s
  else
    let done : State := { s with dies := s.dies.map fun (e : Nat × Die) => (e.1, { e.2 with walks := [] }) }
    let t := (s.dies.flatMap fun e => e.2.walks).foldl (init := done) fun s l =>
      if dramSize ≤ l then s else s.useLine l false
    { s with slices := t.slices, dies := t.dies, hostMem := t.hostMem }

/-- Bytes of an entry written where it is performed. -/
def State.writeMask (s : State) (sp : Space) (line : Nat) (bytes : List (Nat × Byte)) : State :=
  bytes.foldl (fun s b => s.setByteAt sp (line + b.1) b.2) s

/-! ## Entries and their owners (R206, R307) -/

/-- The entry of a number in a crew's FIFO. -/
def Crew.entry? (c : Crew) (id : Nat) : Option Entry := c.fifo.find? fun e => e.id == id

/-- The crew that holds an entry: resident in its slot, or saved (R307). -/
def State.owner? (s : State) (slot id : Nat) : Option Crew :=
  match s.crew? slot with
  | some c =>
    if (c.entry? id).isSome then some c
    else s.rm.saved.findSome? fun v => (v.crews.find? fun w => (w.crew.entry? id).isSome).map (·.crew)
  | none => s.rm.saved.findSome? fun v => (v.crews.find? fun w => (w.crew.entry? id).isSome).map (·.crew)

/-- The crew that holds an entry, changed. -/
def State.modOwner (s : State) (slot id : Nat) (f : Crew → Crew) : State :=
  match s.crew? slot with
  | some c =>
    if (c.entry? id).isSome then s.setCrew slot (f c)
    else s.modSaved fun c => if (c.entry? id).isSome then f c else c
  | none => s.modSaved fun c => if (c.entry? id).isSome then f c else c

/-- An entry by number. -/
def State.entry? (s : State) (slot id : Nat) : Option Entry := (s.owner? slot id).bind fun c => c.entry? id

/-- The crews resident on a core, with their slots. -/
def State.residents (s : State) (core : Nat) : List (Nat × Crew) := s.crews.filter fun e => coreOf e.1 == core

/-- The crews of a core, with those saved from it, whose sent entries it completes (R307). -/
def State.coreCrews (s : State) (core : Nat) : List (Nat × Crew) :=
  let saved := (s.rm.saved.map fun v => v.crews.map fun w => (w.oldSlot, w.crew)).flatten
  (s.crews ++ saved).filter fun e => coreOf e.1 == core

/-- The targets of an MCAST.LD control word for an issuing core (R216): core and deck offset. -/
def mcastTargets (core : Nat) (control : DWord) : List (Nat × Nat) :=
  ((upFrom 0 16).filter fun e => control.getLsbD e).map fun e => (core / 16 * 16 + e, field control.toNat 16 19)

/-- Where a multicast for a context writes the deck of a target core (R216): in the deck of the first crew in slot order of
that context whose deck reaches past the offset. The spec does not say which team's deck it is where the core holds several
(log 53, DESIGN CHOICE). -/
def State.mcastDeck (s : State) (ctx core off : Nat) : Option Nat :=
  (s.crews.find? fun e => coreOf e.1 == core && e.2.ctx == ctx && decide (off + 128 ≤ e.2.deckSize)).map
    fun e => e.2.deckBase + off

/-- The deck spans of 128 bytes that an entry's multicast writes: core and first byte. -/
def State.mcastSpans (s : State) (slot : Nat) (c : Crew) (e : Entry) : List (Nat × Nat) :=
  match e.op with
  | .mcast control =>
    (mcastTargets (coreOf slot) control).filterMap fun t => (s.mcastDeck c.ctx t.1 t.2).map fun a => (t.1, a)
  | _ => []

/-- The lines that an entry touches: its own, and those of the decks its multicast writes (R216, R299). -/
def State.entryLines (s : State) (slot : Nat) (c : Crew) (e : Entry) : List (Space × Nat) :=
  (e.space, e.line) ::
    ((s.mcastSpans slot c e).map fun a => [(Space.deck a.1, lineOf a.2), (Space.deck a.1, lineOf (a.2 + 127))]).flatten

/-- Whether an entry of some crew of a core to a line has been sent and not acknowledged (R299). -/
def State.sentTo (s : State) (core : Nat) (sp : Space) (line : Nat) (whose : Nat → Bool) : Bool :=
  (s.coreCrews core).any fun c =>
    whose c.1 && c.2.fifo.any fun e => e.sent && (s.entryLines c.1 c.2 e).contains (sp, line)

/-- Whether a load to a line is outstanding that an entry of a crew waits for (R299): one that the crew issued before the
entry's store, or any of another crew of the core, since every load takes effect in the c of its issue and the entry only
after it is sent (R300, log 54). -/
def State.loading (s : State) (slot : Nat) (sp : Space) (line cycle : Nat) : Bool :=
  (s.coreCrews (coreOf slot)).any fun c =>
    c.2.loads.any fun l => l.space == sp && l.line == line && (c.1 != slot || decide (l.cycle < cycle))

/-- Whether an entry is numbered as an atomic (R224). -/
def EntryOp.numbered : EntryOp → Bool
  | .atom .. | .atomr _ => true
  | _ => false

/-- Whether a request of a core carries an atomic's number to a slice (R224). -/
def State.numberedTo (s : State) (slice : Nat) (q : Req) : Bool :=
  match q.kind with
  | .entry slot id => s.homeSlice q.line == slice && ((s.entry? slot id).map fun e => e.op.numbered).getD false
  | _ => false

/-- The memory requests of a core that are outstanding: its loads and its entries sent (R19). -/
def State.outstanding (s : State) (core : Nat) : Nat :=
  ((s.coreCrews core).map fun c => c.2.loads.length + (c.2.fifo.filter fun e => e.sent).length).sum

/-- The outstanding memory requests that a core holds (R19). -/
def requestRoom : Nat := 2048

/-- Whether an entry may be sent (R19, R214, R218, R224, R227, R299). -/
def State.mayEnter (s : State) (slot : Nat) (c : Crew) (e : Entry) : Bool :=
  let core := coreOf slot
  let k := s.core core
  let apart := match e.space with
    | .mailbox => !s.sentTo core .mailbox e.line fun x => x == slot
    | _ => (s.entryLines slot c e).all fun x =>
        !(s.sentTo core x.1 x.2 fun _ => true) && !s.loading slot x.1 x.2 e.cycle
  let alone := match e.op with
    | .cctl _ => (c.fifo.map (·.id)).head? == some e.id
    | _ => true
  let few := decide (((k.unanswered ++ k.sendq).filter (s.numberedTo (s.homeSlice e.line))).length < 32)
  apart && alone && (few || !e.op.numbered) && decide (s.outstanding core < requestRoom)

/-- The next sequence number of a core towards a slice (R224, R285). -/
def Core.nextSeq (k : Core) (numbered : Bool) (slice : Nat) : Nat × Core :=
  if numbered then
    let n := Cells.get 0 k.atomSeq slice
    (n % 2 ^ 32, { k with atomSeq := Cells.put k.atomSeq slice (n + 1) })
  else
    let n := Cells.get 0 k.storeSeq slice
    (n % 2 ^ 32, { k with storeSeq := Cells.put k.storeSeq slice (n + 1) })

/-- An entry marked sent, with its number in the series towards a slice. -/
def Crew.markSent (c : Crew) (id series seq : Nat) : Crew :=
  { c with fifo := c.fifo.map fun e => if e.id = id then { e with sent := true, series := series, seq := seq } else e }

/-- An entry on its way to the unit that performs it. -/
def State.dispatch (s : State) (slot : Nat) (c : Crew) (e : Entry) : State :=
  let core := coreOf slot
  match e.op with
  | .cctl 0 =>
    (s.modCore core fun k => { k with icache := Cells.erase k.icache e.line }).post (.ack slot e.id 0)
  | .cctl 1 => (s.modCore core fun k => { k with l1 := Cells.erase k.l1 e.line }).post (.ack slot e.id 0)
  | .mcast control =>
    if field control.toNat 0 16 = 0 then s.post (.ack slot e.id 0)
    else s.request core e.line (.entry slot e.id) c.lts e.policy e.cxl
  | _ =>
    match e.space with
    | .mailbox => s.post (.mailbox slot e.id)
    | .deck k => s.modCore k fun x => { x with deckq := x.deckq ++ [.entry slot e.id] }
    | .obuf k => s.modCore k fun x => { x with deckq := x.deckq ++ [.entry slot e.id] }
    | .global => s.request core e.line (.entry slot e.id) c.lts e.policy e.cxl

/-- The oldest unsent entry of a crew, where it may be sent. -/
def State.nextEntry (s : State) (slot : Nat) : Option (Crew × Entry) :=
  match s.crew? slot with
  | none => none
  | some c =>
    match c.fifo.find? fun e => !e.sent with
    | none => none
    | some e => if s.mayEnter slot c e then some (c, e) else none

/-- The slot of a subcore that sends next: round-robin after the slot that sent last, the held crews passed over (R298). -/
def State.sendTurn (s : State) (sub : Nat) : Option Nat :=
  ((upFrom 1 8).map fun i => 8 * sub + ((s.sub sub).lastSent + i) % 8).find? fun slot => (s.nextEntry slot).isSome

/-- STORE_FIFO_SEND (R298, R299): the oldest unsent entry of the crew whose turn it is, at most one of a subcore in a c. -/
def execStoreFifoSend (slot : Nat) (s : State) : Result :=
  let sub := slot / 8
  if s.sendTurn sub ≠ some slot ∨ (s.sub sub).sentAt = some s.cycle then .next s
  else
    match s.nextEntry slot with
    | none => .next s
    | some (c, e) =>
      let core := coreOf slot
      let slice := s.homeSlice e.line
      let q := (s.core core).nextSeq e.op.numbered slice
      let here := e.space = Space.global
      let s1 := if here then s.setCore core q.2 else s
      let s2 := (s1.setCrew slot (c.markSent e.id slice (if here then q.1 else 0))).dispatch slot c e
      .next (s2.setSub sub { s2.sub sub with lastSent := slot % 8, sentAt := some s.cycle })

/-- Whether an atomic's results for an entry are still under way. -/
def State.resultsPending (s : State) (id : Nat) : Bool :=
  s.msgs.any fun m => match m.2 with
    | .atomic _ e _ _ => e == id
    | _ => false

/-- An acknowledged entry leaves its crew's FIFO; the crew's LTS takes the write time (R206, R279). -/
def Crew.acked (c : Crew) (id wts : Nat) : Crew :=
  { c with fifo := c.fifo.filter fun e => e.id != id, lts := max c.lts wts }

/-- The copies of a written line that the core could use, at the acknowledgement of its write: the L1 copy takes the line
as the write left it, with WTS = RTS = the write's WTS (R280), unless it is newer; an older copy at the core's proxy slice
goes, so that no load of the core passes its own crews' write (R300, log 54). -/
def State.refreshCopies (s : State) (core line wts : Nat) (data : List Byte) : State :=
  let s1 := match Cells.find (s.core core).l1 line with
    | some cp =>
      if cp.wts < wts then
        s.modCore core fun k =>
          { k with l1 := if data.isEmpty then Cells.erase k.l1 line else Cells.put k.l1 line ⟨data, wts, wts⟩ }
      else s
    | none => s
  let proxy := proxySlice core (s.homeSlice line)
  match Cells.find (s1.slice proxy).copies line with
  | some cp => if cp.wts < wts then s1.modSlice proxy fun v => { v with copies := Cells.erase v.copies line } else s1
  | none => s1

/-- Whether a request is for an entry of a crew. -/
def Req.forEntry (q : Req) (id : Nat) : Bool :=
  match q.kind with
  | .entry _ e => e == id
  | _ => false

/-- Whether a request is for a load of a crew. -/
def Req.forLoad (q : Req) (slot id : Nat) : Bool :=
  match q.kind with
  | .load k l _ => k == slot && l == id
  | _ => false

/-- STORE_ACK (R206, R279, R280, R307). -/
def execStoreAck (id : Nat) (s : State) : Result :=
  match Cells.find s.msgs id with
  | some (.ack slot e wts) =>
    if s.resultsPending e then .next s
    else
      let core := coreOf slot
      let s1 := (s.dropMsg id).answered core fun q => q.forEntry e
      let s2 := match s1.entry? slot e with
        | some x => if x.space = Space.global ∧ wts ≠ 0 then s1.refreshCopies core x.line wts x.after else s1
        | none => s1
      .next (s2.modOwner slot e fun c => c.acked e wts)
  | _ => .next s

/-! ## Loads returning (R211) -/

/-- A lane's bytes: those forwarded at issue, and the line's for the rest. -/
def LaneLoad.bytes (x : LaneLoad) (data : List Byte) : List Byte :=
  mapFrom (fun i (f : Option Byte) => match f with
    | some b => b
    | none => data.getD (x.addr % 128 + i) 0) 0 x.fwd

/-- Whether a lane's part reads memory at all. -/
def LaneLoad.reads (x : LaneLoad) : Bool := x.fwd.any Option.isNone

/-- The fault that a load result carries for a lane that reads memory. -/
def LoadResult.fault (lane : Nat) : LoadResult → Option (BitVec 8)
  | .bytes _ => none
  | .partly _ bad => if bad.contains lane then some codePoison else none
  | .poison => some codePoison
  | .linkdown => some codeLinkdown
  | .hostatom => some codeHostatom
  | .remaplost => some codeRemaplost

/-- The bytes that a load result carries. -/
def LoadResult.data : LoadResult → List Byte
  | .bytes d | .partly d _ => d
  | .poison | .linkdown | .hostatom | .remaplost => []

/-- One lane's part of a load completed (R210, R211, R362). -/
def State.finishLane (s : State) (slot : Nat) (l : Load) (x : LaneLoad) (r : LoadResult) : State :=
  let faults (t : Trap) (s : State) : State := s.lateFaults slot x.takers t l.pc l.cycle
  match (if x.reads then r.fault x.lane else none) with
  | some code =>
    let t : Trap := { code := code, addr := x.va }
    match x.dest with
    | .step id => s.modCrew slot fun c => c.stepGets id x.lane (.fault t)
    | _ => faults t s
  | none =>
    let s1 := s.modCrew slot fun c => c.deliver x.lane x.dest (x.bytes r.data)
    if x.watch then faults (watchTrap x.va) s1 else s1

/-- An atomic's or deck operation's values into its lanes' destinations, or its fault (R222, R225). -/
def State.finishItems (s : State) (slot : Nat) (e : Entry) (results : List (Nat × DWord)) (fault : Option (BitVec 8)) : State :=
  match fault with
  | some code =>
    e.items.foldl (init := s) fun s i => s.lateFaults slot [(i.lane, i.hints)] { code := code, addr := i.va } e.pc e.cycle
  | none =>
    e.items.foldl (init := s) fun s i =>
      match results.find? fun r => r.1 == i.lane with
      | some r => s.modCrew slot fun c => c.deliver i.lane i.dest (bytesOf (max 4 e.size) r.2.toNat)
      | none => s

/-- LOAD_RESPONSE (R210, R211, R222). -/
def execLoadResponse (id : Nat) (s : State) : Result :=
  match Cells.find s.msgs id with
  | some (.load slot lid r) =>
    let s1 := (s.dropMsg id).answered (coreOf slot) fun q => q.forLoad slot lid
    match s1.crew? slot with
    | none => .next s1
    | some c =>
      match c.loads.find? fun l => l.id == lid with
      | none => .next s1
      | some l =>
        let s2 := s1.setCrew slot { c with loads := c.loads.filter fun x => x.id != lid }
        .next (l.lanes.foldl (init := s2) fun s x => s.finishLane slot l x r)
  | some (.atomic slot eid results fault) =>
    let s1 := s.dropMsg id
    match (s1.crew? slot).bind fun c => c.entry? eid with
    | some e => .next (s1.finishItems slot e results fault)
    | none => .next s1
  | _ => .next s

/-! ## Slice atomics (R221 to R226) -/

/-- The new value of an ATOM (R221): n bits, old value, operand, and for CAS the new value. -/
def atomNew (op n old v v2 : Nat) : Nat :=
  let m := 2 ^ n
  let sg (x : Nat) : Int := (BitVec.ofNat n x).toInt
  match op with
  | 0 => (old + v) % m
  | 1 => if sg v < sg old then v else old
  | 2 => if sg old < sg v then v else old
  | 3 => min old v
  | 4 => max old v
  | 5 => (BitVec.ofNat n old &&& BitVec.ofNat n v).toNat
  | 6 => (BitVec.ofNat n old ||| BitVec.ofNat n v).toNat
  | 7 => (BitVec.ofNat n old ^^^ BitVec.ofNat n v).toNat
  | 8 => v
  | 9 => if old = v then v2 else old
  | _ => (fmt32.add 0 old v).1

/-- The items of an ATOM applied in lane order; the old values by lane (R222). -/
def State.applyItems (s : State) (op size : Nat) : List Item → List (Nat × DWord) × State
  | [] => ([], s)
  | i :: r =>
    let n := 8 * size
    let old := natOf (s.bytesAt .global i.addr size)
    let new := atomNew op n old (i.data.toNat % 2 ^ n) (i.data2.toNat % 2 ^ n)
    let q := State.applyItems (s.setBytesAt .global i.addr (bytesOf size new)) op size r
    ((i.lane, BitVec.ofNat 64 old) :: q.1, q.2)

/-- The routine core's registers (R225): x0 reads 0. -/
def rget (x : List Word) (r : Nat) : Word := if r = 0 then 0 else x.getD r 0
def rset (x : List Word) (r : Nat) (v : Word) : List Word := if r = 0 then x else setAt x r v

/-- One RV32I word of a routine (R226): registers, line and the next index; nothing when a rule is broken. -/
def routineStep (w : Word) (pc : Nat) (x : List Word) (line : List Byte) : Option (List Word × List Byte × Nat) :=
  let v := w.toNat
  let rd := field v 7 5
  let a := rget x (field v 15 5)
  let b := rget x (field v 20 5)
  let f3 := field v 12 3
  let immI : Word := (BitVec.ofNat 12 (field v 20 12)).signExtend 32
  let alu (o : Word) (alt : Bool) : Word :=
    match f3 with
    | 0 => if alt then a - o else a + o
    | 1 => a <<< (o.toNat % 32)
    | 2 => if a.slt o then 1 else 0
    | 3 => if a.ult o then 1 else 0
    | 4 => a ^^^ o
    | 5 => if alt then a.sshiftRight (o.toNat % 32) else a >>> (o.toNat % 32)
    | 6 => a ||| o
    | _ => a &&& o
  let access (imm : Word) (n : Nat) : Option Nat :=
    let p := (a + imm).toNat
    if p + n ≤ 128 ∧ p % n = 0 then some p else none
  match field v 0 7 with
  | 0x37 => some (rset x rd (BitVec.ofNat 32 (v / 4096 * 4096)), line, pc + 1)
  | 0x13 => some (rset x rd (alu immI (f3 == 5 && v.testBit 30)), line, pc + 1)
  | 0x33 => some (rset x rd (alu b (v.testBit 30)), line, pc + 1)
  | 0x03 =>
    let n := 2 ^ (f3 % 4)
    match access immI n with
    | none => none
    | some p =>
      let raw := natOf ((line.drop p).take n)
      let val : Word := if f3 < 4 then BitVec.ofInt 32 (BitVec.ofNat (8 * n) raw).toInt else BitVec.ofNat 32 raw
      some (rset x rd val, line, pc + 1)
  | 0x23 =>
    let n := 2 ^ (f3 % 4)
    let imm : Word := (BitVec.ofNat 12 (field v 25 7 * 32 + field v 7 5)).signExtend 32
    match access imm n with
    | none => none
    | some p =>
      some (x, (upFrom 0 n).foldl (fun l i => setAt l (p + i) ((bytesOf n b.toNat).getD i 0)) line, pc + 1)
  | 0x63 =>
    let off := field v 8 4 * 2 + field v 25 6 * 32 + field v 7 1 * 2048 + field v 31 1 * 4096
    let t := match f3 with
      | 0 => a == b
      | 1 => a != b
      | 4 => a.slt b
      | 5 => !a.slt b
      | 6 => a.ult b
      | _ => !a.ult b
    some (x, line, if t then pc + off / 4 else pc + 1)
  | 0x6F =>
    let off := field v 21 10 * 2 + field v 20 1 * 2048 + field v 12 8 * 4096 + field v 31 1 * 0x100000
    some (x, line, pc + off / 4)
  | _ => none

/-- A routine run from an index, at most so many words (R225): it only moves forward, so 16 are enough. -/
def routineRun (words : List Word) : Nat → Nat → List Word → List Byte → Option (List Word × List Byte)
  | 0, _, x, line => some (x, line)
  | n + 1, pc, x, line =>
    match words[pc]? with
    | none => some (x, line)
    | some w =>
      match routineStep w pc x line with
      | none => none
      | some (x1, line1, pc1) => routineRun words n pc1 x1 line1

/-- The registers a routine starts with (R225): x10 the data, x11 y[6:0], x12 the lane. -/
def routineRegs (i : Item) : List Word :=
  setAt (setAt (setAt (List.replicate 32 0) 10 (i.data.setWidth 32)) 11 (i.data2.setWidth 32)) 12 (BitVec.ofNat 32 i.lane)

/-- The lanes of an ATOMR run in lane order on the line: results by lane, and the lanes that broke a rule. -/
def State.runRoutine (s : State) (words : Option (List Word)) (line : Nat) :
    List Item → List (Nat × DWord) × List Item × State
  | [] => ([], [], s)
  | i :: r =>
    let run := words.bind fun w => routineRun w 17 0 (routineRegs i) (s.lineBytes line)
    match run with
    | none =>
      let q := State.runRoutine s words line r
      (q.1, i :: q.2.1, q.2.2)
    | some (x, bytes) =>
      let q := State.runRoutine (s.setBytesAt .global line bytes) words line r
      ((i.lane, (rget x 10).setWidth 64) :: q.1, q.2.1, q.2.2)

/-- A filter kept to a source's last 64 numbers (R224, R285). -/
def keepLast (n : Nat) {α : Type} (p : α → Bool) (l : List α) : List α :=
  if n < (l.filter p).length then
    match l.find? p with
    | some _ => (l.takeWhile fun a => !p a) ++ (l.dropWhile fun a => !p a).drop 1
    | none => l
  else l

/-- A number that a filter remembers, among the last 64 of its source (R224, R285). -/
def filterAdd (l : List Filtered) (f : Filtered) : List Filtered :=
  keepLast 64 (fun (x : Filtered) => x.core == f.core && x.series == f.series) (l ++ [f])

/-- What a filter knows of an entry of a core (R224, R285). -/
def filterFind (l : List Filtered) (core : Nat) (e : Entry) : Option Filtered :=
  l.find? fun f => f.core == core && f.series == e.series && f.seq == e.seq

/-- A result the replay filter remembers (R224), and a write the store filter remembers (R285). -/
def Slice.remember (v : Slice) (f : Filtered) : Slice := { v with replay := filterAdd v.replay f }
def Slice.noteStore (v : Slice) (f : Filtered) : Slice := { v with stores := filterAdd v.stores f }

/-- An entry performed at its home: it keeps the line as it left it, for the core's L1 copy (R280). -/
def State.performed (s : State) (slot : Nat) (e : Entry) : State :=
  let after := s.lineBytes e.line
  s.modOwner slot e.id fun c => { c with fifo := c.fifo.map fun x => if x.id = e.id then { x with after := after } else x }

/-- An atomic's or routine's answer: the values by lane, and the acknowledgement with the write time. -/
def State.answerAtom (s : State) (slot : Nat) (e : Entry) (results : List (Nat × DWord)) (wts : Nat) : State :=
  (s.post (.atomic slot e.id results none)).post (.ack slot e.id wts)

/-- An entry whose access fails: its lanes' fault, and the acknowledgement. -/
def State.failEntry (s : State) (slot id : Nat) (code : BitVec 8) : State :=
  (s.post (.atomic slot id [] (some code))).post (.ack slot id 0)

/-- The old value is returned only to RET lanes (R222). -/
def EntryOp.returns : EntryOp → Bool
  | .atom _ _ ret => ret
  | .store | .spill | .record | .scadd _ | .rput _ | .mcast _ | .cctl _ => false
  | .atomr _ | .binapp => true

/-- A request answered with a REMAP NACK: its source sends it again after 8 c, which is no attempt (R290). -/
def State.remapNack (s : State) (q : Req) : State :=
  s.modCore q.core fun k => { k with retry := k.retry ++ [⟨q, true, s.cycle + 8⟩] }

/-- A line changed at its home that no slice holds rests in the LLC (R282, R283). -/
def State.rest (s : State) (a : Nat) : State := if (s.line a).present then s else s.writeBack a

/-- SLICE_ATOMIC (R222, R224): the oldest ATOM being served, applied as one step. -/
def execSliceAtomic (slice : Nat) (s : State) : Result :=
  let v := s.slice slice
  match v.serving.find? fun x => match x.req.kind with
    | .entry slot id => ((s.entry? slot id).map fun e => match e.op with
      | .atom .. => true
      | _ => false).getD true
    | _ => true with
  | none => .next s
  | some x =>
    let s1 := s.setSlice slice { v with serving := v.serving.erase x }
    match x.req.kind with
    | .entry slot id =>
      match s1.entry? slot id with
      | none => .next s1
      | some e =>
        if slice ≠ s.homeSlice e.line then .next (s1.remapNack x.req)
        else
          match filterFind v.replay x.req.core e with
          | some f => .next (s1.answerAtom slot e f.results f.wts)
          | none =>
            match e.op with
            | .atom op _ _ =>
              if s1.poisoned e.line then .next ((s1.failEntry slot id codePoison).rest e.line)
              else
                let q := s1.applyItems op.toNat e.size e.items
                let w := q.2.homeWrite e.line x.req.lts
                let results := if e.op.returns then q.1 else []
                let s2 := w.2.modSlice slice fun y => y.remember ⟨x.req.core, e.series, e.seq, results, w.1⟩
                .next (((s2.performed slot e).answerAtom slot e results w.1).rest e.line)
            | _ => .next s1
    | _ => .next s1

/-- The context of a crew by slot, resident or the saved crew that holds the entry. -/
def State.ownerCtx (s : State) (slot id : Nat) : Nat := ((s.owner? slot id).map (·.ctx)).getD 0

/-- The words of an installed routine of a context (R225). -/
def State.routine? (s : State) (ctx n : Nat) : Option (List Word) := Cells.find s.cox.routines (64 * ctx + n)

/-- ATOMR_ROUTINE (R224 to R226). -/
def execAtomrRoutine (slice : Nat) (s : State) : Result :=
  let v := s.slice slice
  match v.serving.find? fun x => match x.req.kind with
    | .entry slot id => ((s.entry? slot id).map fun e => match e.op with
      | .atomr _ => true
      | _ => false).getD false
    | _ => false with
  | none => .next s
  | some x =>
    let s1 := s.setSlice slice { v with serving := v.serving.erase x }
    match x.req.kind with
    | .entry slot id =>
      match s1.entry? slot id with
      | none => .next s1
      | some e =>
        if slice ≠ s.homeSlice e.line then .next (s1.remapNack x.req)
        else
          match filterFind v.replay x.req.core e, e.op with
          | some f, _ => .next (s1.answerAtom slot e f.results f.wts)
          | none, .atomr n =>
            if s1.poisoned e.line then .next ((s1.failEntry slot id codePoison).rest e.line)
            else
              let q := s1.runRoutine (s1.routine? (s1.ownerCtx slot id) n) e.line e.items
              let w := q.2.2.homeWrite e.line x.req.lts
              let s2 := w.2.modSlice slice fun y => y.remember ⟨x.req.core, e.series, e.seq, q.1, w.1⟩
              let s3 := q.2.1.foldl (init := s2) fun s i =>
                s.lateFaults slot [(i.lane, i.hints)] { code := codeSlicertn, addr := i.va } e.pc e.cycle
              .next (((s3.performed slot e).answerAtom slot e q.1 w.1).rest e.line)
          | none, _ => .next s1
    | _ => .next s1

/-! ## Requests at a slice (R281 to R285, R292, R345) -/

/-- A multicast request joins the line's open list, or opens one (R292). -/
def Slice.joinMcast (v : Slice) (line slot id lts : Nat) (targets : List (Nat × Nat)) : Slice :=
  let add : List (Nat × Nat × Nat) := targets.map fun t => (id, t.1, t.2)
  let rec place : List McastList → Bool × List McastList
    | [] => (false, [])
    | m :: r =>
      if m.line = line ∧ m.targets.length + add.length ≤ 16 then
        (true, { m with reqs := m.reqs ++ [(slot, id, lts)], targets := m.targets ++ add } :: r)
      else
        let q := place r
        (q.1, m :: q.2)
  let q := place v.mcast
  if q.1 then { v with mcast := q.2 } else { v with mcast := v.mcast ++ [⟨line, [(slot, id, lts)], add⟩] }

/-- A PCIe request sent for a crew's access or an engine (R345, R355). -/
def State.sendPcie (s : State) (slot item : Nat) (kind : PcieKind) (late : Option LateOp) (e : Egress) : State :=
  let q : PcieReq := ⟨s.nextId, slot, item, kind, s.cycle, late⟩
  { s with links := { s.links with pcie := s.links.pcie ++ [q] }, nextId := s.nextId + 1 }.emit e

/-- The operands of an AtomicOp (R223, R355). -/
def State.sendAtomicOp (s : State) (slot : Nat) (e : Entry) : State :=
  e.items.foldl (init := s) fun s i =>
    match e.op with
    | .atom op wide _ =>
      s.sendPcie slot e.id .atomic (some ⟨[(i.lane, i.hints)], e.pc⟩) (.pcieAtomic s.nextId (i.addr - hostBase) op.toNat wide i.data i.data2)
    | _ => s

/-- A sector copy made or renewed at a core's proxy slice (R281). -/
def State.putCopy (s : State) (core line : Nat) (cp : LineCopy) : State :=
  let home := s.homeSlice line
  let proxy := proxySlice core home
  if s.viaProxy core home then
    (s.makeRoom proxy line false).modSlice proxy fun v => { v with copies := Cells.put v.copies line cp }
  else s

/-- A load answered from the home line (R211, R279, R280): with a lease, and installed where its path says. -/
def State.serveLoad (s : State) (slot id core line lts policy : Nat) (proxy : Bool) : State :=
  if s.poisoned line then s.post (.load slot id .poison)
  else
    let r := s.homeRead line lts
    let data := s.lineBytes line
    let s1 := r.2.2.modCrew slot fun c => { c with lts := max c.lts r.1 }
    let copy : LineCopy := ⟨data, r.1, r.2.1⟩
    let s2 := if proxy then s1.putCopy core line copy else s1
    let s3 := if usesL1 policy && !hostLine line then s2.modCore core fun k => k.l1Fill line copy else s2
    s3.post (.load slot id (.bytes data))

/-- A store entry written at its home, or acknowledged again where the store filter knows its number (R206, R285). -/
def State.serveStore (s : State) (slice : Nat) (q : Req) (slot : Nat) (e : Entry) : State :=
  match filterFind (s.slice slice).stores q.core e with
  | some f => s.post (.ack slot e.id f.wts)
  | none =>
    let w := (s.writeMask .global e.line e.bytes).homeWrite e.line q.lts
    let s1 := w.2.modSlice slice fun v => v.noteStore ⟨q.core, e.series, e.seq, [], w.1⟩
    (s1.performed slot e).post (.ack slot e.id w.1)

/-- A store-class entry performed at its home slice (R206, R214, R216, R285). -/
def State.serveEntry (s : State) (slice : Nat) (q : Req) (slot : Nat) (e : Entry) : State :=
  match e.op with
  | .atom .. | .atomr _ => s.modSlice slice fun v => { v with serving := v.serving ++ [⟨q⟩] }
  | .mcast control => s.modSlice slice fun v => v.joinMcast e.line slot e.id q.lts (mcastTargets q.core control)
  | .cctl op =>
    let s1 := if op = 3 then
        { s.evict e.line with slices := (s.evict e.line).slices.map fun (x : Nat × Slice) =>
          (x.1, { x.2 with copies := Cells.erase x.2.copies e.line }) }
      else s.writeBack e.line
    s1.post (.ack slot e.id 0)
  | _ => s.serveStore slice q slot e

/-- A host snoop served by the home slice of its line (R350 table 7): a line that a flush buffer holds, or a slice that its
bucket has left, is answered from there (R351). -/
def State.serveSnoop (s : State) (line : Nat) (k : SnoopKind) : State :=
  let m := s.line line
  if !m.present then
    match s.heldBefore line with
    | none => s.emit .snoopMiss
    | some (e, data, dirty) =>
      let s1 := match k with
        | .cur => s
        | _ => (if dirty then s.hostWrite line data else s).dropBefore e line
      s1.emit (if dirty then .snoopBytes data else .snoopState)
  else
    let answer : Egress := if m.dirty then .snoopBytes m.data else .snoopState
    match k with
    | .cur => s.emit answer
    | .data => ((s.writeBack line).modLine line fun m => { m with exclusive := false }).emit answer
    | .inv => (s.evict line).emit answer

/-- A prefetch that its home has served, its copy gone from the retry buffer (R213, R287). -/
def State.prefetched (s : State) (q : Req) : State := s.answered q.core fun x => x.id == q.id

/-- A request that a slice can answer: its line present, or needing none. -/
def State.serveReq (s : State) (slice : Nat) (q : Req) : State :=
  match q.kind with
  | .load slot id proxy => s.serveLoad slot id q.core q.line q.lts q.policy proxy
  | .entry slot id =>
    match s.entry? slot id with
    | some e => s.serveEntry slice q slot e
    | none => s
  | .prefetch core level =>
    if level = 0 ∧ !hostLine q.line ∧ usesL1 q.policy ∧ !s.poisoned q.line then
      let r := s.homeRead q.line q.lts
      (r.2.2.modCore core fun k => k.l1Fill q.line ⟨s.lineBytes q.line, r.1, r.2.1⟩).prefetched q
    else s.prefetched q
  | .snoop k => s.serveSnoop q.line k

/-- What a request's entry does. -/
def State.reqOp (s : State) (q : Req) : Option EntryOp :=
  match q.kind with
  | .entry slot id => (s.entry? slot id).map (·.op)
  | _ => none

/-- Whether a request changes its line, and takes a host line exclusive (R345). -/
def State.reqOwns (s : State) (q : Req) : Bool :=
  match s.reqOp q with
  | some (.mcast _) | some (.cctl _) | none => false
  | some _ => true

/-- Whether a request is an ATOM or ATOMR, which holds its line until it has been applied (R222, R225). -/
def State.reqAtom (s : State) (q : Req) : Bool := ((s.reqOp q).map EntryOp.numbered).getD false

/-- Whether a request needs its line in the slice: a write back or a removal acts on what is there, and a prefetch to the
LLC stops there (R213, R214). -/
def State.reqLine (s : State) (q : Req) : Bool :=
  match q.kind, s.reqOp q with
  | _, some (.cctl _) => false
  | .prefetch _ level, _ => level != 2
  | .snoop _, _ => false
  | _, _ => true

/-- A request of a path that is down (R352): it faults LINKDOWN on its lanes at the response; a snoop's arrival is
discarded. -/
def State.failReq (s : State) (q : Req) : State :=
  match q.kind with
  | .load slot id _ => s.post (.load slot id .linkdown)
  | .entry slot id =>
    match s.reqOp q with
    | some (.atom ..) | some (.mcast _) => s.failEntry slot id codeLinkdown
    | _ => s.post (.ack slot id 0)
  | .prefetch _ _ => s.prefetched q
  | .snoop _ => s

/-- A PCIe-path store transmitted, or known to the store filter (R285, R345, R346). -/
def State.sendStore (s : State) (slice : Nat) (q : Req) (slot : Nat) (e : Entry) : State :=
  match filterFind (s.slice slice).stores q.core e with
  | some _ => s.post (.ack slot e.id 0)
  | none =>
    let s1 := e.bytes.foldl (init := s) fun s b => s.hostWrite (e.line + b.1) [b.2]
    let s2 := (s1.modSlice slice fun v => v.noteStore ⟨q.core, e.series, e.seq, [], 0⟩).modOwner slot e.id fun c =>
      { c with pcieWrites := true }
    (s2.emit (.pcieWrite (e.line - hostBase) e.bytes)).post (.ack slot e.id 0)

/-- A PCIe-path request at its home slice (R223, R345, R346): reads and atomics go to the host, writes are
transmitted and acknowledged. -/
def State.servePcie (s : State) (slice : Nat) (q : Req) : State :=
  match q.kind with
  | .load slot id _ =>
    if s.links.pld then s.failReq q else s.sendPcie slot id .load none (.pcieRead s.nextId (q.line - hostBase))
  | .entry slot id =>
    match s.entry? slot id with
    | none => s
    | some e =>
      match e.op with
      | .atom .. => if s.links.pld then s.failReq q else s.sendAtomicOp slot e
      | .mcast _ =>
        if s.links.pld then s.failReq q else s.sendPcie slot id .mcast none (.pcieRead s.nextId (q.line - hostBase))
      | .cctl _ => s.post (.ack slot id 0)
      | _ => s.sendStore slice q slot e
  | .prefetch _ _ => s.prefetched q
  | .snoop _ => s

/-- Whether a slice has a miss under way for a line. -/
def Slice.missing (v : Slice) (line : Nat) : Bool := (Cells.find v.mshr line).isSome

/-- Whether an ATOM or ATOMR holds a line at its slice (R222, R225, R350). -/
def Slice.atomHolds (v : Slice) (line : Nat) : Bool := v.serving.any fun x => x.req.line == line

/-- Whether a request takes no part in its home's lines: it was aimed elsewhere, or goes over PCIe. -/
def State.passesBy (s : State) (slice : Nat) (q : Req) : Bool :=
  slice != s.homeSlice q.line || (hostLine q.line && !q.cxl)

/-- Whether a request finds its line at the home as it needs it. -/
def State.reqHits (s : State) (q : Req) : Bool := !s.reqLine q || s.lineReady q.line (s.reqOwns q)

/-- Whether a request of a slice's ingress can proceed (R284): no atomic holds its line, and it hits, merges, or finds a free
miss-status entry. -/
def State.canProceed (s : State) (slice : Nat) (q : Req) : Bool :=
  let v := s.slice slice
  s.passesBy slice q ||
    (!v.atomHolds q.line && (s.reqHits q || v.missing q.line || decide (v.mshr.length < 256)))

/-- A request served from a sector copy, or sent on to the home (R281). -/
def State.serveProxy (s : State) (slice : Nat) (q : Req) : State :=
  match q.kind with
  | .load slot id _ =>
    match Cells.find (s.slice slice).copies q.line with
    | some cp =>
      if q.lts ≤ cp.rts then
        let s1 := s.modCrew slot fun c => { c with lts := max c.lts cp.wts }
        let s2 := if usesL1 q.policy then s1.modCore q.core fun k => k.l1Fill q.line cp else s1
        (s2.modSlice slice fun v => v.hit q.line).post (.load slot id (.bytes cp.data))
      else s.arrive (s.homeSlice q.line) q
    | none => s.arrive (s.homeSlice q.line) q
  | _ => s

/-- Whether a request was aimed by an older map at a slice its bucket has left (R290). -/
def State.misrouted (s : State) (slice : Nat) (q : Req) : Bool :=
  let proxied := match q.kind with
    | .load _ _ p => p && slice == proxySlice q.core (s.homeSlice q.line)
    | _ => false
  slice != s.homeSlice q.line && !proxied

/-- A request that hits at its home. -/
def State.takeHit (s : State) (slice : Nat) (q : Req) : State :=
  match q.kind with
  | .prefetch _ 2 => (if hostLine q.line then s else s.useLlc q.line false).prefetched q
  | _ => (s.modSlice slice fun v => v.hit q.line).serveReq slice q

/-- One request taken by a slice (R284, R290). -/
def State.takeReq (s : State) (slice : Nat) (q : Req) : State :=
  if s.misrouted slice q then s.remapNack q
  else if slice != s.homeSlice q.line then s.serveProxy slice q
  else if hostLine q.line && !q.cxl then s.servePcie slice q
  else
    let v := s.slice slice
    if v.missing q.line then
      s.setSlice slice { v with mshr := Cells.put v.mshr q.line ((Cells.get [] v.mshr q.line) ++ [q]) }
    else if s.reqHits q then s.takeHit slice q
    else s.setSlice slice { v with mshr := Cells.put v.mshr q.line [q] }

/-- SLICE_REQUEST (R284): the oldest request of the ingress queue that can proceed. -/
def execSliceRequest (slice : Nat) (s : State) : Result :=
  let v := s.slice slice
  if v.off then .next s
  else
    match v.ingress.find? fun q => s.canProceed slice q with
    | none => .next s
    | some q => .next ((s.setSlice slice { v with ingress := v.ingress.erase q }).takeReq slice q)

/-- Whether a merged request is a host snoop. -/
def Req.snoops (q : Req) : Bool :=
  match q.kind with
  | .snoop _ => true
  | _ => false

/-- The merged requests of a line that has arrived, answered in merge order up to an atomic, which holds the line, or past a
run of snoops, whose successors request the line again (R284, R350): those not answered, and the state. -/
def State.serveMerged (s : State) (slice : Nat) : List Req → List Req × State
  | [] => ([], s)
  | q :: r =>
    let s1 := s.serveReq slice q
    if s.reqAtom q || (q.snoops && !(r.head?.map Req.snoops).getD false) then (r, s1) else State.serveMerged s1 slice r

/-- The policy under which a line comes in for merged requests (R282, log 50): KEEP if one asks for it, else as most recent
if one does, else as the next victim if one does, else without a way. -/
def fillPolicy (l : List Req) : Nat :=
  if l.any fun q => q.policy == 4 then 4
  else if l.any fun q => q.policy != 1 && q.policy != 3 then 0
  else if l.any fun q => q.policy == 1 then 1
  else 3

/-- LINE_FILL (R282 to R284, R345): a miss's data arrives, the way and the line it displaces being what the slice's tree bits
choose (R283); the merged requests are answered in merge order. Behind an atomic that holds the line nothing is answered;
at a slice that its bucket has left each request is answered with a REMAP NACK (R290). -/
def execLineFill (slice line : Nat) (_victim : Option Nat) (s : State) : Result :=
  let v := s.slice slice
  match Cells.find v.mshr line with
  | none => .next s
  | some reqs =>
    let s1 := s.setSlice slice { v with mshr := Cells.erase v.mshr line }
    if v.atomHolds line then .next s
    else if slice ≠ s.homeSlice line then
      .next (reqs.foldl (init := s1) fun s q => match q.kind with
        | .snoop k => s.serveSnoop line k
        | _ => s.remapNack q)
    else if hostLine line ∧ s.links.cld then .next (reqs.foldl (init := s1) fun s q => s.failReq q)
    else
      let first := reqs.takeWhile fun q => !q.snoops
      let own := first.any s.reqOwns
      let s2 := if first.isEmpty || s1.lineReady line own then s1 else s1.fillLine line (fillPolicy first) own
      let q := s2.serveMerged slice reqs
      let s3 := if q.1.isEmpty then q.2 else q.2.modSlice slice fun v => { v with mshr := Cells.put v.mshr line q.1 }
      .next (if (s3.slice slice).atomHolds line then s3 else s3.rest line)

/-- A response written to the target decks of a multicast's entry (R216, R292): a target left out is logged. -/
def State.writeTargets (s : State) (slot id : Nat) (targets : List (Nat × Nat)) (data : List Byte) : State :=
  let ctx := s.ownerCtx slot id
  targets.foldl (init := s) fun s t =>
    match s.mcastDeck ctx t.1 t.2 with
    | some a => (s.setBytesAt (.deck t.1) a data).modCore t.1 fun k =>
        { k with badDeck := k.badDeck.filter fun w => !(decide (a ≤ w) && decide (w + 8 ≤ a + data.length)) }
    | none => s.event (srcCore slot) 9 ctx (bytesOf 8 t.1 ++ bytesOf 8 t.2)

/-- A read of a line at its home by a multicast's crew (R279, R292). -/
def State.mcastRead (s : State) (line : Nat) (r : Nat × Nat × Nat) : State :=
  let h := s.homeRead line r.2.2
  h.2.2.modOwner r.1 r.2.1 fun c => { c with lts := max c.lts h.1 }

/-- MULTICAST_RESPONSE (R216, R292): the oldest list's response: the line is read once, every target deck written, every
entry acknowledged. -/
def execMulticastResponse (slice : Nat) (s : State) : Result :=
  let v := s.slice slice
  match v.mcast with
  | [] => .next s
  | m :: rest =>
    let s1 := s.setSlice slice { v with mcast := rest }
    if s1.poisoned m.line then .next (m.reqs.foldl (init := s1) fun s r => s.failEntry r.1 r.2.1 codePoison)
    else
      let s2 := m.reqs.foldl (init := s1.useLine m.line false) fun s r => s.mcastRead m.line r
      let data := s2.lineBytes m.line
      .next (m.reqs.foldl (init := s2) fun s r =>
        (s.writeTargets r.1 r.2.1 ((m.targets.filter fun t => t.1 == r.2.1).map (·.2)) data).post (.ack r.1 r.2.1 0))

/-! ## Decks (R218 to R220, R274) -/

/-- SCADD's new value (R219). -/
def scaddNew (t : Nat) (old v : Nat) : Nat :=
  match t with
  | 0 => (old + v) % 2 ^ 32
  | 1 => (fmt32.add 0 old v).1
  | 2 => (old + v) % 2 ^ 64
  | _ => (fmt64.add 0 old v).1

/-- The lane operations of an entry at a deck, in lane order. -/
def State.deckItems (s : State) (core : Nat) (op : EntryOp) (size : Nat) : List Item → List (Nat × DWord) × State
  | [] => ([], s)
  | i :: r =>
    let old := natOf (s.bytesAt (.deck core) i.addr size)
    match op with
    | .binapp =>
      let cap := field old 32 32
      let count := field old 0 32
      let res : DWord := if count < cap then BitVec.ofNat 64 count else 0xFFFFFFFF
      let s1 := if count < cap then s.setBytesAt (.deck core) i.addr (bytesOf 4 (count + 1)) else s
      let q := State.deckItems s1 core op size r
      ((i.lane, res) :: q.1, q.2)
    | .scadd t =>
      let new := scaddNew t.toNat old (i.data.toNat % 2 ^ (8 * size))
      State.deckItems (s.setBytesAt (.deck core) i.addr (bytesOf size new)) core op size r
    | _ => ([], s)

/-- Whether a lane of a load reads, past the bytes forwarded to it, a word of a deck or operand buffer with an uncorrectable
error (R428). -/
def State.readsBad (s : State) (sp : Space) (x : LaneLoad) : Bool :=
  let bad := match sp with
    | .deck k => (s.core k).badDeck
    | .obuf k => (s.core k).badObuf
    | _ => []
  !bad.isEmpty && (mapFrom (fun i (f : Option Byte) => f.isNone && bad.any fun w =>
    decide (w ≤ x.addr + i) && decide (x.addr + i < w + 8)) 0 x.fwd).any id

/-- Words rewritten lose their error (R428). -/
def State.clearBad (s : State) (sp : Space) (line : Nat) (bytes : List (Nat × Byte)) : State :=
  let keep (w : Nat) : Bool := !(upFrom 0 8).all fun i => bytes.any fun b => line + b.1 == w + i
  match sp with
  | .deck k => s.modCore k fun x => if x.badDeck.isEmpty then x else { x with badDeck := x.badDeck.filter keep }
  | .obuf k => s.modCore k fun x => if x.badObuf.isEmpty then x else { x with badObuf := x.badObuf.filter keep }
  | _ => s

/-- DECK_REQUEST (R218 to R220): the oldest request of a core's deck and operand buffer. -/
def execDeckRequest (core : Nat) (s : State) : Result :=
  let k := s.core core
  match k.deckq with
  | [] => .next s
  | d :: rest =>
    let s1 := s.setCore core { k with deckq := rest }
    match d with
    | .load slot id =>
      match (s1.crew? slot).bind fun c => c.loads.find? fun l => l.id == id with
      | none => .next s1
      | some l =>
        .next (s1.post (.load slot id
          (.partly (s1.bytesAt l.space l.line 128) ((l.lanes.filter (s1.readsBad l.space)).map (·.lane)))))
    | .entry slot id =>
      match s1.entry? slot id with
      | none => .next s1
      | some e =>
        match e.op with
        | .scadd _ | .binapp =>
          let q := s1.deckItems core e.op e.size e.items
          .next (q.2.answerAtom slot e q.1 0)
        | _ => .next (((s1.writeMask e.space e.line e.bytes).clearBad e.space e.line e.bytes).post (.ack slot id 0))

/-- RELAY_BEAT (R239, R289): a beat reaches its target core; it is dropped and logged when the core holds no
team of the context or the write would pass its deck. -/
def execRelayBeat (core : Nat) (s : State) : Result :=
  let k := s.core core
  match k.beats with
  | [] => .next s
  | b :: rest =>
    let s1 := s.setCore core { k with beats := rest }
    match s1.crews.find? fun e => coreOf e.1 == core && e.2.ctx == b.ctx && decide (b.off + b.data.length ≤ e.2.deckSize) with
    | some e => .next (s1.setBytesAt (.deck core) (e.2.deckBase + b.off) b.data)
    | none => .next (s1.event b.core 9 b.ctx (bytesOf 8 core ++ bytesOf 8 b.off))

/-! ## Retries (R287, R290) -/

/-- A response dropped on its way back (R287): its request counts as dropped, and its core's copy is sent again. -/
def State.dropResponse (s : State) (core : Nat) (msgs : Nat × Msg → Bool) (q : Req → Bool) : State :=
  match (s.core core).unanswered.find? q with
  | none => s
  | some r => { s with msgs := s.msgs.filter fun m => !msgs m }.backToCore r

/-- Whether a message answers an entry. -/
def Msg.answers (id : Nat) : Msg → Bool
  | .atomic _ e _ _ | .ack _ e _ => e == id
  | _ => false

/-- Whether a message tells an entry's lanes that their access was lost with its slice or its link (R291, R352). -/
def Msg.lost (id : Nat) : Msg → Bool
  | .atomic _ e _ (some code) => e == id && (code == codeRemaplost || code == codeLinkdown)
  | _ => false

/-- Whether a load's result was made where no request of it is left to be dropped (R291, R352). -/
def LoadResult.lost : LoadResult → Bool
  | .linkdown | .remaplost => true
  | .bytes _ | .partly _ _ | .poison | .hostatom => false

/-- Whether an entry's answer can still be dropped on the network (R287): an atomic's values and its acknowledgement are one
response; a multicast's acknowledgement comes from its targets, a PCIe AtomicOp's from the host (R355), and that of an atomic
lost with its slice or link from the Coxswain or the link (R291, R352). -/
def State.mayDropAck (s : State) (slot id : Nat) : Bool :=
  match s.entry? slot id with
  | none => false
  | some e =>
    match e.op with
    | .mcast _ => false
    | op =>
      !op.numbered || (s.resultsPending id && !(hostLine e.line && !e.cxl) && !(s.msgs.any fun m => m.2.lost id))

/-- NACK (R287): a dropped request, or a dropped response, whose request counts as dropped. -/
def execNack (core id : Nat) (s : State) : Result :=
  match s.slices.find? fun e => e.2.ingress.any fun q => q.id == id && q.core == core with
  | some e =>
    match e.2.ingress.find? fun q => q.id == id with
    | some q => .next ((s.setSlice e.1 { e.2 with ingress := e.2.ingress.erase q }).backToCore q)
    | none => .next s
  | none =>
    match Cells.find s.msgs id with
    | some (.load slot lid r) =>
      if coreOf slot ≠ core ∨ r.lost then .next s
      else .next (s.dropResponse core (fun m => m.1 == id) fun q => q.forLoad slot lid)
    | some (.ack slot eid _) | some (.atomic slot eid _ _) =>
      if coreOf slot ≠ core ∨ !s.mayDropAck slot eid then .next s
      else .next (s.dropResponse core (fun m => m.2.answers eid) fun q => q.forEntry eid)
    | _ => .next s

/-- A request sent again, by the path that the current map gives. -/
def State.resend (s : State) (core id : Nat) (remap : Bool) : State :=
  let k := s.core core
  match k.retry.find? fun r => r.req.id == id && r.remap == remap && decide (r.due ≤ s.cycle) with
  | none => s
  | some r =>
    let q := { r.req with gen := (s.die (homeDie r.req.line)).gen }
    let s1 := s.setCore core { k with
      retry := k.retry.erase r, unanswered := k.unanswered.map fun (x : Req) => if x.id = id then q else x }
    s1.arrive (s1.firstSlice q) q

/-- RETRY_RESEND (R287). -/
def execRetryResend (core id : Nat) (s : State) : Result := .next (s.resend core id false)

/-- REMAP_NACK (R290): not counted as an attempt. -/
def execRemapNack (core id : Nat) (s : State) : Result := .next (s.resend core id true)

/-! ## Slice maps (R290, R351) -/

/-- The lines of a die's slice that its buckets have left: their times go to the new owner; a dirty device line is written
back to the LLC, a dirty host line to the host, but a retired slice keeps its host lines for the flush buffer (R290, R351). -/
def State.leaveLine (s : State) (slice : Nat) (x : Nat × LineMeta) : State :=
  let v := s.slice slice
  let host := hostLine x.1 && x.2.present
  let s1 := if host && v.retired then s else s.modSlice slice fun v => { v with lines := Cells.erase v.lines x.1 }
  let s2 := if !x.2.dirty then s1
    else if !hostLine x.1 then s1.useLlc x.1 true
    else if host && !v.retired then s1.hostWrite x.1 x.2.data
    else s1
  s2.modLine x.1 fun m => { m with wts := max m.wts x.2.wts, rts := max m.rts x.2.rts }

/-- A slice's filters handed to a new owner of its buckets (R290). -/
def Slice.takeFilters (t v : Slice) : Slice :=
  { t with
    replay := t.replay ++ v.replay.filter fun f => !t.replay.contains f
    stores := t.stores ++ v.stores.filter fun f => !t.stores.contains f }

/-- A die's map switched, its slices' lines and filters handed to the slices that the new map gives (R290). -/
def State.rehome (s : State) (die : Nat) (new : List (Nat × Nat)) : State :=
  let d := s.die die
  let owners (e : Nat) : List Nat :=
    (upFrom 0 768).foldl (init := []) fun m b =>
      let k := Cells.get (b % 48) new b
      if d.mapped b = e % 48 ∧ k ≠ e % 48 ∧ !m.contains (48 * die + k) then m ++ [48 * die + k] else m
  let s1 := s.setDie die { d with map := new }
  (upFrom (48 * die) 48).foldl (init := s1) fun s e =>
    let v := s.slice e
    let s2 := if v.replay.isEmpty && v.stores.isEmpty then s
      else (owners e).foldl (init := s) fun s o => s.modSlice o fun t => t.takeFilters v
    (v.lines.filter fun x => s.homeSlice x.1 != e).foldl (init := s2) fun s x => s.leaveLine e x

/-- MAP_ACTIVATE (R290): every copy of a die's map switches at the activation cycle. -/
def execMapActivate (die : Nat) (s : State) : Result :=
  let d := s.die die
  match d.pending with
  | none => .next s
  | some p =>
    if s.cycle < p.cycle then .next s
    else
      let s1 := s.setDie die { d with gen := p.gen, pending := none }
      .next (s1.rehome die (mapFrom (fun b e => (b, e)) 0 p.map))

/-- Whether a request of an older generation is left at a die: in a miss-status table, an ingress queue, or among the copies
that retry buffers keep (R287, R290). -/
def State.oldGen (s : State) (die : Nat) : Bool :=
  let g := (s.die die).gen
  let old (q : Req) : Bool := homeDie q.line == die && q.gen != g
  (s.slices.any fun e => e.2.ingress.any old || e.2.mshr.any fun m => m.2.any old)
    || s.cores.any fun k => k.2.unanswered.any old || k.2.retry.any fun r => old r.req

/-- The lines of a flush buffer (R351). -/
def flushRoom : Nat := 32

/-- A gating slice's dirty host lines put into its flush buffer as far as it has room; its clean host lines are dropped
(R351). -/
def Slice.fillFlush (v : Slice) : Slice :=
  let host := v.lines.filter fun e => hostLine e.1 && e.2.present
  let move := ((host.filter fun e => e.2.dirty).take (flushRoom - v.flush.length)).map fun e => (e.1, e.2.data)
  let gone (e : Nat × LineMeta) : Bool := hostLine e.1 && e.2.present && (!e.2.dirty || move.any fun m => m.1 == e.1)
  { v with lines := v.lines.filter fun e => !gone e, flush := move.foldl (fun f m => Cells.put f m.1 m.2) v.flush }

/-- SLICE_RETIRE_COMPLETE (R290, R351): once no request of an older generation remains, a retired slice begins
to gate, its dirty host-homed lines moving to the flush buffer. -/
def execSliceRetireComplete (slice : Nat) (s : State) : Result :=
  let v := s.slice slice
  if !v.retired || v.gating || (s.die (slice / 48)).pending.isSome || s.oldGen (slice / 48) then .next s
  else .next (s.setSlice slice { v.fillFlush with gating := true })

/-- SLICE_POWER_DOWN (R351): one line of the flush buffer is written back to the host; with the buffer empty and no dirty
line left the slice is off. -/
def execSlicePowerDown (slice : Nat) (s : State) : Result :=
  let v := s.slice slice
  if !v.gating || v.off || !v.ingress.isEmpty || !v.mshr.isEmpty || !v.serving.isEmpty || !v.mcast.isEmpty then .next s
  else
    match v.flush with
    | [] => .next (s.setSlice slice { v with off := true })
    | f :: rest => .next ((s.hostWrite f.1 f.2).setSlice slice { v with flush := rest }.fillFlush)

/-! ## Mailboxes (R68, R227) -/

/-- The slot and lane of the thread with a global identifier in a grid (R25). -/
def State.threadOf (s : State) (grid : Word) (g : Nat) : Option (Nat × Nat) :=
  (s.crews.find? fun e => e.2.grid == grid && e.2.team == g / 1024 && e.2.crew == g % 1024 / 64).map
    fun e => (e.1, g % 64)

/-- A value delivered to a mailbox register, tagged P (R68). -/
def Crew.mail (c : Crew) (lane m : Nat) (v : Word) : Crew :=
  (c.modThread lane fun t => t.put (8 + m) v).tagP [8 + m]

/-- One lane's delivery: to a resident thread, a saved one, or dropped and counted (R68, R227). -/
def State.deliverMail (s : State) (grid : Word) (g m : Nat) (v : Word) : State :=
  match s.threadOf grid g with
  | some (slot, lane) =>
    match s.crew? slot with
    | none => s
    | some c =>
      if (c.thread lane).st = .exited then { s with rm := { s.rm with dropped := s.rm.dropped + 1 } }
      else s.setCrew slot (c.mail lane m v)
  | none =>
    let hit (c : Crew) : Bool := c.grid == grid && c.team == g / 1024 && c.crew == g % 1024 / 64
      && (c.thread (g % 64)).st != .exited
    if s.rm.saved.any fun x => x.crews.any fun w => hit w.crew then
      s.modSaved fun c => if hit c then c.mail (g % 64) m v else c
    else { s with rm := { s.rm with dropped := s.rm.dropped + 1 } }

/-- MAILBOX_DELIVERY (R68, R227): deliveries in lane order, then the acknowledgement. -/
def execMailboxDelivery (id : Nat) (s : State) : Result :=
  match Cells.find s.msgs id with
  | some (.mailbox slot eid) =>
    let s1 := s.dropMsg id
    match s1.owner? slot eid with
    | none => .next s1
    | some c =>
      match c.entry? eid with
      | none => .next s1
      | some e =>
        match e.op with
        | .rput m =>
          let s2 := e.items.foldl (init := s1) fun s i => s.deliverMail c.grid e.line m (i.data.setWidth 32)
          .next (s2.post (.ack slot eid 0))
        | _ => .next s1
  | _ => .next s

/-! ## Walks (R377, R378) -/

/-- PAGE_WALK (R377, R378): a walk for a lane's context that succeeds fills the TLBs; one that faults leaves no
entry. -/
def execPageWalk (slot _lane : Nat) (va : DWord) (kind : WalkKind) (s : State) : Result :=
  match s.crew? slot with
  | none => .next s
  | some c => .next (s.translate (coreOf slot) c.ctx va.toNat kind).2

/-! ## Completion steps that read memory (R199, R201, R202, R440) -/

/-- The oldest step of a kind of a slot's crew whose reads have all come back, taken out. A lane that a fault of an
earlier access has taken away from the step waits for it no longer. -/
def State.takeStep (s : State) (slot : Nat) (ok : StepKind → Bool) : Option (Crew × Pending × State) :=
  match s.crew? slot with
  | none => none
  | some c =>
    match c.steps.find? fun p => ok p.kind with
    | none => none
    | some p =>
      if !p.due.isEmpty then none
      else
        let c1 := { c with steps := c.steps.erase p }
        let here := p.lanes.filter fun l => !c1.steps.any fun q => decide (p.id < q.id) && q.lanes.contains l
        some (c1, { p with lanes := here }, s.setCrew slot c1)

/-- A lane of a step that still waits for it: its PC is the word's and it has not been trapped away. -/
def Crew.stillOutside (c : Crew) (lane : Nat) : Bool := (c.thread lane).outside

/-- What a step's read brought for a lane. -/
def Pending.data (p : Pending) (lane : Nat) : Option StepData := Cells.find p.got lane

/-- ERET's effect from its record (R199). -/
def eretThread (t : Thread) (rec : List Byte) : Option Thread :=
  let word (off : Nat) : Nat := natOf ((rec.drop off).take 4)
  let kinds := natOf ((rec.drop 24).take 1)
  let resume := word 16
  if resume % 4 ≠ 0 ∨ 32 ≤ kinds then none
  else
    let p (n off : Nat) : Option (BitVec 22) := if kinds.testBit n then some (BitVec.ofNat 22 (word off)) else none
    some { t with
      depth := t.depth - 1, trap := false, outside := false, pc := BitVec.ofNat 32 resume
      hints := ⟨p 0 28, p 1 32, p 2 36, p 3 40, p 4 44⟩ }

/-- ERET_RECORD_RETURN (R66, R199): each lane resumes, or takes a double fault. -/
def execEretRecordReturn (slot : Nat) (s : State) : Result :=
  match s.takeStep slot fun k => k == .eret with
  | none => .next s
  | some (_, p, s1) =>
    .next (p.lanes.foldl (init := s1) fun s l =>
      match s.crew? slot with
      | none => s
      | some c1 =>
        if !c1.stillOutside l then s
        else
          match p.data l with
          | none => s
          | some (.fault t) => s.takeFault slot l t p.pc (c1.thread l).hints p.cycle
          | some (.bytes rec) =>
            match eretThread (c1.thread l) rec with
            | some t => s.modCrew slot fun c => c.setThread l t
            | none => { s.takeFault slot l { code := Config.freeByte s.fresh } p.pc (c1.thread l).hints p.cycle with fresh := s.fresh + 1 })

/-- A frame's entries from 64 bytes, in entry order. -/
def Thread.putFrame (t : Thread) (f : Nat) (bytes : List Byte) : Thread :=
  (upFrom 0 16).foldl (fun t e => t.put (16 + 16 * (f % 7) + e) (BitVec.ofNat 32 (natOf ((bytes.drop (4 * e)).take 4)))) t

/-- FILLF_RETURN (R65, R201): each lane's LO goes down and its frame is filled, every entry tagged P; a lane whose load
faulted keeps its LO (log 23). -/
def execFillfReturn (slot : Nat) (s : State) : Result :=
  match s.takeStep slot fun k => k == .fillf with
  | none => .next s
  | some (_, p, s1) =>
    .next (p.lanes.foldl (init := s1) fun s l =>
      match s.crew? slot with
      | none => s
      | some c1 =>
        if !c1.stillOutside l then s
        else
          let t := c1.thread l
          let f := t.lo - 1
          match p.data l with
          | none => s
          | some (.fault e) => s.takeFault slot l e p.pc t.hints p.cycle
          | some (.bytes bytes) =>
            s.modCrew slot fun c =>
              (c.setThread l { (t.putFrame f bytes).next with lo := f, outside := false }).tagP
                ((upFrom 0 16).map fun e => 16 + 16 * (f % 7) + e))

/-- The grid with a serial. -/
def State.grid? (s : State) (serial : Nat) : Option Grid := s.rm.grids.find? fun g => g.serial == serial

/-- The queue a crew's grid was launched through (R330). -/
def State.gridQueue (s : State) (c : Crew) : Nat := ((s.grid? c.grid.toNat).map (·.queue)).getD 0

/-- LAUNCH_RECORD_RETURN (R202, R330): the record goes to the parent's queue's child list. -/
def execLaunchRecordReturn (slot : Nat) (s : State) : Result :=
  match s.takeStep slot fun k => match k with
    | .launch _ => true
    | _ => false with
  | none => .next s
  | some (c, p, s1) =>
    match p.kind with
    | .launch a =>
      .next (p.lanes.foldl (init := s1) fun s l =>
        if !c.stillOutside l then s
        else
          match p.data l with
          | none => s
          | some (.fault t) =>
            let t1 : Trap := if t.code = codeXlateR then t
              else { code := codeXlateR, addr := a, ext := Config.freeByte s.fresh }
            { s.takeFault slot l t1 p.pc (c.thread l).hints p.cycle with fresh := s.fresh + 1 }
          | some (.bytes bytes) =>
            let r : LaunchRecord := ⟨BitVec.ofNat 512 (natOf bytes), a.toNat, .child c.grid.toNat (c.depth + 1), c.lts⟩
            let q := s.gridQueue c
            let s2 := s.setQueue q { s.queue q with children := (s.queue q).children ++ [r] }
            s2.modCrew slot fun c => c.modThread l fun t => { t.next with outside := false })
    | _ => .next s

end Sys2Proof.Machine
end

