-- ==== Sys2Proof/Machine/FloatWords.lean ====
section
/-! DEFINITION. Crew operations (R176 to R179) and floating-point words (R180 to R183). -/

namespace Sys2Proof.Machine

/-! ## Crew operations: every source is read in all lanes before a write; all four strokes issue (R176) -/

/-- The frame of a crew-class word: active lanes and an effect, then all run lanes in sequence, 4 c. -/
def State.crewWord (s : State) (g : Guard) (k : Crew → List Nat → Crew) : Result :=
  s.wordFrame noImmx fun s slot c lanes =>
    (s.setCrew slot ((k c (c.active lanes g)).next lanes)).spend 4

/-- A 32-bit or 64-bit result written by a crew operation, tagged P (R69, R176). -/
def Crew.crewWrite (c : Crew) (act : List Nat) (d : Reg) (wide : Bool) (f : Nat → DWord) : Crew :=
  c.writeResults act d wide false f

/-- VOTE_ANY (R177). -/
def execVoteAny (g : Guard) (x y : BitVec 3) (s : State) : Result :=
  s.crewWord g fun c act =>
    let v := act.any fun l => (c.thread l).pred y.toNat
    c.modLanes act fun _ t => t.setPred x.toNat v

/-- VOTE_ALL (R177). -/
def execVoteAll (g : Guard) (x y : BitVec 3) (s : State) : Result :=
  s.crewWord g fun c act =>
    let v := act.all fun l => (c.thread l).pred y.toNat
    c.modLanes act fun _ t => t.setPred x.toNat v

/-- The mask of lanes in a list. -/
def laneMask (lanes : List Nat) : DWord := lanes.foldl (fun m l => m ||| ((1 : DWord) <<< l)) 0

/-- BALLOT (R177). -/
def execBallot (g : Guard) (x : Reg) (y : BitVec 3) (s : State) : Result :=
  s.crewWord g fun c act =>
    let v := laneMask (act.filter fun l => (c.thread l).pred y.toNat)
    c.crewWrite act x true fun _ => v

/-- ELECT (R177). -/
def execElect (g : Guard) (x : BitVec 3) (s : State) : Result :=
  s.crewWord g fun c act => c.modLanes act fun l t => t.setPred x.toNat (act.head? == some l)

/-- SHFL (R178): the value of the source lane when it is active, else the lane's own. -/
def State.shflWord (s : State) (g : Guard) (x y : Reg) (src : Crew → Nat → Nat) : Result :=
  s.crewWord g fun c act =>
    c.crewWrite act x false fun l =>
      let n := src c l
      lo32 (c.read32 (c.thread (if act.contains n then n else l)) y)

/-- SHFL_IDX (R178). -/
def execShflIdx (g : Guard) (x y k : Reg) (s : State) : Result := s.shflWord g x y fun _ _ => k.toNat

/-- SHFL_UP (R178). -/
def execShflUp (g : Guard) (x y k : Reg) (s : State) : Result :=
  s.shflWord g x y fun _ l => if l < k.toNat then l else l - k.toNat

/-- SHFL_DOWN (R178). -/
def execShflDown (g : Guard) (x y k : Reg) (s : State) : Result :=
  s.shflWord g x y fun _ l => if 63 < l + k.toNat then l else l + k.toNat

/-- SHFL_XOR (R178). -/
def execShflXor (g : Guard) (x y k : Reg) (s : State) : Result := s.shflWord g x y fun _ l => l ^^^ k.toNat

/-- SHFL_VAR (R178): the source lane is bits [5:0] of the lane's x, read before the write. -/
def execShflVar (g : Guard) (x y : Reg) (s : State) : Result :=
  s.shflWord g x y fun c l => (c.read32 (c.thread l) x).toNat % 64

/-- The format of a TYPE code of FRED and FCMP (R156, R157). -/
def fmtOfType (t : BitVec 2) : Fmt :=
  match t.toNat with
  | 0 => fmt32
  | 1 => fmt64
  | 2 => fmt16
  | _ => fmtB16

/-- A source as bits of a format: 16-bit types from bits [15:0] (R166). -/
def Crew.readFp (c : Crew) (t : Thread) (f : Fmt) (r : Reg) : Nat :=
  if f.frac = 52 then (c.read64 t r).toNat
  else if f.frac = 23 then (c.read32 t r).toNat
  else (c.read32 t r).toNat % 65536

/-- FRED (R179): the canonical tree over 64 lanes, absent lanes −0 for ADD; every flag goes to every active
lane. -/
def execFred (g : Guard) (x y : Reg) (t : BitVec 2) (o : BitVec 2) (s : State) : Result :=
  s.crewWord g fun c act =>
    let f := fmtOfType t
    match act with
    | [] => c
    | l0 :: _ =>
      let rm := (c.thread l0).rm
      let v (l : Nat) : Option Nat := if act.contains l then some (c.readFp (c.thread l) f y) else none
      let r :=
        if o = 0 then canonicalSum f rm ((upFrom 0 64).map fun l => (v l).getD (f.signBit true))
        else canonicalMinmax f (o == 2) ((upFrom 0 64).map v)
      let r1 := if (f.val r.1).isNan then f.nan else r.1
      let c1 := c.crewWrite act x (f.frac == 52) fun _ => BitVec.ofNat 64 r1
      c1.modLanes act fun _ th => { th with fpflags := th.fpflags ||| BitVec.ofNat 32 r.2 }

/-! ## Floating-point words -/

/-- A result as a register value. -/
def fpOut (r : Nat × Nat) : DWord × Nat := (BitVec.ofNat 64 r.1, r.2)

/-- FFMA: a MODX that names an odd C for F64 raises UNDEF (R57, R136). -/
def oddThird (t : Thread) : Bool :=
  noImmx t || (match t.hints.modx with
    | some p => p.getLsbD 9 && p.getLsbD 3 && !(p.getLsbD 8 && p.getLsbD 7)
    | Option.none => false)

/-- FADD_F32 (R103, R180). -/
def execFaddF32 (g : Guard) (d a b : Reg) (s : State) : Result :=
  s.fpWord (.faddF32 g d a b) noImmx g d false 1 fun c _ t =>
    fpOut (fmt32.add t.rm (c.readFp t fmt32 a) (c.readFp t fmt32 b))

/-- FSUB_F32 (R103, R180). -/
def execFsubF32 (g : Guard) (d a b : Reg) (s : State) : Result :=
  s.fpWord (.fsubF32 g d a b) noImmx g d false 1 fun c _ t =>
    fpOut (fmt32.sub t.rm (c.readFp t fmt32 a) (c.readFp t fmt32 b))

/-- FMUL_F32 (R103, R180). -/
def execFmulF32 (g : Guard) (d a b : Reg) (s : State) : Result :=
  s.fpWord (.fmulF32 g d a b) noImmx g d false 1 fun c _ t =>
    fpOut (fmt32.mul t.rm (c.readFp t fmt32 a) (c.readFp t fmt32 b))

/-- FFMA_F32 (R136, R180): the addend is the register MODX names, else d. -/
def execFfmaF32 (g : Guard) (d a b : Reg) (s : State) : Result :=
  s.fpWord (.ffmaF32 g d a b) noImmx g d false 1 fun c _ t =>
    fpOut (fmt32.fma t.rm (c.readFp t fmt32 a) (c.readFp t fmt32 b) (c.readFp t fmt32 (t.third d)))

/-- FMIN_F32 (R103, R180). -/
def execFminF32 (g : Guard) (d a b : Reg) (s : State) : Result :=
  s.fpWord (.fminF32 g d a b) noImmx g d false 1 fun c _ t =>
    fpOut (fmt32.minmax false (c.readFp t fmt32 a) (c.readFp t fmt32 b))

/-- FMAX_F32 (R103, R180). -/
def execFmaxF32 (g : Guard) (d a b : Reg) (s : State) : Result :=
  s.fpWord (.fmaxF32 g d a b) noImmx g d false 1 fun c _ t =>
    fpOut (fmt32.minmax true (c.readFp t fmt32 a) (c.readFp t fmt32 b))

/-- FADD_F64 (R103, R180). -/
def execFaddF64 (g : Guard) (d a b : Reg) (s : State) : Result :=
  s.fpWord (.faddF64 g d a b) noImmx g d true 2 fun c _ t =>
    fpOut (fmt64.add t.rm (c.readFp t fmt64 a) (c.readFp t fmt64 b))

/-- FSUB_F64 (R103, R180). -/
def execFsubF64 (g : Guard) (d a b : Reg) (s : State) : Result :=
  s.fpWord (.fsubF64 g d a b) noImmx g d true 2 fun c _ t =>
    fpOut (fmt64.sub t.rm (c.readFp t fmt64 a) (c.readFp t fmt64 b))

/-- FMUL_F64 (R103, R180). -/
def execFmulF64 (g : Guard) (d a b : Reg) (s : State) : Result :=
  s.fpWord (.fmulF64 g d a b) noImmx g d true 2 fun c _ t =>
    fpOut (fmt64.mul t.rm (c.readFp t fmt64 a) (c.readFp t fmt64 b))

/-- FFMA_F64 (R136, R180): the addend is the register MODX names, else d. -/
def execFfmaF64 (g : Guard) (d a b : Reg) (s : State) : Result :=
  s.fpWord (.ffmaF64 g d a b) oddThird g d true 2 fun c _ t =>
    fpOut (fmt64.fma t.rm (c.readFp t fmt64 a) (c.readFp t fmt64 b) (c.readFp t fmt64 (t.third d)))

/-- FMIN_F64 (R103, R180). -/
def execFminF64 (g : Guard) (d a b : Reg) (s : State) : Result :=
  s.fpWord (.fminF64 g d a b) noImmx g d true 2 fun c _ t =>
    fpOut (fmt64.minmax false (c.readFp t fmt64 a) (c.readFp t fmt64 b))

/-- FMAX_F64 (R103, R180). -/
def execFmaxF64 (g : Guard) (d a b : Reg) (s : State) : Result :=
  s.fpWord (.fmaxF64 g d a b) noImmx g d true 2 fun c _ t =>
    fpOut (fmt64.minmax true (c.readFp t fmt64 a) (c.readFp t fmt64 b))

/-- FADD_F16 (R103, R180). -/
def execFaddF16 (g : Guard) (d a b : Reg) (s : State) : Result :=
  s.fpWord (.faddF16 g d a b) noImmx g d false 1 fun c _ t =>
    fpOut (fmt16.add t.rm (c.readFp t fmt16 a) (c.readFp t fmt16 b))

/-- FSUB_F16 (R103, R180). -/
def execFsubF16 (g : Guard) (d a b : Reg) (s : State) : Result :=
  s.fpWord (.fsubF16 g d a b) noImmx g d false 1 fun c _ t =>
    fpOut (fmt16.sub t.rm (c.readFp t fmt16 a) (c.readFp t fmt16 b))

/-- FMUL_F16 (R103, R180). -/
def execFmulF16 (g : Guard) (d a b : Reg) (s : State) : Result :=
  s.fpWord (.fmulF16 g d a b) noImmx g d false 1 fun c _ t =>
    fpOut (fmt16.mul t.rm (c.readFp t fmt16 a) (c.readFp t fmt16 b))

/-- FFMA_F16 (R136, R180): the addend is the register MODX names, else d. -/
def execFfmaF16 (g : Guard) (d a b : Reg) (s : State) : Result :=
  s.fpWord (.ffmaF16 g d a b) noImmx g d false 1 fun c _ t =>
    fpOut (fmt16.fma t.rm (c.readFp t fmt16 a) (c.readFp t fmt16 b) (c.readFp t fmt16 (t.third d)))

/-- FMIN_F16 (R103, R180). -/
def execFminF16 (g : Guard) (d a b : Reg) (s : State) : Result :=
  s.fpWord (.fminF16 g d a b) noImmx g d false 1 fun c _ t =>
    fpOut (fmt16.minmax false (c.readFp t fmt16 a) (c.readFp t fmt16 b))

/-- FMAX_F16 (R103, R180). -/
def execFmaxF16 (g : Guard) (d a b : Reg) (s : State) : Result :=
  s.fpWord (.fmaxF16 g d a b) noImmx g d false 1 fun c _ t =>
    fpOut (fmt16.minmax true (c.readFp t fmt16 a) (c.readFp t fmt16 b))

/-- FADD_BF16 (R103, R180). -/
def execFaddBf16 (g : Guard) (d a b : Reg) (s : State) : Result :=
  s.fpWord (.faddBf16 g d a b) noImmx g d false 1 fun c _ t =>
    fpOut (fmtB16.add t.rm (c.readFp t fmtB16 a) (c.readFp t fmtB16 b))

/-- FSUB_BF16 (R103, R180). -/
def execFsubBf16 (g : Guard) (d a b : Reg) (s : State) : Result :=
  s.fpWord (.fsubBf16 g d a b) noImmx g d false 1 fun c _ t =>
    fpOut (fmtB16.sub t.rm (c.readFp t fmtB16 a) (c.readFp t fmtB16 b))

/-- FMUL_BF16 (R103, R180). -/
def execFmulBf16 (g : Guard) (d a b : Reg) (s : State) : Result :=
  s.fpWord (.fmulBf16 g d a b) noImmx g d false 1 fun c _ t =>
    fpOut (fmtB16.mul t.rm (c.readFp t fmtB16 a) (c.readFp t fmtB16 b))

/-- FFMA_BF16 (R136, R180): the addend is the register MODX names, else d. -/
def execFfmaBf16 (g : Guard) (d a b : Reg) (s : State) : Result :=
  s.fpWord (.ffmaBf16 g d a b) noImmx g d false 1 fun c _ t =>
    fpOut (fmtB16.fma t.rm (c.readFp t fmtB16 a) (c.readFp t fmtB16 b) (c.readFp t fmtB16 (t.third d)))

/-- FMIN_BF16 (R103, R180). -/
def execFminBf16 (g : Guard) (d a b : Reg) (s : State) : Result :=
  s.fpWord (.fminBf16 g d a b) noImmx g d false 1 fun c _ t =>
    fpOut (fmtB16.minmax false (c.readFp t fmtB16 a) (c.readFp t fmtB16 b))

/-- FMAX_BF16 (R103, R180). -/
def execFmaxBf16 (g : Guard) (d a b : Reg) (s : State) : Result :=
  s.fpWord (.fmaxBf16 g d a b) noImmx g d false 1 fun c _ t =>
    fpOut (fmtB16.minmax true (c.readFp t fmtB16 a) (c.readFp t fmtB16 b))

/-- FDIV_F32 (R181). -/
def execFdivF32 (g : Guard) (d a b : Reg) (s : State) : Result :=
  s.fpWord (.fdivF32 g d a b) noImmx g d false 4 fun c _ t =>
    fpOut (fmt32.div t.rm (c.readFp t fmt32 a) (c.readFp t fmt32 b))

/-- FSQRT_F32 (R181). -/
def execFsqrtF32 (g : Guard) (d a : Reg) (s : State) : Result :=
  s.fpWord (.fsqrtF32 g d a) noImmx g d false 4 fun c _ t =>
    fpOut (fmt32.sqrt t.rm (c.readFp t fmt32 a))

/-- FRCP_F32 (R181). -/
def execFrcpF32 (g : Guard) (d a : Reg) (s : State) : Result :=
  s.fpWord (.frcpF32 g d a) noImmx g d false 4 fun c _ t =>
    fpOut (fmt32.rcp t.rm (c.readFp t fmt32 a))

/-- FROUND_F32 (R181). -/
def execFroundF32 (g : Guard) (d a : Reg) (s : State) : Result :=
  s.fpWord (.froundF32 g d a) noImmx g d false 4 fun c _ t =>
    fpOut (fmt32.toIntegral t.rm (c.readFp t fmt32 a))

/-- FDIV_F64 (R181). -/
def execFdivF64 (g : Guard) (d a b : Reg) (s : State) : Result :=
  s.fpWord (.fdivF64 g d a b) noImmx g d true 4 fun c _ t =>
    fpOut (fmt64.div t.rm (c.readFp t fmt64 a) (c.readFp t fmt64 b))

/-- FSQRT_F64 (R181). -/
def execFsqrtF64 (g : Guard) (d a : Reg) (s : State) : Result :=
  s.fpWord (.fsqrtF64 g d a) noImmx g d true 4 fun c _ t =>
    fpOut (fmt64.sqrt t.rm (c.readFp t fmt64 a))

/-- FRCP_F64 (R181). -/
def execFrcpF64 (g : Guard) (d a : Reg) (s : State) : Result :=
  s.fpWord (.frcpF64 g d a) noImmx g d true 4 fun c _ t =>
    fpOut (fmt64.rcp t.rm (c.readFp t fmt64 a))

/-- FROUND_F64 (R181). -/
def execFroundF64 (g : Guard) (d a : Reg) (s : State) : Result :=
  s.fpWord (.froundF64 g d a) noImmx g d true 4 fun c _ t =>
    fpOut (fmt64.toIntegral t.rm (c.readFp t fmt64 a))

/-- FRSQ (R106, R181). -/
def execFrsq (g : Guard) (d a : Reg) (s : State) : Result :=
  s.fpWord (.frsq g d a) noImmx g d false 4 fun c _ t =>
    fpOut (frsq t.rm (c.read32 t a).toNat)

/-- FEX2 (R107, R181). -/
def execFex2 (g : Guard) (d a : Reg) (s : State) : Result :=
  s.fpWord (.fex2 g d a) noImmx g d false 4 fun c _ t =>
    fpOut (fex2 t.rm (c.read32 t a).toNat)

/-- FLG2 (R108, R181). -/
def execFlg2 (g : Guard) (d a : Reg) (s : State) : Result :=
  s.fpWord (.flg2 g d a) noImmx g d false 4 fun c _ t =>
    fpOut (flg2 t.rm (c.read32 t a).toNat)

/-- FCLASS_F32 (R181): one bit of ten, no flag. -/
def execFclassF32 (g : Guard) (d a : Reg) (s : State) : Result :=
  s.fpWord (.fclassF32 g d a) noImmx g d false 4 fun c _ t =>
    (BitVec.ofNat 64 (fmt32.classify (c.readFp t fmt32 a)), 0)

/-- FCLASS_F64 (R181): one bit of ten, no flag. -/
def execFclassF64 (g : Guard) (d a : Reg) (s : State) : Result :=
  s.fpWord (.fclassF64 g d a) noImmx g d false 4 fun c _ t =>
    (BitVec.ofNat 64 (fmt64.classify (c.readFp t fmt64 a)), 0)

/-- FCLASS_F16 (R181): one bit of ten, no flag. -/
def execFclassF16 (g : Guard) (d a : Reg) (s : State) : Result :=
  s.fpWord (.fclassF16 g d a) noImmx g d false 4 fun c _ t =>
    (BitVec.ofNat 64 (fmt16.classify (c.readFp t fmt16 a)), 0)

/-- FCLASS_BF16 (R181): one bit of ten, no flag. -/
def execFclassBf16 (g : Guard) (d a : Reg) (s : State) : Result :=
  s.fpWord (.fclassBf16 g d a) noImmx g d false 4 fun c _ t =>
    (BitVec.ofNat 64 (fmtB16.classify (c.readFp t fmtB16 a)), 0)

/-- FCMP (R182). A write to %p0 is discarded. -/
def execFcmp (g : Guard) (x y : Reg) (p cc : BitVec 3) (t : BitVec 2) (s : State) : Result :=
  s.predWord (.fcmp g x y p cc t) g p.toNat 1 true fun c _ th =>
    (fmtOfType t).compare cc.toNat (c.readFp th (fmtOfType t) x) (c.readFp th (fmtOfType t) y)

/-- The FCVT type codes of R156: integer types as width and signedness, floating-point types as formats. -/
inductive CvtType where
  | int (bits : Nat) (signed : Bool)
  | float (f : Fmt)
deriving DecidableEq, Repr

/-- 0 I32, 1 N32, 2 I64, 3 N64, 4 F16, 5 BF16, 6 F32, 7 F64, 8 I8, 9 N8, 10 I16, 11 N16 (R156). -/
def cvtType (t : BitVec 4) : CvtType :=
  match t.toNat with
  | 0 => .int 32 true
  | 1 => .int 32 false
  | 2 => .int 64 true
  | 3 => .int 64 false
  | 4 => .float fmt16
  | 5 => .float fmtB16
  | 6 => .float fmt32
  | 7 => .float fmt64
  | 8 => .int 8 true
  | 9 => .int 8 false
  | 10 => .int 16 true
  | _ => .int 16 false

/-- The value of a source of FCVT (R183): an exact integer or a floating-point value. -/
def Crew.cvtSource (c : Crew) (t : Thread) (k : CvtType) (r : Reg) : FVal :=
  match k with
  | .float f => f.val (c.readFp t f r)
  | .int n sg =>
    let v := if n = 64 then (c.read64 t r).toNat else (c.read32 t r).toNat % 2 ^ n
    let i : Int := if sg ∧ 2 ^ (n - 1) ≤ v then (v : Int) - (2 ^ n : Nat) else v
    .fin (decide (i < 0)) i.natAbs 0

/-- The result of FCVT (R104, R183): narrow integers are sign- or zero-extended to 32 bits. -/
def cvtResult (rm : Nat) (k : CvtType) (v : FVal) : DWord × Nat :=
  match k with
  | .float f => fpOut (f.ofVal rm v)
  | .int n sg =>
    let r := toInt rm (if sg then -(2 ^ (n - 1) : Nat) else 0)
      (if sg then (2 ^ (n - 1) : Nat) - 1 else (2 ^ n : Nat) - 1) v
    (BitVec.ofInt 64 r.1, r.2)

/-- FCVT (R104, R183). -/
def execFcvt (g : Guard) (x y : Reg) (t st : BitVec 4) (s : State) : Result :=
  s.fpWord (.fcvt g x y t st) noImmx g x (cvtCls t == .pair) 1 fun c _ th =>
    cvtResult th.rm (cvtType t) (c.cvtSource th (cvtType st) y)

end Sys2Proof.Machine
end

