-- ==== Sys2Proof/Machine/Sx.lean ====
section
/-! DEFINITION. SX blocks (R109 to R111) and the words that pack and unpack them (R184). -/

namespace Sys2Proof.Machine

/-- Magnitude width of a format code: SX2, SX4, SX7 (R109, R156). -/
def sxWidth (f : Nat) : Nat :=
  match f with
  | 0 => 2
  | 1 => 4
  | _ => 7

/-- Block size in bytes by magnitude width (R109 table 4). -/
def sxSize (m : Nat) : Nat := 2 + 2 * (1 + m)

/-- A magnitude as an exact number, ±∞ taken as 2^128 (R111). -/
def sxMag (b : Nat) : Nat × Int :=
  match fmt32.val b with
  | .fin _ m e => (m, e)
  | _ => (1, 128)

/-- floor(log2) of a nonzero magnitude. -/
def magLog (a : Nat × Int) : Int := a.2 + Nat.log2 a.1

/-- Clamp an integer. -/
def clampInt (lo hi v : Int) : Int := if v < lo then lo else if hi < v then hi else v

/-- The largest floor(log2) among nonzero magnitudes. -/
def maxLog (l : List (Nat × Int)) : Option Int :=
  l.foldl (fun o a => if a.1 = 0 then o else
    match o with
    | none => some (magLog a)
    | some v => some (max v (magLog a))) none

/-- Sub-scale of a quad (R111). -/
def sxSub (e : Int) (quad : List (Nat × Int)) : Nat :=
  match maxLog quad with
  | none => 3
  | some l => (clampInt 0 3 (e - 127 - l)).toNat

/-- One element's field and whether its value differs from x (R111). -/
def sxElement (m : Nat) (e : Int) (sub : Nat) (b : Nat) : Nat × Bool :=
  let a := sxMag b
  let r := roundAt 0 false a.1 (a.2 + (m - 1) - (e - 127 - sub)) 0
  let mm := min r.1 (2 ^ m - 1)
  let isInf := match fmt32.val b with
    | .inf _ => true
    | _ => false
  ((if b.testBit 31 then 2 ^ m else 0) + mm, a.1 != 0 && (r.2 || r.1 != mm || isInf))

/-- sx_encode (R111): the block's bytes and the flags NV, OF, NX. -/
def sxEncode (m : Nat) (x : List Nat) : List Byte × Nat :=
  if x.any fun b => (fmt32.val b).isNan then (255 :: bytesOf (sxSize m - 1) 0, flagNV)
  else
    let a := x.map sxMag
    let ov := x.any fun b => match fmt32.val b with
      | .inf _ => true
      | _ => false
    let e : Int := match maxLog a with
      | none => 0
      | some l => clampInt 0 254 (l + 127)
    let sub (q : Nat) : Nat := sxSub e ((a.drop (4 * q)).take 4)
    let els := mapFrom (fun k b => sxElement m e (sub (k / 4)) b) 0 x
    let area := (mapFrom (fun k (p : Nat × Bool) => p.1 * 2 ^ ((1 + m) * k)) 0 els).foldl (· + ·) 0
    let sigma := sub 0 + sub 1 * 4 + sub 2 * 16 + sub 3 * 64
    (BitVec.ofNat 8 e.toNat :: BitVec.ofNat 8 sigma :: bytesOf (sxSize m - 2) area,
      (if ov then flagOF else 0) ||| (if els.any (·.2) then flagNX else 0))

/-- Element k of a block (R110). -/
def sxDecode (m : Nat) (blk : List Byte) (k : Nat) : FVal :=
  let e := (blk.getD 0 0).toNat
  if e = 255 then .nan false
  else
    let sub := field (blk.getD 1 0).toNat (2 * (k / 4)) 2
    let el := field (natOf (blk.drop 2)) ((1 + m) * k) (1 + m)
    .fin (el.testBit m) (el % 2 ^ m) ((e : Int) - 127 - sub - (m - 1))

/-- The 16 lanes of a stroke. -/
def strokeLanes (k : Nat) : List Nat := upFrom (16 * k) 16

/-- The frame of the SX words: special class, 4 c per stroke, never uniform (R165, R184). -/
def State.sxWord (s : State) (g : Guard) (x : Reg)
    (f : Crew → Nat → DWord × Nat) : Result :=
  s.wordFrame noImmx fun s slot c lanes =>
    let act := c.active lanes g
    let c1 := c.writeResults act x false false fun l => (f c l).1
    let c2 := c1.modLanes (computedLanes act x false) fun l t => { t with fpflags := t.fpflags ||| BitVec.ofNat 32 (f c l).2 }
    (s.setCrew slot (c2.next lanes)).spend (pipeCycles act (decide (48 ≤ x.toNat)) 4)

/-- SXPACK (R184): lane 16k + e receives word e of stroke k's block. -/
def execSxpack (g : Guard) (x y : Reg) (fm : BitVec 2) (s : State) : Result :=
  let m := sxWidth fm.toNat
  s.sxWord g x fun c l =>
    let blk := sxEncode m ((strokeLanes (l / 16)).map fun n => (c.read32 (c.thread n) y).toNat)
    (BitVec.ofNat 64 (natOf ((blk.1.drop (4 * (l % 16))).take 4)), blk.2)

/-- SXUNPACK (R184): lane 16k + e receives element e of the block in stroke k's words. To F32 it raises no
flag. -/
def execSxunpack (g : Guard) (x y : Reg) (fm dt : BitVec 2) (s : State) : Result :=
  let m := sxWidth fm.toNat
  s.sxWord g x fun c l =>
    let words := (strokeLanes (l / 16)).map fun n => bytesOf 4 (c.read32 (c.thread n) y).toNat
    let blk := (words.foldl (· ++ ·) []).take (sxSize m)
    let f := match dt.toNat with
      | 0 => fmt32
      | 1 => fmt16
      | _ => fmtB16
    fpOut (f.ofVal 0 (sxDecode m blk (l % 16)))

end Sys2Proof.Machine
end

