-- ==== Sys2Proof/Machine/Posting.lean ====
section
/-! DEFINITION. The words that drive the engines (R230, R235, R242, R245, R250, R251): their issue, the checks
of their blocks (R235 to R247, R251), the end of posting (R230), reservation records and accumulator access. -/

namespace Sys2Proof.Machine

/-! ## Issue (R230, R440) -/

/-- The size and alignment of a posting word's block. -/
def PostKind.size : PostKind → Nat
  | .obres _ => 32
  | .mxtab _ _ => 0
  | _ => 64

/-- Step 1 of R230: the block's deck offset. -/
def blockAddress (c : Crew) (y n : Nat) : Except Trap Nat :=
  let z := BitVec.ofNat 64 y
  if 2 ^ 19 ≤ y then .error { code := codeDeckrange, addr := z }
  else if y % n ≠ 0 then .error { code := codeAlign, addr := z }
  else if c.deckSize < y + n then .error { code := codeDeckrange, addr := z }
  else .ok (c.deckBase + y)

/-- The check of a posting word's block, read from the deck by one lane (R230). -/
def State.blockLane (s : State) (slot : Nat) (c : Crew) (y n lane : Nat) : Except Trap Touch × State :=
  match blockAddress c y n with
  | .error t => (.error t, s)
  | .ok a => (.ok ⟨lane, BitVec.ofNat 64 (windowBase + y), ⟨.deck (coreOf slot), a, false⟩⟩, s)

/-- A posting word: the run's active lanes stand outside the PC table until posting ends, and a block in the deck is
read as a load of the lowest of them (R230, R440). -/
def State.postWord (s : State) (g : Guard) (kind : Crew → Thread → PostKind) (y : Option Reg) : Result :=
  s.issueWord noImmx g fun s slot c lanes act =>
    let s1 := s.setCrew slot (c.next (lanes.filter fun l => !act.contains l))
    match act with
    | [] => s1
    | l :: _ =>
      let t := c.thread l
      let off := y.map fun r => (c.read32 t r).toNat
      let block := match y with
        | some _ => []
        | none => ((upFrom 8 8).map fun k => bytesOf 8 (c.kreg k).toNat).flatten
      let s2 := s1.beginStep slot (.post (kind c t) off block) act t.pc
      match off with
      | none => s2
      | some o =>
        s2.stepReads slot c (kind c t).size (fun s l => s.blockLane slot c o (kind c t).size l) [l]

/-- XCOPY (R235). -/
def execXcopy (g : Guard) (y : Reg) (s : State) : Result := s.postWord g (fun _ _ => .xcopy) (some y)
/-- XCOPY_K (R235). -/
def execXcopyK (g : Guard) (s : State) : Result := s.postWord g (fun _ _ => .xcopy) none
/-- MXCMD (R245). -/
def execMxcmd (g : Guard) (y : Reg) (s : State) : Result := s.postWord g (fun _ _ => .mxcmd) (some y)
/-- MXCMD_K (R245). -/
def execMxcmdK (g : Guard) (s : State) : Result := s.postWord g (fun _ _ => .mxcmd) none
/-- MXTAB (R245). -/
def execMxtab (g : Guard) (y : Reg) (t : BitVec 2) (s : State) : Result :=
  s.postWord g (fun c th => .mxtab t.toNat (c.read64 th y)) none
/-- OBRES (R242). -/
def execObres (g : Guard) (y : Reg) (r : BitVec 5) (s : State) : Result :=
  s.postWord g (fun _ _ => .obres r.toNat) (some y)
/-- COLL_ALLREDUCE (R251). -/
def execCollAllreduce (g : Guard) (y : Reg) (s : State) : Result := s.postWord g (fun _ _ => .coll 0) (some y)
/-- COLL_REDUCESCATTER (R251). -/
def execCollReducescatter (g : Guard) (y : Reg) (s : State) : Result := s.postWord g (fun _ _ => .coll 1) (some y)
/-- COLL_ALLGATHER (R251). -/
def execCollAllgather (g : Guard) (y : Reg) (s : State) : Result := s.postWord g (fun _ _ => .coll 2) (some y)
/-- COLL_GATHER (R251). -/
def execCollGather (g : Guard) (y : Reg) (s : State) : Result := s.postWord g (fun _ _ => .coll 3) (some y)
/-- COLL_SCATTER (R251). -/
def execCollScatter (g : Guard) (y : Reg) (s : State) : Result := s.postWord g (fun _ _ => .coll 4) (some y)
/-- COLL_ALLTOALL (R251). -/
def execCollAlltoall (g : Guard) (y : Reg) (s : State) : Result := s.postWord g (fun _ _ => .coll 5) (some y)

/-! ## Blocks and records -/

/-- A field of a block: n bytes at an offset, unsigned and signed. -/
def blk (b : List Byte) (off n : Nat) : Nat := natOf ((b.drop off).take n)
def blkS (b : List Byte) (off n : Nat) : Int := (BitVec.ofNat (8 * n) (blk b off n)).toInt

/-- The first offset of a list of (offset, failing) checks. -/
def firstFailing (l : List (Nat × Bool)) : Option Nat := (l.find? fun p => p.2).map (·.1)

/-- A reservation record of a core, if live (R242). -/
def Core.record? (k : Core) (n : Nat) : Option ResRecord := Cells.find k.records n

/-- Element size in bytes of a non-SX format, and whether a format is SX (R243). -/
def fmtSize (f : Nat) : Nat :=
  match f with
  | 0 | 1 => 2
  | 2 => 4
  | 3 => 8
  | _ => 1
def fmtSx (f : Nat) : Bool := decide (5 ≤ f)
/-- Magnitude width of an SX format of a record (R109, R243). -/
def fmtWidth (f : Nat) : Nat := sxWidth (f - 5)

/-- The checks of a reservation descriptor (R243). -/
def obresFault (b : List Byte) : Option Nat :=
  let base := blk b 0 4
  let len := blk b 4 4
  let fmt := blk b 8 1
  let lay := blk b 9 1
  let sep := lay.testBit 1
  let sx := fmtSx fmt
  let need := sxSize (fmtWidth fmt) - (if sep then 2 else 0)
  firstFailing [
    (0, base % 128 != 0),
    (4, len % 128 != 0 || len == 0 || decide (2 ^ 20 < base + len)),
    (8, decide (8 ≤ fmt)),
    (9, decide (4 ≤ lay) || (sx && lay.testBit 0) || (sep && !sx)),
    (10, blk b 10 2 != 0),
    (12, blk b 12 4 % 16 != 0),
    (16, if sx then decide (blk b 16 4 < need) else blk b 16 4 != 0),
    (20, !sep && blk b 20 4 != 0),
    (24, !sep && blk b 24 4 != 0),
    (28, blk b 28 4 != 0)]

/-- The record a descriptor describes (R243). -/
def recordOf (b : List Byte) : ResRecord :=
  ⟨blk b 0 4, blk b 4 4, blk b 8 1, blk b 9 1, blk b 12 4, blk b 16 4, blk b 20 4, blk b 24 4⟩

/-! ## Copy blocks (R235, R236, R239) -/

/-- The fields of a copy block. -/
structure CopyBlock where
  src : Nat
  dst : Nat
  cnt : DWord
  len : Nat
  c1 : Nat
  c2 : Nat
  c3 : Nat
  split : Nat
  ss : List Int
  ds : List Int
  freed : DWord
  srck : Nat
  dstk : Nat
  chan : Nat
  car : Bool
deriving DecidableEq, Repr

/-- A copy block read from its bytes (R235 table 1). -/
def copyBlock (b : List Byte) : CopyBlock where
  src := blk b 0 8
  dst := blk b 8 8
  cnt := BitVec.ofNat 64 (blk b 16 8)
  len := blk b 24 3
  c1 := blk b 28 2
  c2 := blk b 30 2
  c3 := blk b 32 2
  split := blk b 34 2
  ss := [blkS b 36 4, blkS b 44 4, blkS b 52 4]
  ds := [blkS b 40 4, blkS b 48 4, blkS b 56 4]
  freed := BitVec.ofNat 64 (blk b 52 8)
  srck := field (blk b 60 4) 0 2
  dstk := field (blk b 60 4) 2 2
  chan := field (blk b 60 4) 4 2
  car := (blk b 60 4).testBit 6

/-- Lowest and highest byte that rows of a side touch, counts and strides given: the sums before any wrap. -/
def sideExtent (start : Nat) (len : Nat) (steps : List (Nat × Int)) : Int × Int :=
  steps.foldl (fun (e : Int × Int) p =>
    let far : Int := ((p.1 : Int) - 1) * p.2
    (e.1 + min 0 far, e.2 + max 0 far)) ((start : Int), (start : Int) + len - 1)

/-- The steps of a side without CAR. -/
def CopyBlock.steps (k : CopyBlock) (strides : List Int) : List (Nat × Int) :=
  [(k.c1, strides.getD 0 0), (k.c2, strides.getD 1 0), (k.c3, strides.getD 2 0)]

/-- The whole extent of a command's source and of its destination: of a carousel, C2 items and SLOTS slots (R237, R238,
R242). -/
def CopyBlock.srcExtent (k : CopyBlock) : Int × Int :=
  sideExtent k.src k.len (if k.car then [(k.c1, k.ss.getD 0 0), (k.c2, k.ss.getD 1 0)] else k.steps k.ss)
def CopyBlock.dstExtent (k : CopyBlock) : Int × Int :=
  sideExtent k.dst k.len (if k.car then [(k.c1, k.ds.getD 0 0), (k.c3, k.ds.getD 1 0)] else k.steps k.ds)

/-- Whether an accumulator side breaks R236. -/
def CopyBlock.accBad (k : CopyBlock) (start : Nat) (strides : List Int) : Bool :=
  let e := sideExtent start k.len (k.steps strides)
  start % 4 != 0 || k.len % 4 != 0 || strides.any (fun x => x % 4 != 0) || decide (e.1 < 0) || decide (2 ^ 21 - 1 < e.2)

/-- The core that a relay address names from a core (R16, R239): none where the route leaves the grid. -/
def relayTarget (core dst : Nat) : Option Nat :=
  let cl := clusterOf core
  let row := cl % 12 / 4
  let col := cl / 12 * 4 + cl % 4
  let hops := field dst 26 4
  let at' (r x : Nat) : Nat := 4 * (12 * (x / 4) + 4 * r + x % 4) + field dst 19 2
  match field dst 24 2 with
  | 0 => if hops ≤ row then some (at' (row - hops) col) else none
  | 1 => some (at' row ((col + hops) % 16))
  | 2 => if row + hops ≤ 2 then some (at' (row + hops) col) else none
  | _ => some (at' row ((col + 16 - hops) % 16))

/-- The checks of a copy block (R235, R236, R239). -/
def xcopyFault (core : Nat) (b : List Byte) : Option Nat :=
  let k := copyBlock b
  let relayBad := field k.dst 30 34 != 0 || field k.dst 21 3 != 0 || field k.dst 26 4 == 0 || (relayTarget core k.dst).isNone
  firstFailing [
    (0, k.srck == 1 && !k.car && k.accBad k.src k.ss),
    (8, (k.dstk == 1 && !k.car && k.accBad k.dst k.ds) || (k.dstk == 2 && relayBad)),
    (16, k.car && k.cnt == 0),
    (24, k.len == 0 || blk b 27 1 != 0),
    (28, k.c1 == 0),
    (30, k.c2 == 0),
    (32, k.c3 == 0),
    (52, k.car && k.freed == 0),
    (60, decide (2 ≤ k.srck) || k.dstk == 3 || (k.car && (k.srck == 1 || k.dstk == 1)) || field (blk b 60 4) 7 25 != 0)]

/-! ## Matrix blocks (R246, R247) -/

/-- The fields of a matrix block. -/
structure MxBlock where
  m : Nat
  n : Nat
  k : Nat
  arec : Nat
  brec : Nat
  accb : Nat
  ctrl : Nat
  scale : Nat
  out : Nat
  opitch : Nat
  biasp : Nat
  cnt : DWord
  save : Nat
deriving DecidableEq, Repr

/-- A matrix block read from its bytes (R246 table 4). -/
def mxBlock (b : List Byte) : MxBlock where
  m := blk b 0 2
  n := blk b 2 2
  k := blk b 4 2
  arec := blk b 6 1
  brec := blk b 7 1
  accb := blk b 8 4
  ctrl := blk b 12 4
  scale := blk b 16 4
  out := blk b 24 8
  opitch := blk b 32 4
  biasp := blk b 40 8
  cnt := BitVec.ofNat 64 (blk b 48 8)
  save := blk b 56 8

/-- CTRL's fields (R246). -/
def MxBlock.acc (x : MxBlock) : Bool := x.ctrl.testBit 0
def MxBlock.bias (x : MxBlock) : Bool := x.ctrl.testBit 1
def MxBlock.act (x : MxBlock) : Bool := x.ctrl.testBit 2
def MxBlock.actid (x : MxBlock) : Nat := field x.ctrl 3 2
def MxBlock.rq (x : MxBlock) : Nat := field x.ctrl 5 3
def MxBlock.splitg (x : MxBlock) : Nat := field x.ctrl 8 2
def MxBlock.dstk (x : MxBlock) : Nat := field x.ctrl 10 2

/-- Whether an address lies in the core window. -/
def inWindow (a : Nat) : Bool := decide (windowBase ≤ a) && decide (a < 2 ^ 56)

/-- Whether a multiple of m lies within bounds. -/
def inSteps (v step lo hi : Nat) : Bool := v % step == 0 && decide (lo ≤ v) && decide (v ≤ hi)

/-- The MXPARAM checks of a matrix block (R246, R247). -/
def mxParamFault (core : Core) (b : List Byte) : Option Nat :=
  let x := mxBlock b
  let a := core.record? x.arec
  let bb := core.record? x.brec
  let fmt (r : Option ResRecord) : Nat := (r.map (·.fmt)).getD 0
  let f64 := fmt a == 3
  let e := if f64 then 2 else 1
  let epi := x.bias || x.act || x.rq != 0
  firstFailing [
    (0, !inSteps x.m 64 64 512),
    (2, !inSteps x.n 128 128 512),
    (4, !inSteps x.k 32 32 8192),
    (6, decide (32 ≤ x.arec) || a.isNone),
    (7, decide (32 ≤ x.brec) || bb.isNone || fmt a != fmt bb),
    (8, x.accb % 64 != 0 || decide (524288 < x.accb + x.m * x.n * e)),
    (12, decide (6 ≤ x.rq) || decide (2 ≤ x.dstk) || field x.ctrl 12 20 != 0 || (x.dstk == 0 && epi) || (f64 && epi)),
    (20, blk b 20 4 != 0),
    (24, x.dstk == 1 && x.out % 16 != 0),
    (32, x.dstk == 1 && x.opitch % 16 != 0),
    (36, blk b 36 4 != 0),
    (40, x.bias && x.biasp % 4 != 0),
    (56, x.save % 64 != 0 || (x.splitg != 0 && x.save == 0) || inWindow x.save)]

/-- Whether every element of a matrix of rows × cols lies inside its record (R244, R247). -/
def ResRecord.covers (r : ResRecord) (rows cols : Nat) : Bool :=
  if fmtSx r.fmt then
    let size := sxSize (fmtWidth r.fmt)
    let last := cols / 16 - 1
    if r.layout.testBit 1 then
      decide ((rows - 1) * r.pitch + last * r.bstr + (size - 2) ≤ r.len)
        && decide (r.soff + (rows - 1) * r.spitch + 2 * last + 2 ≤ r.len)
    else decide ((rows - 1) * r.pitch + last * r.bstr + size ≤ r.len)
  else decide ((rows - 1) * r.pitch + cols * fmtSize r.fmt ≤ r.len)

/-- Whether a record covers outer × K elements in its orientation (R244). -/
def ResRecord.coversAll (r : ResRecord) (outer k : Nat) : Bool :=
  if r.layout.testBit 0 then r.covers k outer else r.covers outer k

/-- The OBRANGE check of a matrix block (R247). -/
def mxRangeFault (core : Core) (b : List Byte) : Option Nat :=
  let x := mxBlock b
  let ok (n outer : Nat) : Bool := ((core.record? n).map fun r => r.coversAll outer x.k).getD true
  firstFailing [(6, !ok x.arec x.m), (7, !ok x.brec x.n)]

/-! ## Collective blocks (R251) -/

/-- A group by id (R252). -/
def State.group? (s : State) (id : Nat) : Option Group := s.cox.groups.find? fun g => g.id == id

/-- The checks of a collective block (R251). -/
def collFault (s : State) (kind : Nat) (b : List Byte) : Option Nat :=
  let count := blk b 24 4
  let type := blk b 28 1
  let op := blk b 29 1
  let root := blk b 30 2
  let ranks := (s.group? (blk b 32 4)).map fun g => g.members.length
  firstFailing [
    (0, inWindow (blk b 0 8)),
    (8, inWindow (blk b 8 8)),
    (24, count == 0 || decide (2 ^ 28 < count)),
    (28, decide (6 ≤ type) || (decide (kind ≤ 1) && decide (2 ≤ type))),
    (29, decide (4 ≤ op) || op == 3 || (decide (2 ≤ kind) && op != 0)),
    (30, if kind == 3 || kind == 4 then (ranks.map fun n => decide (n ≤ root)).getD false else root != 0),
    (40, (b.drop 40).any fun x => x != 0)]

/-! ## The end of posting (R230) -/

/-- Step 2 of R230: the block of a posting step, as its read brought it or as the %k registers held it at issue. -/
def Pending.block (p : Pending) (y : Option Nat) (block : List Byte) : Except Trap (List Byte) :=
  match y, p.got with
  | some _, (_, .bytes b) :: _ => .ok b
  | some _, (_, .fault t) :: _ => .error t
  | _, _ => .ok block

/-- MXPARAM at a field (R230). -/
def mxparam (off : Nat) : Trap := { code := codeMxparam, addr := BitVec.ofNat 64 off }

/-- Step 3 of R230: the block's fields. -/
def State.blockFault (s : State) (slot : Nat) (kind : PostKind) (b : List Byte) : Option Trap :=
  let core := s.core (coreOf slot)
  match kind with
  | .xcopy => (xcopyFault (coreOf slot) b).map mxparam
  | .mxcmd =>
    match mxParamFault core b with
    | some off => some (mxparam off)
    | none => (mxRangeFault core b).map fun off => { code := codeObrange, addr := BitVec.ofNat 64 off }
  | .coll k => (collFault s k b).map mxparam
  | .obres n =>
    match obresFault b with
    | some off => some (mxparam off)
    | none => if (core.record? n).isSome then some (mxparam n) else none
  | .mxtab _ _ => none

/-- The handles a block names, in field order (R230, R235, R246, R251). -/
def blockHandles (kind : PostKind) (b : List Byte) : List DWord :=
  let k := copyBlock b
  let l := match kind with
    | .xcopy => if k.car then [k.cnt, k.freed] else [k.cnt]
    | .mxcmd => [(mxBlock b).cnt]
    | .coll _ => [BitVec.ofNat 64 (blk b 16 8)]
    | _ => []
  l.filter fun h => h != 0

/-- Step 4 of R230: the check of a handle under R73 and R77, at another module by its answer (R96). -/
def State.handleFault (s : State) (slot : Nat) (c : Crew) (h : DWord) : Option Trap × State :=
  match s.reach slot c h with
  | none => (some { code := codeCscope, addr := h }, s)
  | some .peer =>
    let fault : Option Trap := match s.peerReply h with
      | .ok _ => none
      | .error e => some { code := codeRemote, addr := h, ext := e }
    (fault, { s with fresh := s.fresh + 1 })
  | some r => (if (s.home r).stale h then some { code := codeCstale, addr := h } else none, s)

/-- The first failing handle. -/
def State.handlesFault (s : State) (slot : Nat) (c : Crew) : List DWord → Option Trap × State
  | [] => (none, s)
  | h :: r =>
    match s.handleFault slot c h with
    | (some t, s) => (some t, s)
    | (none, s) => State.handlesFault s slot c r

/-- MXTAB's check of its table address: a 2,048 B read at a multiple of 128 (R208, R245). -/
def State.tableFault (s : State) (slot : Nat) (c : Crew) (a : DWord) : Option Trap × State :=
  if 2 ^ 56 ≤ a.toNat then (some (xlateTrap .read a ⟨3, 4⟩), s)
  else if a.toNat % 128 ≠ 0 then (some { code := codeAlign, addr := a }, s)
  else
    match s.locate slot c a 2048 .read with
    | (.error t, s) => (some t, s)
    | (.ok _, s) =>
      if inWindow a.toNat || a.toNat / 4096 == (a.toNat + 2047) / 4096 then (none, s)
      else
        match s.locate slot c (BitVec.ofNat 64 ((a.toNat + 2047) / 4096 * 4096)) 1 .read with
        | (.error t, s) => (some t, s)
        | (.ok _, s) => (none, s)

/-- The class of a posting word (R89). -/
def PostKind.cls : PostKind → Option Nat
  | .xcopy => some 0
  | .mxcmd | .mxtab _ _ => some 1
  | .coll _ => some 2
  | .obres _ => none

/-- Commands of a channel, and room in the queue of a posting word (R240, R245, R251). -/
def Core.channel (k : Core) (chan : Nat) : List CopyCmd := Cells.get [] k.copyq chan
def Core.setChannel (k : Core) (chan : Nat) (l : List CopyCmd) : Core := { k with copyq := Cells.set [] k.copyq chan l }
def State.queueRoom (s : State) (slot : Nat) (kind : PostKind) (b : List Byte) : Bool :=
  let core := s.core (coreOf slot)
  match kind with
  | .xcopy => decide ((core.channel (copyBlock b).chan).length < 8)
  | .mxcmd | .mxtab _ _ => decide (core.matrixq.length < 16)
  | .coll _ => decide ((s.die (dieOf (coreOf slot))).collq.length < 64)
  | .obres _ => true

/-- Entries of a crew that an engine command waits for (R231). -/
def Crew.olderOf (c : Crew) (p : Pending) : List Nat := p.older.filter fun i => (c.entry? i).isSome

/-- Whether a collective command was posted before another: by fc, then by core and subcore (R251). -/
def CollCmd.before (a b : CollCmd) : Bool :=
  decide (a.posted.1 < b.posted.1) || (a.posted.1 == b.posted.1 && decide (a.posted.2 < b.posted.2))

/-- A collective command joins a queue at its place (R251). -/
def joinColl (l : List CollCmd) (x : CollCmd) : List CollCmd :=
  (l.takeWhile fun y => !x.before y) ++ x :: l.dropWhile fun y => !x.before y

/-- Step 6 of R230: the command joins its queue, and ISSUED advances. -/
def State.postCommand (s : State) (slot : Nat) (c : Crew) (p : Pending) (kind : PostKind) (b : List Byte) : State :=
  let core := coreOf slot
  let older := c.olderOf p
  let ticket := match kind.cls with
    | some k => c.issuedOf k + 1
    | none => 0
  let s1 := match kind.cls with
    | some k => s.modCrew slot fun c => { c with issued := setAt c.issued k (c.issuedOf k + 1) }
    | none => s
  let matrix (t : Option (Nat × DWord)) : MatrixCmd := {
    slot := slot, ticket := ticket, table := t, block := b, lts := c.lts, older := older, started := false
    done := false, tile := 0, kdone := 0, saved := false, bias := [], written := none, held := none, wtime := 0, pcieWrites := false }
  match kind with
  | .xcopy =>
    let k := copyBlock b
    let cmd : CopyCmd := {
      slot := slot, ticket := ticket, block := b, cnt := k.cnt, lts := c.lts, older := older, started := false
      moved := false, row := 0, i0 := 0, item := 0, itemMoved := false, waiting := false, held := none, part := none
      wtime := 0, pcieWrites := false }
    s1.modCore core fun x => x.setChannel k.chan (x.channel k.chan ++ [cmd])
  | .mxcmd => s1.modCore core fun x => { x with matrixq := x.matrixq ++ [matrix none] }
  | .mxtab n a => s1.modCore core fun x => { x with matrixq := x.matrixq ++ [matrix (some (n, a))] }
  | .coll k =>
    let cmd : CollCmd := {
      slot := slot, ticket := ticket, core := core, block := b, kind := k, lts := c.lts, older := older
      started := false, done := false, posted := (s.cycle / 2, 64 + 4 * core + subOf slot), data := [], written := 0, since := s.cycle, wtime := 0, pcieWrites := false, held := none }
    s1.modDie (dieOf core) fun d => { d with collq := joinColl d.collq cmd }
  | .obres n => s1.modCore core fun x => { x with records := Cells.put x.records n (recordOf b) }

/-- The checks of a posting word in the order of R230: the block, or the fault. -/
def State.postChecks (s : State) (slot : Nat) (c : Crew) (p : Pending) (kind : PostKind) (y : Option Nat)
    (block : List Byte) : Except Trap (List Byte) × State :=
  match kind with
  | .mxtab _ a =>
    match s.tableFault slot c a with
    | (some t, s) => (.error t, s)
    | (none, s) => (.ok [], s)
  | _ =>
    match p.block y block with
    | .error t => (.error t, s)
    | .ok b =>
      match s.blockFault slot kind b with
      | some t => (.error t, s)
      | none =>
        match s.handlesFault slot c (blockHandles kind b) with
        | (some t, s) => (.error t, s)
        | (none, s) => (.ok b, s)

/-- The lanes of a step that ends well go on past their word (R440). -/
def State.endStep (s : State) (slot : Nat) (lanes : List Nat) : State :=
  s.modCrew slot fun c => c.modLanes (lanes.filter c.stillOutside) fun _ t => { t.next with outside := false }

/-- The lanes of a step that fails take its fault at their word, with the hints pending there (R196, R440). -/
def State.failStep (s : State) (slot : Nat) (lanes : List Nat) (t : Trap) (p : Pending) : State :=
  lanes.foldl (init := s) fun s l =>
    match s.crew? slot with
    | none => s
    | some c => if c.stillOutside l then s.takeFault slot l t p.pc (c.thread l).hints p.cycle else s

/-- POSTING_END (R230, R440): the oldest posting word of a crew whose block can be read and whose queue has room. -/
def execPostingEnd (slot : Nat) (s : State) : Result :=
  match s.takeStep slot fun k => match k with
    | .post .. => true
    | _ => false with
  | none => .next s
  | some (c, p, s1) =>
    match p.kind with
    | .post kind y block =>
      match s1.postChecks slot c p kind y block with
      | (.error t, s2) => .next (s2.failStep slot p.lanes t p)
      | (.ok b, s2) =>
        if s2.queueRoom slot kind b then .next ((s2.postCommand slot c p kind b).endStep slot p.lanes) else .next s
    | _ => .next s

/-! ## OBREL, ACCLD, ACCST (R242, R250) -/

/-- OBREL (R242): once per run; its wait for commands that name the record is a hold at issue. -/
def execObrel (g : Guard) (r : BitVec 5) (s : State) : Result :=
  s.issueWord noImmx g fun s slot c lanes act =>
    match act with
    | [] => s.setCrew slot (c.next lanes)
    | _ =>
      if ((s.core (coreOf slot)).record? r.toNat).isNone then
        let s1 := s.setCrew slot (c.next (lanes.filter fun l => !act.contains l))
        s1.takeFaults slot s.cycle (act.map fun l => (l, mxparam r.toNat))
      else
        (s.setCrew slot (c.next lanes)).modCore (coreOf slot) fun x =>
          { x with records := Cells.erase x.records r.toNat }

/-- Words of the accumulator store (R250). -/
def accWords : Nat := 524288

/-- A word of the accumulator store. -/
def Core.accWord (k : Core) (i : Nat) : Word := BitVec.ofNat 32 (natOf (k.acc.read (4 * i) 4))

/-- A word written, which mends a 64-bit word whose other half is rewritten with it (R428). -/
def Core.setAccWord (k : Core) (i : Nat) (v : Word) : Core := { k with acc := k.acc.write (4 * i) (bytesOf 4 v.toNat) }

/-- Whether an accumulator word has an uncorrectable error (R428). -/
def Core.accBad (k : Core) (i : Nat) : Bool := k.badAcc.contains (i / 2 * 8)

/-- The fault of an accumulator index (R250). -/
def accFault (y : Word) : Option Trap :=
  if accWords ≤ y.toNat then some { code := codeDeckrange, addr := y.setWidth 64 } else none

/-- ACCLD of one lane: the word, or its fault (R250, R428). -/
def State.accRead (s : State) (slot : Nat) (y : Word) : Except Trap Word :=
  match accFault y with
  | some t => .error t
  | none =>
    if (s.core (coreOf slot)).accBad y.toNat then .error { code := codePoison, addr := y.setWidth 64 }
    else .ok ((s.core (coreOf slot)).accWord y.toNat)

/-- ACCLD (R250): each active lane reads its own word or faults on its own index; a %k destination takes the word of the
lowest active lane (R59). -/
def execAccld (g : Guard) (x y : Reg) (s : State) : Result :=
  s.costWord noImmx g (portCycles 1) fun s slot c lanes act =>
    let s1 := s.setCrew slot (c.next (lanes.filter fun l => !act.contains l))
    act.foldl (init := s1) fun s2 l =>
      match s.accRead slot (c.read32 (c.thread l) y) with
      | .error t => s2.faultLane slot l t
      | .ok v =>
        let takers := if 48 ≤ x.toNat ∧ act.head? ≠ some l then [] else [l]
        s2.modCrew slot fun c => (c.writeResults takers x false false fun _ => v.setWidth 64).next [l]

/-- ACCST (R250): lanes in lane order. -/
def execAccst (g : Guard) (x y : Reg) (s : State) : Result :=
  s.costWord noImmx g (portCycles 1) fun s slot c lanes act =>
    let s1 := s.setCrew slot (c.next (lanes.filter fun l => !act.contains l))
    act.foldl (init := s1) fun s2 l =>
      let i := c.read32 (c.thread l) y
      match accFault i with
      | some t => s2.faultLane slot l t
      | none =>
        (s2.modCore (coreOf slot) fun k => k.setAccWord i.toNat (c.read32 (c.thread l) x)).modCrew slot fun c => c.next [l]

end Sys2Proof.Machine
end

