-- ==== Sys2Proof/Machine/Engines.lean ====
section
/-! DEFINITION. The accesses engines make (R231, R232, R305), completion and faults of commands (R89, R91, R232),
the copy engine with its carousel and relay modes (R236 to R241), and the stop of engines for pre-emption (R54). -/

namespace Sys2Proof.Machine

/-! ## Accesses of an engine (R231) -/

/-- An extent cut at 128 B lines, as (address, length), at most so many pieces; addresses modulo 2^64. -/
def linePieces : Nat → Nat → Nat → List (Nat × Nat)
  | 0, _, _ => []
  | f + 1, a, n =>
    if n = 0 then []
    else
      let k := min n (128 - a % 128)
      (a, k) :: linePieces f ((a + k) % 2 ^ 64) (n - k)

/-- The pieces of n bytes from an address. -/
def piecesOf (a n : Nat) : List (Nat × Nat) := linePieces (n / 128 + 2) (a % 2 ^ 64) n

/-- The check of an engine's access, which has no alignment (R208, R236). -/
def State.engineCheck (s : State) (slot : Nat) (c : Crew) (a n : Nat) (kind : WalkKind) :
    Except Trap Place × State :=
  if 2 ^ 56 ≤ a then (.error (xlateTrap kind (BitVec.ofNat 64 a) ⟨3, 4⟩), s)
  else s.locate slot c (BitVec.ofNat 64 a) n kind

/-- Whether bytes of a deck or operand buffer hold an uncorrectable word (R428). -/
def State.badBytes (s : State) (sp : Space) (a n : Nat) : Bool :=
  let bad := match sp with
    | .deck k => (s.core k).badDeck
    | .obuf k => (s.core k).badObuf
    | _ => []
  bad.any fun w => decide (w < a + n) && decide (a < w + 8)

/-- Why an access of an engine does not end: a fault, or a read over PCIe whose data has not come. -/
inductive Stop where
  | fault (t : Trap)
  | wait
deriving DecidableEq, Repr

/-- A PCIe read's answer kept for the engine's access, and all of an engine's taken away once it has been made. -/
def State.fetchedFor (s : State) (u : EngineUnit) (line : Nat) : Option StepData :=
  (s.links.fetched.find? fun f => f.1 == u && f.2.1 == line).map (·.2.2)
def State.dropFetched (s : State) (u : EngineUnit) : State :=
  { s with links := { s.links with fetched := s.links.fetched.filter fun f => f.1 != u } }

/-- Bytes of a line, those past its end zero. -/
def pieceOf (data : List Byte) (off n : Nat) : List Byte := (upFrom off n).map fun i => data.getD i 0

/-- A piece of a PCIe-path line: a memory read of the line is sent, and the engine waits for its data (R345). -/
def State.readHost (s : State) (u : EngineUnit) (slot a n pa : Nat) : Except Stop (List Byte) × State :=
  let line := lineOf pa
  match s.fetchedFor u line with
  | some (.bytes d) => (.ok (pieceOf d (pa % 128) n), s)
  | some (.fault t) => (.error (.fault { t with addr := BitVec.ofNat 64 a }), s)
  | none =>
    if s.links.pcie.any fun q => q.kind == .fetch u line then (.error .wait, s)
    else (.error .wait, s.sendPcie slot 0 (.fetch u line) none (.pcieRead s.nextId (line - hostBase)))

/-- One piece read: global memory at the home slice, or over PCIe (R231, R232, R345). -/
def State.readPiece (s : State) (u : EngineUnit) (slot : Nat) (c : Crew) (a n : Nat) : Except Stop (List Byte) × State :=
  let poison : Stop := .fault { code := codePoison, addr := BitVec.ofNat 64 a }
  match s.engineCheck slot c a n .read with
  | (.error t, s) => (.error (.fault t), s)
  | (.ok p, s) =>
    match p.space with
    | .global =>
      if hostLine p.addr && !p.cxl then s.readHost u slot a n p.addr
      else
        let s1 := s.useLine (lineOf p.addr) false
        if s1.poisoned p.addr then (.error poison, s1) else (.ok (s1.bytesAt .global p.addr n), s1)
    | sp => if s.badBytes sp p.addr n then (.error poison, s) else (.ok (s.bytesAt sp p.addr n), s)

/-- Pieces read one after another. -/
def State.readPieces (s : State) (u : EngineUnit) (slot : Nat) (c : Crew) : List (Nat × Nat) → Except Stop (List Byte) × State
  | [] => (.ok [], s)
  | p :: r =>
    match s.readPiece u slot c p.1 p.2 with
    | (.error t, s) => (.error t, s)
    | (.ok b, s) =>
      match State.readPieces s u slot c r with
      | (.error t, s) => (.error t, s)
      | (.ok d, s) => (.ok (b ++ d), s)

/-- n bytes read by an engine from a virtual address; once they are, the lines it has fetched for them go. -/
def State.engineRead (s : State) (u : EngineUnit) (slot : Nat) (c : Crew) (a n : Nat) : Except Stop (List Byte) × State :=
  match s.readPieces u slot c (piecesOf a n) with
  | (.ok d, s) => (.ok d, s.dropFetched u)
  | r => r

/-- What an engine's writes have left behind: the largest write time, and a PCIe-path write to flush. -/
structure Written where
  wtime : Nat
  pcie : Bool
deriving DecidableEq, Repr

/-- Nothing written yet. -/
def Written.none : Written := ⟨0, false⟩

/-- Both. -/
def Written.join (a b : Written) : Written := ⟨max a.wtime b.wtime, a.pcie || b.pcie⟩

/-- One piece written at the home slice, the host, a deck or the operand buffer (R231, R279, R345). -/
def State.writePiece (s : State) (slot : Nat) (c : Crew) (lts a : Nat) (data : List Byte) :
    Except Trap Written × State :=
  match s.engineCheck slot c a data.length .write with
  | (.error t, s) => (.error t, s)
  | (.ok p, s) =>
    let cells := mapFrom (fun i (b : Byte) => (i, b)) (p.addr % 128) data
    match p.space with
    | .global =>
      if hostLine p.addr && !p.cxl then
        (.ok ⟨0, true⟩, (s.hostWrite p.addr data).emit (.pcieWrite (lineOf p.addr - hostBase) cells))
      else
        let w := ((s.useLine (lineOf p.addr) true).setBytesAt .global p.addr data).homeWrite (lineOf p.addr) lts
        (.ok ⟨w.1, false⟩, w.2)
    | sp => (.ok Written.none, (s.setBytesAt sp p.addr data).clearBad sp (lineOf p.addr) cells)

/-- What writing some bytes gives: how many are written, what that leaves behind, and the fault of the piece that is not. -/
structure Wrote where
  count : Nat
  out : Written
  stop : Option Trap
deriving DecidableEq, Repr

/-- Pieces written one after another, up to the first that faults. -/
def State.writePieces (s : State) (slot : Nat) (c : Crew) (lts n : Nat) (w : Written) :
    List (Nat × Nat) → List Byte → Wrote × State
  | [], _ => (⟨n, w, none⟩, s)
  | p :: r, data =>
    match s.writePiece slot c lts p.1 (data.take p.2) with
    | (.error t, s) => (⟨n, w, some t⟩, s)
    | (.ok v, s) => State.writePieces s slot c lts (n + p.2) (w.join v) r (data.drop p.2)

/-- Bytes written by an engine at a virtual address. -/
def State.engineWrite (s : State) (slot : Nat) (c : Crew) (lts a : Nat) (data : List Byte) : Wrote × State :=
  s.writePieces slot c lts 0 Written.none (piecesOf a data.length) data

/-! ## Completion and faults (R89, R91, R92, R232) -/

/-- Whether a crew's entries older than a command are acknowledged (R231). -/
def Crew.settled (c : Crew) (older : List Nat) : Bool := !(c.fifo.any fun e => older.contains e.id)

/-- The add of an engine to a counter, with release, and the engine fault it leaves at once (R87, R91, R96). -/
def State.engineAdd (s : State) (unit slot : Nat) (c : Crew) (h : DWord) (inc lts : Nat) : Option EngFault × State :=
  match s.reach slot c h with
  | none => (some ⟨codeEngstale, h, 0⟩, s)
  | some .peer =>
    let fault := match s.peerReply h with
      | .ok _ => none
      | .error e => some ⟨codeRemote, h, e⟩
    (fault, { s with fresh := s.fresh + 1 }.sendPeer (.add (BitVec.ofNat 32 inc)) h 0 lts)
  | some r =>
    if (s.home r).stale h then (some ⟨codeEngstale, h, 0⟩, s)
    else
      let place := ctrPlace 0 (homeInput r (coreOf slot) unit (handleIndex h))
      let q := (s.served r place).unitAdd (.engine slot) r h inc lts
      (if q.1 then some ⟨codeCovf, h, 0⟩ else none, q.2)

/-- Whether the home of a handle still takes an engine's add in this c (R86). -/
def State.addInTurn (s : State) (unit slot : Nat) (c : Crew) (h : DWord) : Bool :=
  match s.reach slot c h with
  | none | some .peer => true
  | some r => (s.home r).serves s.cycle (ctrPlace 0 (homeInput r (coreOf slot) unit (handleIndex h)))

/-- Whether the completion add of a command can be made in this c. -/
def State.completionInTurn (s : State) (unit slot : Nat) (h : DWord) : Bool :=
  h == 0 || ((s.crew? slot).map fun c => s.addInTurn unit slot c h).getD true

/-- The completion add of a command that names a counter, its fault set as the crew's pending one (R91). -/
def State.completionAdd (s : State) (unit slot : Nat) (h : DWord) (lts : Nat) : State :=
  if h = 0 then s
  else
    match s.crew? slot with
    | none => s
    | some c =>
      match s.engineAdd unit slot c h 1 lts with
      | (none, s) => s
      | (some f, s) => s.modCrew slot fun c => c.setEfault f

/-- A command's end: DONE advances in issue order (R89, R231). -/
def State.finishCommand (s : State) (slot cls ticket wtime : Nat) : State :=
  s.modCrew slot fun c => c.finish cls ticket wtime

/-- A command stopped by a fault: no completion add, DONE advances, the pending engine fault is set (R232). -/
def State.stopCommand (s : State) (slot cls ticket wtime : Nat) (t : Trap) : State :=
  s.modCrew slot fun c => (c.setEfault ⟨t.code, t.addr, t.ext⟩).finish cls ticket wtime

/-- A replayable fault of an engine: the report that its access is held for (R232, R363). -/
def State.holdAccess (s : State) (slot : Nat) (c : Crew) (t : Trap) : Option (Nat × State) :=
  match t.walk with
  | some f => if s.replayable c.ctx false t then some (s.cox.nextReport, s.report c.ctx t f slot s.cycle) else none
  | none => none

/-- Whether the engines of a core may start commands: no pre-emption request has reached it (R54). -/
def Core.running (k : Core) : Bool := !k.preempt && !k.stopped

/-- A flush read for PCIe-path writes of a command, sent once they are done (R346). -/
def State.sendFlush (s : State) (slot : Nat) (u : EngineUnit) : State := s.sendPcie slot 0 (.flush u) none .pcieFlush

/-- Whether a flush read is outstanding. -/
def State.flushing (s : State) (u : EngineUnit) : Bool := s.links.pcie.any fun q => q.kind == .flush u

/-- An engine's PCIe reads given up, with what they have brought. -/
def State.forgetFetches (s : State) (u : EngineUnit) : State :=
  let ours (q : PcieReq) : Bool := match q.kind with
    | .fetch v _ => v == u
    | _ => false
  let s1 := s.dropFetched u
  { s1 with links := { s1.links with pcie := s1.links.pcie.filter fun q => !ours q } }

/-! ## Rows (R236, R237, R239) -/

/-- A row of a copy read whole. -/
def State.readRow (s : State) (u : EngineUnit) (slot : Nat) (c : Crew) (k : CopyBlock) (a : Nat) :
    Except Stop (List Byte) × State :=
  if k.srck = 1 then
    let core := s.core (coreOf slot)
    if core.badAcc.any fun w => decide (w < a + k.len) && decide (a < w + 8) then
      (.error (.fault { code := codePoison, addr := BitVec.ofNat 64 a }), s)
    else (.ok (core.acc.read a k.len), s)
  else s.engineRead u slot c a k.len

/-- Beats that carry a row to the target of a relay (R239). -/
def State.relayRow (s : State) (slot : Nat) (c : Crew) (k : CopyBlock) (a : Nat) (data : List Byte) : State :=
  match relayTarget (coreOf slot) k.dst with
  | none => s
  | some target =>
    let off := (field k.dst 0 19 + (a + 2 ^ 64 - k.dst)) % 2 ^ 64
    let cut := (piecesOf off data.length).foldl (init := (([] : List Beat), data)) fun m p =>
      (m.1 ++ [⟨coreOf slot, k.chan, c.ctx, p.1, m.2.take p.2⟩], m.2.drop p.2)
    s.modCore target fun x => { x with beats := x.beats ++ cut.1 }

/-- A row of a copy written whole. -/
def State.writeRow (s : State) (slot : Nat) (c : Crew) (k : CopyBlock) (lts a : Nat) (data : List Byte) : Wrote × State :=
  match k.dstk with
  | 1 =>
    (⟨data.length, Written.none, none⟩, s.modCore (coreOf slot) fun x =>
      { x with
        acc := x.acc.write a data
        badAcc := x.badAcc.filter fun w => !(decide (a ≤ w) && decide (w + 8 ≤ a + data.length)) })
  | 2 => (⟨data.length, Written.none, none⟩, s.relayRow slot c k a data)
  | _ => s.engineWrite slot c lts a data

/-- A sum of an address and signed steps, modulo 2^64 (R237). -/
def stepAddr (start : Nat) (l : List (Nat × Int)) : Nat :=
  (l.foldl (fun (a : Int) (p : Nat × Int) => a + (p.1 : Int) * p.2) (start : Int) % 2 ^ 64).toNat

/-- Source and destination of row number n of a command without CAR (R237). -/
def CopyBlock.rowAt (k : CopyBlock) (n : Nat) : Nat × Nat :=
  let idx := [n % k.c1, n / k.c1 % k.c2, n / (k.c1 * k.c2)]
  let steps (l : List Int) : List (Nat × Int) := mapFrom (fun i (x : Nat) => (x, l.getD i 0)) 0 idx
  (stepAddr k.src (steps k.ss), stepAddr k.dst (steps k.ds))

/-- Source and destination of row r of item p, whose number counted over the carousel is i (R238). -/
def CopyBlock.itemRow (k : CopyBlock) (p i r : Nat) : Nat × Nat :=
  (stepAddr k.src [(p, k.ss.getD 1 0), (r, k.ss.getD 0 0)],
    stepAddr k.dst [(i % k.c3, k.ds.getD 1 0), (r, k.ds.getD 0 0)])

/-- What moving rows gives: the first row not moved, what is read of it and how much of that is written, what the writes
leave behind, and why the rows end early. -/
structure Moved where
  row : Nat
  part : Option (List Byte × Nat)
  out : Written
  stop : Option Stop
  state : State

/-- Rows moved in order, each read whole before it is written (R237). -/
def State.moveRows (s : State) (u : EngineUnit) (slot : Nat) (c : Crew) (k : CopyBlock) (lts : Nat) (addr : Nat → Nat × Nat)
    (out : Written) (part : Option (List Byte × Nat)) : Nat → Nat → Moved
  | 0, row => ⟨row, part, out, none, s⟩
  | n + 1, row =>
    let a := addr row
    let got : Except Stop (List Byte × Nat) × State :=
      match part with
      | some p => (.ok p, s)
      | none =>
        match s.readRow u slot c k a.1 with
        | (.error e, s1) => (.error e, s1)
        | (.ok data, s1) => (.ok (data, 0), s1)
    match got with
    | (.error e, s1) => ⟨row, none, out, some e, s1⟩
    | (.ok p, s1) =>
      let w := s1.writeRow slot c k lts (a.2 + p.2) (p.1.drop p.2)
      match w.1.stop with
      | some t => ⟨row, some (p.1, p.2 + w.1.count), out.join w.1.out, some (.fault t), w.2⟩
      | none => State.moveRows w.2 u slot c k lts addr (out.join w.1.out) none n (row + 1)

/-! ## Copy commands (R231, R237, R238, R240) -/

/-- The command at the head of a channel, with its crew. -/
def State.copyHead (s : State) (core chan : Nat) : Option (CopyCmd × Crew) :=
  match (s.core core).channel chan with
  | [] => none
  | cmd :: _ => (s.crew? cmd.slot).map fun c => (cmd, c)

/-- The head command replaced, or taken out. -/
def State.setCopyHead (s : State) (core chan : Nat) (cmd : CopyCmd) : State :=
  s.modCore core fun k => k.setChannel chan (cmd :: (k.channel chan).drop 1)
def State.popCopy (s : State) (core chan : Nat) : State :=
  s.modCore core fun k => k.setChannel chan ((k.channel chan).drop 1)

/-- A copy command stopped by a fault (R232). -/
def State.stopCopy (s : State) (core chan : Nat) (cmd : CopyCmd) (t : Trap) : State :=
  ((s.popCopy core chan).forgetFetches (.copy core chan)).stopCommand cmd.slot 0 cmd.ticket cmd.wtime t

/-- A counter's value and logical time for the carousel, or the fault of a handle that is stale or out of reach there, or at
another module (R91, R96, R238). -/
def State.counterFor (s : State) (slot : Nat) (c : Crew) (h : DWord) : Except Trap (Nat × Nat) × State :=
  match s.reach slot c h with
  | none => (.error { code := codeEngstale, addr := h }, s)
  | some .peer =>
    let s1 := { s with fresh := s.fresh + 1 }.sendPeer .read h 0 0
    match s.peerReply h with
    | .ok v => (.ok v, s1)
    | .error e => (.error { code := codeRemote, addr := h, ext := e }, s1)
  | some r =>
    if (s.home r).stale h then (.error { code := codeEngstale, addr := h }, s)
    else
      let k := (s.home r).ctr (handleIndex h)
      (.ok (k.value, k.lts), s)

/-- ENGSTALE (R91, R238). -/
def engstale (h : DWord) : Trap := { code := codeEngstale, addr := h }

/-- The number of a command's next row, counted over the command (R241; of a carousel over its items, log 56). -/
def CopyCmd.index (cmd : CopyCmd) : Nat :=
  let k := copyBlock cmd.block
  if k.car then cmd.item * k.c1 + cmd.row else cmd.row

/-- Whether the row completed last is a split point (R241). -/
def CopyCmd.atSplit (cmd : CopyCmd) : Bool :=
  let k := copyBlock cmd.block
  k.split != 0 && cmd.index % k.split == 0

/-- How many of the rows left a step moves: up to the next split point, where the engine may stop (R241). -/
def CopyCmd.ahead (cmd : CopyCmd) (left : Nat) : Nat :=
  let k := copyBlock cmd.block
  if k.split = 0 then left else min left (k.split - cmd.index % k.split)

/-- Whether a channel's head lets the engine stop: nothing under way, a carousel between items, or a completed
row that is a split point (R241). -/
def CopyCmd.mayStop (cmd : CopyCmd) : Bool :=
  if !cmd.started then true
  else if cmd.moved || cmd.itemMoved || cmd.part.isSome then false
  else ((copyBlock cmd.block).car && cmd.row == 0) || cmd.atSplit

/-- Whether a channel's head goes on: no pre-emption request has reached its core, or it is between split points (R54,
R241). -/
def CopyCmd.goes (cmd : CopyCmd) (k : Core) : Bool := k.running || (!k.stopped && cmd.started && !cmd.mayStop)

/-- A copy command after some of its rows were moved: it stands where they end, is held at a replayable fault, or is stopped
by a fault (R232, R237). -/
def State.afterRows (s : State) (core chan : Nat) (cmd : CopyCmd) (c : Crew) : Option Stop → State
  | none | some .wait => s.setCopyHead core chan cmd
  | some (.fault t) =>
    match s.holdAccess cmd.slot c t with
    | some (id, s1) => s1.setCopyHead core chan { cmd with held := some id }
    | none => s.stopCopy core chan cmd t

/-- COPY_COMMAND_START (R231, R237, R238, R241): rows are moved in order up to a split point, a fault or a held access; a
carousel command reads FILLED. -/
def execCopyCommandStart (core chan : Nat) (s : State) : Result :=
  match s.copyHead core chan with
  | none => .next s
  | some (cmd, c) =>
    let k := copyBlock cmd.block
    if cmd.moved || cmd.held.isSome || (k.car && cmd.started) || !cmd.goes (s.core core) || !c.settled cmd.older then .next s
    else if k.car then
      match s.counterFor cmd.slot c k.cnt with
      | (.error t, s) => .next (s.stopCopy core chan cmd t)
      | (.ok v, s) => .next (s.setCopyHead core chan { cmd with started := true, i0 := v.1 })
    else
      let total := k.c1 * k.c2 * k.c3
      let m := s.moveRows (.copy core chan) cmd.slot c k cmd.lts k.rowAt ⟨cmd.wtime, cmd.pcieWrites⟩ cmd.part
        (cmd.ahead (total - cmd.row)) cmd.row
      let cmd1 := { cmd with
        started := true, row := m.row, part := m.part, wtime := m.out.wtime, pcieWrites := m.out.pcie
        moved := m.stop.isNone && decide (total ≤ m.row) }
      .next (m.state.afterRows core chan cmd1 c m.stop)

/-- Whether a copy command's writes are all performed: no beat of it is on a link (R231, R239). -/
def State.beatsDone (s : State) (core chan : Nat) : Bool :=
  !(s.cores.any fun k => k.2.beats.any fun b => b.core == core && b.chan == chan)

/-- A step of a copy command that waits for its writes, the PCIe ones flushed first (R231, R346). -/
def State.afterWrites (s : State) (core chan : Nat) (cmd : CopyCmd) (k : State → State) : State :=
  if !s.beatsDone core chan || s.flushing (.copy core chan) then s
  else if cmd.pcieWrites then
    (s.setCopyHead core chan { cmd with pcieWrites := false }).sendFlush cmd.slot (.copy core chan)
  else k s

/-- COPY_COMMAND_COMPLETE (R91, R231): the completion add, then DONE. -/
def execCopyCommandComplete (core chan : Nat) (s : State) : Result :=
  match s.copyHead core chan with
  | none => .next s
  | some (cmd, _) =>
    let h := if (copyBlock cmd.block).car then 0 else cmd.cnt
    if !cmd.moved || !s.completionInTurn 4 cmd.slot h then .next s
    else
      .next (s.afterWrites core chan cmd fun s =>
        ((s.completionAdd 4 cmd.slot h (max cmd.lts cmd.wtime)).popCopy core chan).finishCommand cmd.slot 0 cmd.ticket
          cmd.wtime)

/-- The message that wakes a carousel: its number, the counter's logical time, and whether the counter was freed. -/
def State.carouselMsg (s : State) (core chan : Nat) : Option (Nat × Nat × Bool) :=
  s.msgs.findSome? fun m => match m.2 with
    | .carouselWake k c lts stale => if k == core && c == chan then some (m.1, lts, stale) else none
    | _ => none

/-- An item's rows moved, up to a split point (R238, R241); the wait on FREED has acquired `lts`. -/
def State.moveItem (s : State) (core chan : Nat) (cmd0 : CopyCmd) (c : Crew) (lts : Nat) : State :=
  let cmd := { cmd0 with waiting := false, lts := max cmd0.lts lts }
  let k := copyBlock cmd.block
  let m := s.moveRows (.copy core chan) cmd.slot c k cmd.lts (k.itemRow cmd.item (cmd.i0 + cmd.item))
    ⟨cmd.wtime, cmd.pcieWrites⟩ cmd.part (cmd.ahead (k.c1 - cmd.row)) cmd.row
  let all := m.stop.isNone && decide (k.c1 ≤ m.row)
  let cmd1 := { cmd with
    row := if all then 0 else m.row, itemMoved := all, part := m.part, wtime := m.out.wtime, pcieWrites := m.out.pcie }
  m.state.afterRows core chan cmd1 c m.stop

/-- A wait on FREED registered at its home; a full list leaves the engine polling (R88, R238). -/
def State.awaitFreed (s : State) (core chan : Nat) (cmd : CopyCmd) (c : Crew) (need : Nat) : State :=
  let k := copyBlock cmd.block
  match s.reach cmd.slot c k.freed with
  | some .peer | none => s
  | some r =>
    let q := s.register r k.freed need (.carousel core chan)
    if q.1 then q.2.setCopyHead core chan { cmd with waiting := true } else s

/-- CAROUSEL_ITEM_START (R238): the wait on FREED for the next item, or its rows once it is met. -/
def execCarouselItemStart (core chan : Nat) (s : State) : Result :=
  match s.copyHead core chan with
  | none => .next s
  | some (cmd, c) =>
    let k := copyBlock cmd.block
    if !k.car || !cmd.started || cmd.moved || cmd.itemMoved || cmd.held.isSome || !cmd.goes (s.core core) then .next s
    else if cmd.waiting then
      match s.carouselMsg core chan with
      | none => .next s
      | some (id, lts, stale) =>
        let s1 := s.dropMsg id
        .next (if stale then s1.stopCopy core chan cmd (engstale k.freed) else s1.moveItem core chan cmd c lts)
    else if cmd.row ≠ 0 ∨ cmd.part.isSome then .next (s.moveItem core chan cmd c 0)
    else
      match s.counterFor cmd.slot c k.freed with
      | (.error t, s) => .next (s.stopCopy core chan cmd t)
      | (.ok v, s) =>
        let i := cmd.i0 + cmd.item
        if i + 1 ≤ v.1 + k.c3 then .next (s.moveItem core chan cmd c v.2)
        else .next (s.awaitFreed core chan cmd c (i + 1 - k.c3))

/-- CAROUSEL_ITEM_DONE (R238): 1 is added to FILLED with release; the last item's add completes the command. -/
def execCarouselItemDone (core chan : Nat) (s : State) : Result :=
  match s.copyHead core chan with
  | none => .next s
  | some (cmd, c) =>
    let k := copyBlock cmd.block
    if !cmd.itemMoved || !s.addInTurn 4 cmd.slot c k.cnt then .next s
    else
      .next (s.afterWrites core chan cmd fun s =>
        let next := { cmd with itemMoved := false, item := cmd.item + 1, moved := decide (k.c2 ≤ cmd.item + 1) }
        match s.engineAdd 4 cmd.slot c k.cnt 1 (max cmd.lts cmd.wtime) with
        | (some f, s) =>
          if f.code = codeCovf then (s.modCrew cmd.slot fun c => c.setEfault f).setCopyHead core chan next
          else s.stopCopy core chan cmd { code := f.code, addr := f.addr, ext := f.ext }
        | (none, s) => s.setCopyHead core chan next)

/-! ## Stopping for pre-emption (R54, R241) -/

/-- A waiter taken out of every home, with the wake it may have been sent. -/
def State.dropWaiters (s : State) (who : WaitWho) : State :=
  let drop (h : CtrHome) : CtrHome := { h with waiters := h.waiters.filter fun w => w.who != who }
  { s with
    crews := s.crews.map fun (e : Nat × Crew) => (e.1, { e.2 with ctrs := drop e.2.ctrs })
    cores := s.cores.map fun (e : Nat × Core) => (e.1, { e.2 with ctrs := drop e.2.ctrs })
    clusters := s.clusters.map fun (e : Nat × Cluster) => (e.1, { e.2 with ctrs := drop e.2.ctrs })
    dies := s.dies.map fun (e : Nat × Die) => (e.1, { e.2 with ctrs := drop e.2.ctrs })
    msgs := s.msgs.filter fun (m : Nat × Msg) => match m.2, who with
      | .carouselWake k c _ _, .carousel k' c' => !(k == k' && c == c')
      | .dependenceWake g n _ _, .dependence g' n' => !(g == g' && n == n')
      | _, _ => true }

/-- Whether every engine of a core stands between commands or at a split point (R54). -/
def Core.mayStop (k : Core) : Bool :=
  k.copyq.all (fun q => (q.2.head?.map CopyCmd.mayStop).getD true)
    && (k.matrixq.head?.map fun m => !m.started).getD true && k.streamq.isEmpty

/-- ENGINE_SPLIT_STOP (R54, R241): a pre-empted core's engines stop; a carousel's wait is withdrawn from its home
and made again on restore. -/
def execEngineSplitStop (core : Nat) (s : State) : Result :=
  let k := s.core core
  if !k.preempt || k.stopped || !k.mayStop then .next s
  else
    let rest (q : Nat × List CopyCmd) : Nat × List CopyCmd :=
      (q.1, q.2.map fun (m : CopyCmd) => { m with waiting := false, held := none })
    let s1 := s.setCore core { k with stopped := true, copyq := k.copyq.map rest }
    .next ((upFrom 0 4).foldl (fun s chan => (s.dropWaiters (.carousel core chan)).forgetFetches (.copy core chan)) s1)

end Sys2Proof.Machine
end

