-- ==== Sys2Proof/Machine/Matrix.lean ====
section
/-! DEFINITION. The matrix engine (R245 to R249): elements of records (R244), the exact group sums and the
canonical tree over chunks (R112, R113, R115, R122), the epilogue (R116 to R118), and its split points. -/

namespace Sys2Proof.Machine

/-! ## Elements (R244) -/

/-- Element (row, col) of a record (R244): NaN, infinity or an exact number. -/
def Core.element (k : Core) (r : ResRecord) (row col : Nat) : FVal :=
  let at' (off n : Nat) : List Byte := k.obuf.read (r.base + off) n
  if fmtSx r.fmt then
    let m := fmtWidth r.fmt
    let blkNo := col / 16
    let pos := row * r.pitch + blkNo * r.bstr
    let bytes := if r.layout.testBit 1 then at' (r.soff + row * r.spitch + 2 * blkNo) 2 ++ at' pos (sxSize m - 2)
      else at' pos (sxSize m)
    sxDecode m bytes (col % 16)
  else
    let n := fmtSize r.fmt
    let v := natOf (at' (row * r.pitch + col * n) n)
    match r.fmt with
    | 0 => fmtB16.val v
    | 1 => fmt16.val v
    | 2 => fmt32.val v
    | 3 => fmt64.val v
    | _ => let i := (BitVec.ofNat 8 v).toInt; .fin (decide (i < 0)) i.natAbs 0

/-- Element of an operand by outer index (m of A, n of B) and k (R244). -/
def Core.operand (k : Core) (r : ResRecord) (outer kk : Nat) : FVal :=
  if r.layout.testBit 0 then k.element r kk outer else k.element r outer kk

/-- The bytes that hold element (row, col) of a record, by offset and length: of an SX block all of it (R244). -/
def ResRecord.spans (r : ResRecord) (row col : Nat) : List (Nat × Nat) :=
  if fmtSx r.fmt then
    let b := col / 16
    let size := sxSize (fmtWidth r.fmt)
    if r.layout.testBit 1 then [(row * r.pitch + b * r.bstr, size - 2), (r.soff + row * r.spitch + 2 * b, 2)]
    else [(row * r.pitch + b * r.bstr, size)]
  else [(row * r.pitch + col * fmtSize r.fmt, fmtSize r.fmt)]

/-- The lowest uncorrectable word of the operand buffer that an operand's element touches, by outer index and k (R428). -/
def Core.badOperand (k : Core) (r : ResRecord) (outer kk : Nat) : Option Nat :=
  let spans := if r.layout.testBit 0 then r.spans kk outer else r.spans outer kk
  k.badObuf.find? fun w => spans.any fun x => decide (w < r.base + x.1 + x.2) && decide (r.base + x.1 < w + 8)

/-! ## Groups and chunks (R112, R113, R115, R122) -/

/-- The accumulation type of operands (R112). -/
def accFmt (fmt : Nat) : Fmt := if fmt = 3 then fmt64 else fmt32

/-- The smallest exponent of products. -/
def minExp (l : List FVal) : Int :=
  l.foldl (fun m v => match v with
    | .fin _ _ e => min m e
    | _ => m) 0

/-- A product as a signed multiple of 2^e0. -/
def scaled (e0 : Int) : FVal → Int
  | .fin n m e => (if n then -1 else 1) * ((m * 2 ^ (e - e0).toNat : Nat) : Int)
  | _ => 0

/-- The group value (R112, R115): the exact sum of products, rounded once. A sum of zeros is −0 when every product is, which
the products of integers never are. -/
def groupValue (f : Fmt) (ints : Bool) (pairs : List (FVal × FVal)) : Nat :=
  let nan := pairs.any fun p => p.1.isNan || p.2.isNan || (p.1.mul p.2).isNone
  if nan then f.nan
  else
    let prods := pairs.map fun p => (p.1.mul p.2).getD (.nan false)
    let pos := prods.any fun v => v == .inf false
    let neg := prods.any fun v => v == .inf true
    if pos && neg then f.nan
    else if pos then f.inf false
    else if neg then f.inf true
    else
      let e0 := minExp prods
      let total := (prods.map (scaled e0)).foldl (· + ·) 0
      if total = 0 then
        f.signBit (!ints && prods.all fun v => match v with
          | .fin n m _ => n && m == 0
          | _ => false)
      else (f.round 0 (decide (total < 0)) total.natAbs e0).1

/-- A reduction under way (R122): the stack of (level, value) with its top first, and the chunk in progress. -/
structure Reduction where
  stack : List (Nat × Nat)
  chunk : Option Nat
deriving DecidableEq, Repr

/-- Equal levels on top of the stack replaced by their sum, the older operand first (R122). -/
def collapse (f : Fmt) : Nat → List (Nat × Nat) → List (Nat × Nat)
  | n + 1, (l1, v1) :: (l2, v2) :: t =>
    if l1 = l2 then collapse f n ((l1 + 1, (f.add 0 v2 v1).1) :: t) else (l1, v1) :: (l2, v2) :: t
  | _, l => l

/-- A chunk value pushed (R122). -/
def pushChunk (f : Fmt) (st : List (Nat × Nat)) (v : Nat) : List (Nat × Nat) := collapse f 16 ((0, v) :: st)

/-- Groups g, g + 1, … of a K reduction taken in (R113): chunks of eight groups, each started at −0. -/
def Reduction.take (r : Reduction) (f : Fmt) (group : Nat → Nat) : Nat → Nat → Reduction
  | 0, _ => r
  | n + 1, g =>
    let v := (f.add 0 (r.chunk.getD (f.signBit true)) (group g)).1
    let r1 : Reduction := if g % 8 = 7 then ⟨pushChunk f r.stack v, none⟩ else ⟨r.stack, some v⟩
    r1.take f group n (g + 1)

/-- −0 chunks pushed (R122). -/
def padChunks (f : Fmt) (st : List (Nat × Nat)) : Nat → List (Nat × Nat)
  | 0 => st
  | n + 1 => padChunks f (pushChunk f st (f.signBit true)) n

/-- T of R113 once every group is taken: the last chunk, then −0 chunks up to a power of two (R122). -/
def Reduction.total (r : Reduction) (f : Fmt) (k : Nat) : Nat :=
  let st := match r.chunk with
    | some v => pushChunk f r.stack v
    | none => r.stack
  let c := (k + 255) / 256
  ((padChunks f st (2 ^ ceilLog2 c - c)).headD (0, f.signBit true)).2

/-- The partial values of a reduction in the order of a save area, from the bottom of the stack (R249). -/
def Reduction.partials (r : Reduction) : List Nat :=
  r.stack.reverse.map (·.2) ++ (match r.chunk with
    | some v => [v]
    | none => [])

/-- The levels of the stack after so many whole chunks, from the bottom (R122). -/
def levelsOf (chunks : Nat) : List Nat := ((upFrom 0 16).filter fun l => chunks.testBit l).reverse

/-- How many partial values a save area holds after so much K (R249). -/
def partialCount (kdone : Nat) : Nat := (levelsOf (kdone / 256)).length + (if kdone % 256 = 0 then 0 else 1)

/-- A reduction restored from its partial values (R249). -/
def restoreReduction (kdone : Nat) (vals : List Nat) : Reduction :=
  let lv := levelsOf (kdone / 256)
  ⟨(mapFrom (fun i (l : Nat) => (l, vals.getD i 0)) 0 lv).reverse,
    if kdone % 256 = 0 then none else some (vals.getD lv.length 0)⟩

/-! ## A command's tiles (R248) -/

/-- What a command works with. -/
structure MxSetup where
  block : MxBlock
  a : ResRecord
  b : ResRecord
deriving DecidableEq, Repr

/-- Words of an accumulator value (R248). -/
def MxSetup.width (x : MxSetup) : Nat := if x.a.fmt = 3 then 2 else 1
def MxSetup.fmt (x : MxSetup) : Fmt := accFmt x.a.fmt

/-- The set-up of a posted command: its records are live for as long as it is queued (R242). -/
def Core.setup (k : Core) (b : List Byte) : Option MxSetup :=
  let x := mxBlock b
  match k.record? x.arec, k.record? x.brec with
  | some a, some bb => some ⟨x, a, bb⟩
  | _, _ => none

/-- Group g of element (i, j) (R112). -/
def Core.group (k : Core) (x : MxSetup) (i j g : Nat) : Nat :=
  groupValue x.fmt (x.a.fmt == 4) ((upFrom (32 * g) 32).map fun kk => (k.operand x.a i kk, k.operand x.b j kk))

/-- The accumulator value of element (i, j), and its word index (R248). -/
def MxSetup.index (x : MxSetup) (i j : Nat) : Nat := x.block.accb + x.width * (i * x.block.n + j)
def Core.accValue (k : Core) (x : MxSetup) (i j : Nat) : Nat :=
  natOf (k.acc.read (4 * x.index i j) (4 * x.width))
def Core.setAccValue (k : Core) (x : MxSetup) (i j v : Nat) : Core :=
  { k with
    acc := k.acc.write (4 * x.index i j) (bytesOf (4 * x.width) v)
    badAcc := k.badAcc.filter fun w => !(x.width == 2 && w == 4 * x.index i j) }

/-- A tile's saved partial values: plane q, row i, column j of the tile (R249). -/
def MxSetup.partialAt (x : MxSetup) (area : List Byte) (q i j : Nat) : Nat :=
  blk area (((q * x.block.m + i) * 128 + j) * 4 * x.width) (4 * x.width)

/-- The reduction of an element from where its tile stands: after `kdone` of K, with the saved area. -/
def Core.reductionFrom (k : Core) (x : MxSetup) (area : List Byte) (kdone upTo i j : Nat) : Reduction :=
  let start := if kdone = 0 then ⟨[], none⟩
    else restoreReduction kdone ((upFrom 0 (partialCount kdone)).map fun q => x.partialAt area q i (j % 128))
  start.take x.fmt (fun g => k.group x i j g) ((upTo - kdone) / 32) (kdone / 32)

/-- The new accumulator value of an element (R113, R248). -/
def Core.newValue (k : Core) (x : MxSetup) (area : List Byte) (kdone i j : Nat) : Nat :=
  let t := (k.reductionFrom x area kdone x.block.k i j).total x.fmt x.block.k
  if x.block.acc then (x.fmt.add 0 (k.accValue x i j) t).1 else t

/-- Activation (R117). -/
def Core.activate (k : Core) (id y : Nat) : Nat :=
  if (fmt32.val y).isNan then fmt32.nan
  else
    let ef := field y 23 8
    let b := if ef < 120 then 0 else if 135 < ef then 127 else (ef - 120) * 8 + field y 20 3
    let n := (if y.testBit 31 then 128 else 0) + b
    let at' (half : Nat) : Nat := (Cells.get 0 k.acttab (512 * id + 2 * n + half)).toNat
    (fmt32.fma 0 (at' 0) y (at' 1)).1

/-- Bias and activation of one value, and the product with the scale (R116 to R118). -/
def Core.stage (k : Core) (x : MxSetup) (bias : List Word) (j acc : Nat) : Nat :=
  let y0 := if x.block.bias then (fmt32.add 0 acc (bias.getD j 0).toNat).1 else acc
  let y1 := if x.block.act then k.activate x.block.actid y0 else y0
  if x.block.rq = 0 then y1 else (fmt32.mul 0 y1 x.block.scale).1

/-- INT8 requantisation (R118). -/
def toInt8 (z : Nat) : Byte :=
  let v := fmt32.val z
  if v.isNan then 0 else BitVec.ofInt 8 (toInt 0 (-128) 127 v).1

/-- The bytes of a list of values cut in blocks of 16, each encoded (R111, R118). -/
def sxRow (m : Nat) (v : List Nat) : Nat → List Byte
  | 0 => []
  | n + 1 => (sxEncode m (v.take 16)).1 ++ sxRow m (v.drop 16) n

/-- The output bytes of 128 values of a row (R118, R248). -/
def MxSetup.rowBytes (x : MxSetup) (v : List Nat) : List Byte :=
  match x.block.rq with
  | 0 => (v.map fun y => bytesOf (4 * x.width) y).flatten
  | 1 => (v.map fun z => bytesOf 2 (fmtB16.ofVal 0 (fmt32.val z)).1).flatten
  | 2 => v.map toInt8
  | q => sxRow (sxWidth (q - 3)) v 8

/-- Where a tile's row lies in the output (R248). -/
def MxSetup.rowAddr (x : MxSetup) (t i : Nat) : Nat :=
  let col := match x.block.rq with
    | 0 => 128 * t * (4 * x.width)
    | 1 => 128 * t * 2
    | 2 => 128 * t
    | q => 8 * t * sxSize (sxWidth (q - 3))
  (x.block.out + i * x.block.opitch + col) % 2 ^ 64

/-- The elements of a tile, row by row (R248; the order within a tile, log 56). -/
def MxSetup.cells (x : MxSetup) (t : Nat) : List (Nat × Nat) :=
  ((upFrom 0 x.block.m).map fun i => (upFrom (128 * t) 128).map fun j => (i, j)).flatten

/-- The address of the uncorrectable word that an element's reduction over K from k0 meets first, k by k, A before B; the
accumulator word last, where it is read (R232, R428). -/
def Core.badElement (k : Core) (x : MxSetup) (k0 k1 : Nat) (acc : Bool) (p : Nat × Nat) : Option Nat :=
  let operands := (upFrom k0 (k1 - k0)).findSome? fun kk =>
    ((k.badOperand x.a p.1 kk).orElse fun _ => k.badOperand x.b p.2 kk).map fun w => windowBase + 0x20000000 + w
  let word := 4 * x.index p.1 p.2
  operands.orElse fun _ =>
    if acc then k.badAcc.find? fun w => decide (word < w + 8) && decide (w < word + 4 * x.width) else none

/-- The first element of a list that meets an uncorrectable word, with its address. -/
def Core.badCell (k : Core) (x : MxSetup) (k0 k1 : Nat) (acc : Bool) (cells : List (Nat × Nat)) : Option ((Nat × Nat) × Trap) :=
  if k.badObuf.isEmpty && k.badAcc.isEmpty then none
  else cells.findSome? fun p =>
    (k.badElement x k0 k1 acc p).map fun a => (p, { code := codePoison, addr := BitVec.ofNat 64 a })

/-- Elements computed from one state of the core, and written to its accumulator. -/
def Core.runCells (k : Core) (x : MxSetup) (area : List Byte) (kdone : Nat) (cells : List (Nat × Nat)) : Core :=
  let vals := cells.map fun p => (p, k.newValue x area kdone p.1 p.2)
  vals.foldl (fun c v => c.setAccValue x v.1.1 v.1.2 v.2) k

/-- A tile computed: all of it, or the elements before the first that meets an uncorrectable word (R232, R248). -/
def Core.runTile (k : Core) (x : MxSetup) (area : List Byte) (kdone t : Nat) : Core × Option Trap :=
  match k.badCell x kdone x.block.k x.block.acc (x.cells t) with
  | none => (k.runCells x area kdone (x.cells t), none)
  | some (p, f) => (k.runCells x area kdone ((x.cells t).takeWhile fun q => q != p), some f)

/-- Rows of a tile's outputs written in order from one of which some bytes are written, up to one that faults (R248): the
next row, how many bytes of it are written, what the writes leave, and the fault. -/
def State.writeTile (s : State) (slot : Nat) (c : Crew) (x : MxSetup) (bias : List Word) (lts t : Nat) (w : Written) :
    Nat → Nat → Nat → (Nat × Nat) × Written × Option Trap × State
  | 0, i, _ => ((i, 0), w, none, s)
  | n + 1, i, from' =>
    let k := s.core (coreOf slot)
    let row := (upFrom (128 * t) 128).map fun j => k.stage x bias j (k.accValue x i j)
    let q := s.engineWrite slot c lts ((x.rowAddr t i + from') % 2 ^ 64) ((x.rowBytes row).drop from')
    match q.1.stop with
    | some e => ((i, from' + q.1.count), w.join q.1.out, some e, q.2)
    | none => State.writeTile q.2 slot c x bias lts t (w.join q.1.out) n (i + 1) 0

/-- What running tiles gives: where the command stands, and the fault that it met there. -/
structure Ran where
  cmd : MatrixCmd
  stop : Option Trap
  state : State

/-- The next tiles of a command, each computed and then written; a tile whose elements are done is only written on (R248,
R249). -/
def State.runTiles (s : State) (c : Crew) (x : MxSetup) (area : List Byte) (core : Nat) : Nat → MatrixCmd → Ran
  | 0, cmd => ⟨cmd, none, s⟩
  | n + 1, cmd =>
    let did := match cmd.written with
      | some _ => (s.core core, none)
      | none => (s.core core).runTile x area cmd.kdone cmd.tile
    let s1 := s.setCore core did.1
    match did.2 with
    | some t => ⟨cmd, some t, s1⟩
    | none =>
      let next (w : Written) : MatrixCmd :=
        { cmd with tile := cmd.tile + 1, kdone := 0, written := none, wtime := w.wtime, pcieWrites := w.pcie }
      if x.block.dstk = 1 then
        let row := cmd.written.getD (0, 0)
        let q := s1.writeTile cmd.slot c x cmd.bias cmd.lts cmd.tile ⟨cmd.wtime, cmd.pcieWrites⟩ (x.block.m - row.1) row.1 row.2
        match q.2.2.1 with
        | some t => ⟨{ cmd with written := some q.1, wtime := q.2.1.wtime, pcieWrites := q.2.1.pcie }, some t, q.2.2.2⟩
        | none => State.runTiles q.2.2.2 c x area core n (next q.2.1)
      else State.runTiles s1 c x area core n (next ⟨cmd.wtime, cmd.pcieWrites⟩)

/-! ## The FIFO (R245, R248) -/

/-- The command at the head of a core's matrix FIFO, with its crew. -/
def State.matrixHead (s : State) (core : Nat) : Option (MatrixCmd × Crew) :=
  match (s.core core).matrixq with
  | [] => none
  | cmd :: _ => (s.crew? cmd.slot).map fun c => (cmd, c)

/-- The head replaced, or taken out. -/
def State.setMatrixHead (s : State) (core : Nat) (cmd : MatrixCmd) : State :=
  s.modCore core fun k => { k with matrixq := cmd :: k.matrixq.drop 1 }
def State.popMatrix (s : State) (core : Nat) : State := s.modCore core fun k => { k with matrixq := k.matrixq.drop 1 }

/-- A matrix command that stands where its access did not end: it waits for data, is held at a replayable fault, or is
stopped (R232). -/
def State.matrixStop (s : State) (core : Nat) (cmd : MatrixCmd) (c : Crew) : Stop → State
  | .wait => s.setMatrixHead core cmd
  | .fault t =>
    match s.holdAccess cmd.slot c t with
    | some (id, s1) => s1.setMatrixHead core { cmd with held := some id }
    | none => ((s.popMatrix core).forgetFetches (.matrix core)).stopCommand cmd.slot 1 cmd.ticket cmd.wtime t

/-- Whether the head may start (R54, R231). -/
def State.matrixReady (s : State) (core : Nat) (cmd : MatrixCmd) (c : Crew) : Bool :=
  !cmd.started && cmd.held.isNone && (s.core core).running && c.settled cmd.older

/-- The words of a byte list. -/
def wordsOf (b : List Byte) : Nat → List Word
  | 0 => []
  | n + 1 => BitVec.ofNat 32 (natOf (b.take 4)) :: wordsOf (b.drop 4) n

/-- MXTAB_LOAD (R117, R245). -/
def execMxtabLoad (core : Nat) (s : State) : Result :=
  match s.matrixHead core with
  | none => .next s
  | some (cmd, c) =>
    match cmd.table with
    | none => .next s
    | some (n, a) =>
      if !s.matrixReady core cmd c then .next s
      else
        match s.engineRead (.matrix core) cmd.slot c a.toNat 2048 with
        | (.error t, s1) => .next (s1.matrixStop core cmd c t)
        | (.ok b, s1) =>
          let s2 := s1.modCore core fun k =>
            { k with acttab := ((mapFrom (fun i (w : Word) => (512 * n + i, w)) 0 (wordsOf b 512)).foldl
                (fun (m : List (Nat × Word)) (e : Nat × Word) => Cells.set 0 m e.1 e.2) k.acttab) }
          .next ((s2.popMatrix core).finishCommand cmd.slot 1 cmd.ticket cmd.wtime)

/-- MXCMD_START (R231, R248): the command leaves the queue's wait and its bias values are read. -/
def execMxcmdStart (core : Nat) (s : State) : Result :=
  match s.matrixHead core with
  | none => .next s
  | some (cmd, c) =>
    let x := mxBlock cmd.block
    if cmd.table.isSome || !s.matrixReady core cmd c then .next s
    else if x.bias && cmd.bias.isEmpty then
      match s.engineRead (.matrix core) cmd.slot c x.biasp (4 * x.n) with
      | (.error t, s1) => .next (s1.matrixStop core cmd c t)
      | (.ok b, s1) => .next (s1.setMatrixHead core { cmd with started := true, bias := wordsOf b x.n })
    else .next (s.setMatrixHead core { cmd with started := true })

/-- The save area's planes when a command continues inside a tile (R249). -/
def State.savedArea (s : State) (core : Nat) (c : Crew) (cmd : MatrixCmd) (x : MxSetup) : Except Stop (List Byte) × State :=
  if cmd.saved && cmd.kdone != 0 && cmd.written.isNone then
    s.engineRead (.matrix core) cmd.slot c (x.block.save + 64) (partialCount cmd.kdone * x.block.m * 128 * 4 * x.width)
  else (.ok [], s)

/-- MXCMD_COMPLETE (R231, R248): every tile from where the command stands, then the completion add and DONE. -/
def execMxcmdComplete (core : Nat) (s : State) : Result :=
  match s.matrixHead core with
  | none => .next s
  | some (cmd, c) =>
    let h := (mxBlock cmd.block).cnt
    if !cmd.started || cmd.held.isSome || cmd.table.isSome then .next s
    else if cmd.done then
      if s.flushing (.matrix core) || !s.completionInTurn 5 cmd.slot h then .next s
      else if cmd.pcieWrites then
        .next ((s.setMatrixHead core { cmd with pcieWrites := false }).sendFlush cmd.slot (.matrix core))
      else
        .next (((s.completionAdd 5 cmd.slot h (max cmd.lts cmd.wtime)).popMatrix core).finishCommand cmd.slot 1 cmd.ticket
          cmd.wtime)
    else
      match (s.core core).setup cmd.block with
      | none => .next s
      | some x =>
        match s.savedArea core c cmd x with
        | (.error t, s1) => .next (s1.matrixStop core cmd c t)
        | (.ok area, s1) =>
          let r := s1.runTiles c x area core (x.block.n / 128 - cmd.tile) cmd
          match r.stop with
          | some t => .next (r.state.matrixStop core r.cmd c (.fault t))
          | none => .next (r.state.setMatrixHead core { r.cmd with done := true })

/-! ## Split points (R54, R249) -/

/-- Whether (tile, K done) is a split point of a command past where it stands, short of its end (R249). -/
def MatrixCmd.splitPoint (cmd : MatrixCmd) (x : MxBlock) (tile kdone : Nat) : Bool :=
  let ahead := decide (cmd.tile < tile) || (tile == cmd.tile && decide (cmd.kdone < kdone))
  let inside := decide (kdone < x.k) && decide (0 < kdone)
    && ((x.splitg == 1 && kdone % 512 == 0) || (x.splitg == 2 && kdone % 128 == 0))
  let atEnd := x.splitg != 0 && kdone == x.k && decide (128 * (tile + 1) < x.n)
  let fresh := cmd.written.isNone || decide (cmd.tile < tile)
  ahead && decide (128 * tile < x.n) && ((inside && fresh) || atEnd)

/-- The 64 B header of a save area (R249). -/
def saveHeader (tile kdone h : Nat) : List Byte :=
  bytesOf 2 tile ++ bytesOf 2 kdone ++ [BitVec.ofNat 8 h] ++ bytesOf 59 0

/-- The planes of a save area, in plane, row and column order (R249). -/
def Core.planes (k : Core) (x : MxSetup) (area : List Byte) (from' kdone tile : Nat) : List Byte :=
  let part (i j : Nat) : List Nat := (k.reductionFrom x area from' kdone i (128 * tile + j)).partials
  ((upFrom 0 (partialCount kdone)).map fun q =>
    ((upFrom 0 x.block.m).map fun i =>
      ((upFrom 0 128).map fun j => bytesOf (4 * x.width) ((part i j).getD q 0)).flatten).flatten).flatten

/-- The save area written at a split point of the tile where a command stands: its header, and inside a tile the partial
values (R249). -/
def State.saveTile (s : State) (core : Nat) (c : Crew) (cmd : MatrixCmd) (x : MxSetup) (area : List Byte) (tile kdone : Nat) :
    Wrote × State :=
  let ends := kdone == x.block.k
  let from' := if tile = cmd.tile then cmd.kdone else 0
  let h := if ends then 0 else partialCount kdone
  let planes := if ends then [] else (s.core core).planes x area from' kdone tile
  s.engineWrite cmd.slot c cmd.lts x.block.save (saveHeader tile kdone h ++ planes)

/-- MATRIX_SPLIT_STOP (R54, R249): on a pre-empted core, the tiles before the point are finished, the save area
is written, and the command waits at the head of the FIFO to resume there. -/
def execMatrixSplitStop (core tile kdone : Nat) (s : State) : Result :=
  match s.matrixHead core with
  | none => .next s
  | some (cmd, c) =>
    let x0 := mxBlock cmd.block
    if !(s.core core).preempt || !cmd.started || cmd.done || cmd.held.isSome || cmd.table.isSome
      || !cmd.splitPoint x0 tile kdone then .next s
    else
      match (s.core core).setup cmd.block with
      | none => .next s
      | some x =>
        match s.savedArea core c cmd x with
        | (.error t, s1) => .next (s1.matrixStop core cmd c t)
        | (.ok area, s1) =>
          let ends := kdone == x0.k
          let r := s1.runTiles c x area core (tile - cmd.tile + (if ends then 1 else 0)) cmd
          match r.stop with
          | some t => .next (r.state.matrixStop core r.cmd c (.fault t))
          | none =>
            match if ends then none else (r.state.core core).badCell x r.cmd.kdone kdone false (x.cells tile) with
            | some (_, t) => .next (r.state.matrixStop core r.cmd c (.fault t))
            | none =>
              let w := r.state.saveTile core c r.cmd x area tile kdone
              let out := (Written.mk r.cmd.wtime r.cmd.pcieWrites).join w.1.out
              let cmd1 := { r.cmd with wtime := out.wtime, pcieWrites := out.pcie }
              match w.1.stop with
              | some t => .next (w.2.matrixStop core cmd1 c (.fault t))
              | none =>
                .next (w.2.setMatrixHead core { cmd1 with
                  started := false, saved := true
                  tile := if ends then tile + 1 else tile
                  kdone := if ends then 0 else kdone })

end Sys2Proof.Machine
end

