-- ==== Sys2Proof/Machine/Collective.lean ====
section
/-! DEFINITION. The collective engines (R251 to R255): members and their arrival, the collective's results by
canonical reduction (R119, R120, R252), completion, faults, cancellation and the stall bound. -/

namespace Sys2Proof.Machine

/-! ## Commands and members -/

/-- GROUP, SEQ, COUNT, TYPE, OP and ROOT of a block (R251). -/
def CollCmd.group (x : CollCmd) : Nat := blk x.block 32 4
def CollCmd.seq (x : CollCmd) : Nat := blk x.block 36 4
def collCount (b : List Byte) : Nat := blk b 24 4
def collType (b : List Byte) : Nat := blk b 28 1
def collOp (b : List Byte) : Nat := blk b 29 1
def collRoot (b : List Byte) : Nat := blk b 30 2

/-- Bytes of a unit by TYPE (R251). -/
def unitSize (t : Nat) : Nat :=
  match t with
  | 0 => 2
  | 1 => 4
  | 2 => sxSize 2
  | 3 => sxSize 4
  | 4 => sxSize 7
  | _ => 1

/-- The rank of a C-die of the own module in a group (R252). -/
def State.rankOf (s : State) (g : Group) (die : Nat) : Option Nat :=
  let i := g.members.idxOf (s.cox.moduleNo, die)
  if i < g.members.length then some i else none

/-- A command that has ended taken out of its engine's queue; of a member, its (GROUP, SEQ) is not to be posted again
(R254). -/
def State.dropColl (s : State) (die : Nat) (x : CollCmd) : State :=
  let member := ((s.group? x.group).bind fun g => s.rankOf g die).isSome
  let key := (x.group, x.seq)
  s.modDie die fun d =>
    { d with
      collq := d.collq.erase x
      collDone := if member && !d.collDone.contains key then d.collDone ++ [key] else d.collDone }

/-- A command replaced by another. -/
def State.putColl (s : State) (die : Nat) (x y : CollCmd) : State :=
  s.modDie die fun d => { d with collq := d.collq.map fun z => if z = x then y else z }

/-- A collective command stopped with a fault at an address (R232, R254). -/
def State.stopColl (s : State) (die : Nat) (x : CollCmd) (t : Trap) : State :=
  ((s.dropColl die x).forgetFetches (.coll die x.group)).stopCommand x.slot 2 x.ticket x.wtime t

/-- Stopped with a code whose address the spec does not state (R254; log 12). -/
def State.failColl (s : State) (die : Nat) (x : CollCmd) (code : BitVec 8) : State :=
  { s.stopColl die x { code := code, addr := Config.freeWord s.fresh } with fresh := s.fresh + 1 }

/-- The commands of one (GROUP, SEQ) on the four engines of the package, in die and posting order. -/
def State.collsOf (s : State) (group seq : Nat) : List (Nat × CollCmd) :=
  ((upFrom 0 4).map fun d =>
    ((s.die d).collq.filter fun x => x.group == group && x.seq == seq).map fun x => (d, x)).flatten

/-- Whether a waiting command may take part: it is the oldest of its group on its engine, its crew's older
stores are acknowledged, no replay report holds it, and the engine runs fewer than 8 (R231, R251, R253). -/
def State.collReady (s : State) (die : Nat) (x : CollCmd) : Bool :=
  let q := (s.die die).collq
  let oldest := (q.find? fun y => y.group == x.group) == some x
  let settled := ((s.crew? x.slot).map fun c => c.settled x.older).getD false
  !x.started && oldest && settled && x.held.isNone && decide ((q.filter fun y => y.started).length < 8)

/-- A member as it takes part: its rank, its block and what it sends. -/
structure Member where
  rank : Nat
  kind : Nat
  block : List Byte
  /-- C-die and command of an own member; data of another module's. -/
  here : Option (Nat × CollCmd)
  data : List Byte
deriving DecidableEq, Repr

/-- The member of a rank, once it has arrived (R252). -/
def State.member? (s : State) (g : Group) (seq rank : Nat) : Option Member :=
  match g.members[rank]? with
  | none => none
  | some (m, die) =>
    if m = s.cox.moduleNo then
      ((s.die die).collq.find? fun x => x.group == g.id && x.seq == seq && s.collReady die x).map fun x =>
        ⟨rank, x.kind, x.block, some (die, x), []⟩
    else
      (s.cox.remotePosts.find? fun p => p.group == g.id && p.seq == seq && p.rank == rank).map fun p =>
        ⟨rank, p.kind, p.block, none, p.data⟩

/-- Every member of ranks r, r + 1, …, if all have arrived. -/
def State.membersFrom (s : State) (g : Group) (seq : Nat) : Nat → Nat → Option (List Member)
  | 0, _ => some []
  | n + 1, r =>
    match s.member? g seq r, State.membersFrom s g seq n (r + 1) with
    | some m, some l => some (m :: l)
    | _, _ => none

/-- Whether two members agree in what R254 compares. -/
def Member.agrees (a b : Member) : Bool :=
  a.kind == b.kind && collType a.block == collType b.block && collOp a.block == collOp b.block
    && collCount a.block == collCount b.block && collRoot a.block == collRoot b.block

/-! ## Data (R252) -/

/-- Units that a rank of n sends. -/
def sendUnits (kind count n rank root : Nat) : Nat :=
  match kind with
  | 0 | 2 | 3 => count
  | 4 => if rank = root then n * count else 0
  | _ => n * count

/-- A unit of a byte list. -/
def unitAt (size : Nat) (data : List Byte) (u : Nat) : List Byte := (data.drop (u * size)).take size

/-- Units u, u + 1, … of a byte list. -/
def unitsAt (size : Nat) (data : List Byte) (u n : Nat) : List Byte := (data.drop (u * size)).take (n * size)

/-- One reduced unit over the ranks (R119, R120, R252). -/
def reduceUnit (type op : Nat) (vals : List Nat) : Nat :=
  let f := if type = 0 then fmtB16 else fmt32
  let r := if op = 0 then (canonicalSum f 0 vals).1 else (canonicalMinmax f (op == 2) (vals.map some)).1
  if (f.val r).isNan then f.nan else r

/-- A reduction of units u, u + 1, … over the ranks' data. -/
def reduceUnits (type op : Nat) (sends : List (List Byte)) : Nat → Nat → List Byte
  | 0, _ => []
  | n + 1, u =>
    let size := unitSize type
    bytesOf size (reduceUnit type op (sends.map fun d => natOf (unitAt size d u))) ++ reduceUnits type op sends n (u + 1)

/-- What a rank's RECV area receives, from its start (R252). -/
def recvData (kind : Nat) (block : List Byte) (sends : List (List Byte)) (rank : Nat) : List Byte :=
  let count := collCount block
  let type := collType block
  let size := unitSize type
  let root := collRoot block
  match kind with
  | 0 => reduceUnits type (collOp block) sends count 0
  | 1 => reduceUnits type (collOp block) sends count (rank * count)
  | 2 => (sends.map fun d => unitsAt size d 0 count).flatten
  | 3 => if rank = root then (sends.map fun d => unitsAt size d 0 count).flatten else []
  | 4 => unitsAt size (sends.getD root []) (rank * count) count
  | _ => (sends.map fun d => unitsAt size d (rank * count) count).flatten

/-! ## Starting (R252, R254) -/

/-- The extent of a collective in the core window is no global memory (R251). -/
def windowExtent (a n : Nat) : Option Trap :=
  if n ≠ 0 ∧ (a < 2 ^ 56 ∧ windowBase < a + n) then some { code := codeDeckrange, addr := BitVec.ofNat 64 (max a windowBase) }
  else none

/-- An own member's SEND data. -/
def State.readSend (s : State) (die : Nat) (x : CollCmd) (n rank : Nat) : Except Stop (List Byte) × State :=
  match s.crew? x.slot with
  | none => (.ok [], s)
  | some c =>
    let len := sendUnits x.kind (collCount x.block) n rank (collRoot x.block) * unitSize (collType x.block)
    match windowExtent (blk x.block 0 8) len with
    | some t => (.error (.fault t), s)
    | none => s.engineRead (.coll die x.group) x.slot c (blk x.block 0 8) len

/-- Every member's SEND data in rank order; the member whose own read faults or waits ends the reading. -/
def State.readSends (s : State) (n : Nat) : List Member → Except (Member × Stop) (List (List Byte)) × State
  | [] => (.ok [], s)
  | m :: r =>
    match m.here with
    | none =>
      match State.readSends s n r with
      | (.error e, s) => (.error e, s)
      | (.ok l, s) => (.ok (m.data :: l), s)
    | some (die, x) =>
      match s.readSend die x n m.rank with
      | (.error t, s) => (.error (m, t), s)
      | (.ok d, s) =>
        match State.readSends s n r with
        | (.error e, s) => (.error e, s)
        | (.ok l, s) => (.ok (d :: l), s)

/-- Every own member of a collective stopped: one with a fault of its own, the rest with a code (R254). -/
def State.stopMembers (s : State) (l : List Member) (own : Option (Member × Trap)) (code : BitVec 8) : State :=
  l.foldl (init := s) fun s m =>
    match m.here with
    | none => s
    | some (die, x) =>
      match own with
      | some (o, t) => if o = m then s.stopColl die x t else s.failColl die x code
      | none => s.failColl die x code

/-- Posts of other modules used up. -/
def State.dropRemote (s : State) (group seq : Nat) : State :=
  { s with cox := { s.cox with remotePosts := s.cox.remotePosts.filter fun p => !(p.group == group && p.seq == seq) } }

/-- Own data sent to the members of other modules (R252). -/
def State.sendRemote (s : State) (g : Group) (l : List Member) (sends : List (List Byte)) : State :=
  let own := (l.zip sends).filter fun p => p.1.here.isSome
  l.foldl (init := s) fun s m =>
    match m.here, g.members[m.rank]? with
    | none, some (mo, die) => own.foldl (fun s (p : Member × List Byte) => s.emit (.collective mo die p.2)) s
    | _, _ => s

/-- Whether a member of another module cannot be reached from an own one (R434): the sender's rank picks the port. -/
def State.cutOff (s : State) (g : Group) (l : List Member) : Bool :=
  l.any fun m => m.here.isNone &&
    match g.members[m.rank]? with
    | some (_, die) => l.any fun own => own.here.isSome && !s.portUp die own.rank
    | none => false

/-- All members have arrived: they start together, or stop (R252, R254). -/
def State.startMembers (s : State) (g : Group) (seq : Nat) (l : List Member) : State :=
  let s0 := s.dropRemote g.id seq
  match l with
  | [] => s
  | m0 :: _ =>
    if !(l.all fun m => m.agrees m0) then s0.stopMembers l none codeMxparam
    else if s.cutOff g l then s0.stopMembers l none codeRemote
    else
      match s.readSends l.length l with
      | (.error (_, .wait), s1) => s1
      | (.error (m, .fault t), s1) =>
        match m.here with
        | some (die, x) =>
          match (s1.crew? x.slot).bind fun c => s1.holdAccess x.slot c t with
          | some (id, s2) => s2.putColl die x { x with held := some id }
          | none => (s1.dropRemote g.id seq).stopMembers l (some (m, t)) codeRemote
        | none => s1
      | (.ok sends, s1) =>
        let s2 := (s1.dropRemote g.id seq).sendRemote g l sends
        l.foldl (init := s2) fun s m =>
          match m.here with
          | none => s
          | some (die, x) =>
            s.putColl die x { x with started := true, since := s.cycle, data := recvData x.kind x.block sends m.rank }

/-- Commands that stop alone: of an unknown group, of a die that is no member, or posted twice (R254). -/
def State.strayColls (s : State) (group seq : Nat) : List (Nat × CollCmd) :=
  let l := (s.collsOf group seq).filter fun e => !e.2.started
  match s.group? group with
  | none => l
  | some g =>
    l.filter fun e => (s.rankOf g e.1).isNone || (s.die e.1).collDone.contains (group, seq)
      || ((s.die e.1).collq.find? fun x => x.group == group && x.seq == seq) != some e.2

/-- COLLECTIVE_START (R252, R254). -/
def execCollectiveStart (group seq : Nat) (s : State) : Result :=
  match s.strayColls group seq with
  | e :: _ => .next (s.failColl e.1 e.2 codeMxparam)
  | [] =>
    match s.group? group with
    | none => .next s
    | some g =>
      match s.membersFrom g seq g.members.length 0 with
      | none => .next s
      | some l => .next (s.startMembers g seq l)

/-! ## Completion (R253, R255) -/

/-- The started command of a group on an engine. -/
def State.runningColl (s : State) (die group : Nat) : Option CollCmd :=
  (s.die die).collq.find? fun x => x.started && x.group == group

/-- COLLECTIVE_COMPLETE (R231, R253): the RECV writes, then the completion add and DONE. -/
def execCollectiveComplete (die group : Nat) (s : State) : Result :=
  match s.runningColl die group with
  | none => .next s
  | some x =>
    let h := BitVec.ofNat 64 (blk x.block 16 8)
    match s.crew? x.slot with
    | none => .next s
    | some c =>
      if x.held.isSome then .next s
      else if x.done then
        if s.flushing (.coll die group) || !s.completionInTurn 6 x.slot h then .next s
        else if x.pcieWrites then
          .next ((s.putColl die x { x with pcieWrites := false }).sendFlush x.slot (.coll die group))
        else
          .next (((s.completionAdd 6 x.slot h (max x.lts x.wtime)).dropColl die x).finishCommand x.slot 2 x.ticket x.wtime)
      else
        match windowExtent (blk x.block 8 8) x.data.length with
        | some t => .next (s.stopColl die x t)
        | none =>
          let w := s.engineWrite x.slot c x.lts ((blk x.block 8 8 + x.written) % 2 ^ 64) (x.data.drop x.written)
          let out := (Written.mk x.wtime x.pcieWrites).join w.1.out
          let y := { x with
            written := x.written + w.1.count, wtime := out.wtime, pcieWrites := out.pcie
            since := if w.1.count = 0 then x.since else s.cycle }
          let s1 := w.2.putColl die x y
          match w.1.stop with
          | none => .next (w.2.putColl die x { y with done := true, since := s.cycle })
          | some t =>
            match s1.holdAccess x.slot c t with
            | some (id, s2) => .next (s2.putColl die y { y with held := some id })
            | none => .next (s1.stopColl die y t)

/-- The stall bound of R255. -/
def stallBound : Nat := 2 ^ 24

/-- COLLECTIVE_STALL_TIMEOUT (R254, R255). -/
def execCollectiveStallTimeout (die group : Nat) (s : State) : Result :=
  match s.runningColl die group with
  | none => .next s
  | some x => if x.done || decide (s.cycle < x.since + stallBound) then .next s else .next (s.failColl die x codeRemote)

/-- Every own command of a group stopped with REMOTE, started or waiting (R254). -/
def State.cancelGroup (s : State) (group : Nat) (which : CollCmd → Bool) : State :=
  ((upFrom 0 4).map fun d => ((s.die d).collq.filter fun x => x.group == group && which x).map fun x => (d, x)).flatten.foldl
    (fun s e => s.failColl e.1 e.2 codeRemote) s

end Sys2Proof.Machine
end

