-- ==== Sys2Proof/Machine/Images.lean ====
section
/-! DEFINITION. Context images (R369 to R372): the bytes of a crew image and a core image, writing them as stores
at the home slices, and reading a saved crew or core back from them. -/

namespace Sys2Proof.Machine

/-! ## Cells of an image -/

/-- Bytes at an offset, zeros left out. -/
def imageBytes (off : Nat) (b : List Byte) : Memory :=
  (mapFrom (fun i (x : Byte) => ((off + i, x) : Host.Cell)) 0 b).filter fun e => e.2 != 0

/-- A number of n bytes at an offset. -/
def imageNat (off n v : Nat) : Memory := imageBytes off (bytesOf n v)

/-- A table moved up by an offset. -/
def Memory.shift (m : Memory) (off : Nat) : Memory := m.map fun (e : Host.Cell) => (e.1 + off, e.2)

/-- The cells of n bytes from an address, counted from it. -/
def Memory.part (m : Memory) (a n : Nat) : Memory :=
  (m.filter fun e => decide (a ≤ e.1) && decide (e.1 < a + n)).map fun (e : Host.Cell) => (e.1 - a, e.2)

/-- The bytes in which a later table differs from an earlier one; the fuel bounds both lengths together. -/
def Memory.changes : Nat → Memory → Memory → List (Nat × Byte)
  | 0, _, _ => []
  | _ + 1, [], new => new
  | n + 1, e :: r, [] => (e.1, 0) :: Memory.changes n r []
  | n + 1, e :: r, x :: t =>
    if e.1 < x.1 then (e.1, 0) :: Memory.changes n r (x :: t)
    else if x.1 < e.1 then x :: Memory.changes n (e :: r) t
    else if e.2 = x.2 then Memory.changes n r t else x :: Memory.changes n r t

/-! ## The crew image (R370) -/

/-- Bytes of a counter: value, logical time, generation, live (R370 CCTR). -/
def Counter.bytes (k : Counter) : List Byte :=
  bytesOf 8 k.value ++ bytesOf 8 k.lts ++ bytesOf 3 k.gen ++ [if k.live then 0x80 else 0] ++ bytesOf 12 0

/-- A counter of a scope from its bytes. -/
def Counter.ofBytes (scope : Nat) (b : List Byte) : Counter :=
  let k : Counter := ⟨blk b 0 8, (blk b 19 1).testBit 7, blk b 16 3, blk b 8 8, scope⟩
  if k = { Counter.reset with scope := scope } then Counter.reset else k

/-- The mask of some lanes. -/
def bitMask (lanes : List Nat) : Nat := lanes.foldl (fun m l => m ||| 2 ^ l) 0

/-- A waiter entry: handle, threshold, lane mask, registration order. -/
def Waiter.bytes (w : Waiter) (crews : List Crew) (n : Nat) : List Byte :=
  let mask := match w.who with
    | .lanes op => ((crews.find? fun c => !(c.waitLanes op).isEmpty).map fun c => bitMask (c.waitLanes op)).getD 0
    | _ => 0
  bytesOf 8 w.handle.toNat ++ bytesOf 8 w.threshold ++ bytesOf 8 mask ++ bytesOf 8 n

/-- STATE, WAITH, WAITT, TMO and TPD of a thread (R370 table 6). -/
def ThreadState.fields : ThreadState → Nat × Nat × Nat × Nat × Nat
  | .runnable => (0, 0, 0, 0, 0)
  | .waitCounter w => (1, w.handle.toNat, w.threshold.toNat, w.expiry.getD 0, (w.pred.map (·.toNat)).getD 0)
  | .waitTicket c k i => (2, c + 4 * k, i, 0, 0)
  | .replay _ => (3, 0, 0, 0, 0)
  | .exited => (4, 0, 0, 0, 0)

/-- A thread's state in an image (R370 table 6). -/
def Thread.image (t : Thread) : Memory :=
  let f := t.st.fields
  imageNat 0 4 t.pc.toNat ++ imageNat 4 4 t.winstate.toNat ++ imageNat 8 8 t.spillb.toNat ++ imageNat 16 4 t.fpflags.toNat
    ++ imageNat 20 1 t.preds.toNat ++ imageNat 21 1 f.1 ++ imageNat 24 4 t.hints.kinds ++ imageBytes 28 t.hints.payloads
    ++ imageNat 48 8 f.2.1 ++ imageNat 56 8 f.2.2.1 ++ imageNat 64 4 f.2.2.2.1 ++ imageNat 68 1 f.2.2.2.2

/-- The kind code and operation fields of an entry; the codes are the model's (log 10). -/
def EntryOp.image : EntryOp → Nat × List Byte
  | .store => (0, [])
  | .spill => (1, [])
  | .record => (2, [])
  | .atom op wide ret => (3, [op.setWidth 8, if wide then 1 else 0, if ret then 1 else 0])
  | .atomr n => (4, [0, 0, 0, 0, BitVec.ofNat 8 n])
  | .scadd t => (5, [0, 0, 0, t.setWidth 8])
  | .binapp => (6, [])
  | .rput m => (7, [0, 0, 0, 0, 0, BitVec.ofNat 8 m])
  | .mcast _ => (8, [])
  | .cctl n => (9, [BitVec.ofNat 8 n])

/-- The address an entry's line has in an image: decks and operand buffer as their window addresses. -/
def Entry.imageLine (e : Entry) : Nat :=
  match e.space with
  | .global | .mailbox => e.line
  | .deck k => windowBase + 0x04000000 + k % 4 * 0x100000 + e.line
  | .obuf _ => windowBase + 0x20000000 + e.line

/-- A FIFO entry in an image (R370). -/
def Entry.image (e : Entry) : Memory :=
  let k := e.op.image
  let mask := if e.items.isEmpty then bitMask (e.bytes.map (·.1)) else bitMask (e.items.map (·.lane))
  let control := match e.op with
    | .mcast c => c.toNat
    | _ => 0
  let data := if e.items.isEmpty then (e.bytes.map fun (b : Nat × Byte) => imageBytes (64 + b.1) [b.2]).flatten
    else (mapFrom (fun i (x : Item) => imageNat (64 + 16 * i) 8 x.data.toNat ++ imageNat (72 + 16 * i) 8 x.data2.toNat)
      0 e.items).flatten
  imageNat 0 8 e.imageLine ++ imageNat 8 1 k.1 ++ imageNat 9 1 (if e.sent then 1 else 0) ++ imageNat 10 1 e.lane
    ++ imageNat 11 1 (Nat.log2 e.size) ++ imageNat 12 4 e.seq ++ imageNat 16 16 mask ++ imageBytes 32 k.2
    ++ imageNat 40 8 control ++ data

/-- The number of n bytes at an offset of an image. -/
def Memory.word (m : Memory) (off n : Nat) : Nat := natOf ((m.part off n).read 0 n)

/-- A FIFO entry as its bytes give it: what R370 lays out is read from them, what the image does not hold (destinations, path
and hints) stays as it was saved. -/
def Entry.ofImage (e : Entry) (m : Memory) : Entry :=
  if m = e.image then e
  else
    let mask := m.word 16 16
    { e with
      line := match e.space with
        | .global | .mailbox => m.word 0 8
        | .deck _ | .obuf _ => e.line
      sent := m.word 9 1 != 0, lane := m.word 10 1, size := 2 ^ m.word 11 1, seq := m.word 12 4
      op := match e.op with
        | .mcast _ => .mcast (BitVec.ofNat 64 (m.word 40 8))
        | op => op
      bytes := if e.items.isEmpty then
          ((upFrom 0 128).filter fun b => mask.testBit b).map fun b => (b, BitVec.ofNat 8 (m.word (64 + b) 1))
        else e.bytes
      items := mapFrom (fun i (x : Item) =>
        { x with data := BitVec.ofNat 64 (m.word (64 + 16 * i) 8), data2 := BitVec.ofNat 64 (m.word (72 + 16 * i) 8) }) 0 e.items }

/-- Waiter entries as their bytes give them, those whose handle is cleared left out. -/
def waitersOf (l : List Waiter) (m : Memory) (off : Nat) : List Waiter :=
  (mapFrom (fun i (w : Waiter) =>
    let h := BitVec.ofNat 64 (m.word (off + 32 * i) 8)
    { w with index := handleIndex h, handle := h, threshold := m.word (off + 32 * i + 8) 8 }) 0 l).filter fun w => w.handle != 0

/-- Images of a list placed at a stride. -/
def imagesAt {α : Type} (off stride : Nat) (f : α → Memory) (l : List α) : Memory :=
  (mapFrom (fun i (x : α) => (f x).shift (off + stride * i)) 0 l).flatten

/-- Offsets of a crew image's parts (R370 table 5). -/
def imgThreads : Nat := 0x8000
def imgKregs : Nat := 0xA000
def imgTags : Nat := 0xA080
def imgCtrs : Nat := 0xA100
def imgWaiters : Nat := 0xA300
def imgTickets : Nat := 0xA500
def imgEfault : Nat := 0xA530
def imgMisc : Nat := 0xA540
def imgStreg : Nat := 0xA560
def imgWatch : Nat := 0xA580
def imgFifo : Nat := 0xB000
def imgStreams : Nat := 0x10000

/-- Size of a crew image and of a core image (R369). -/
def crewImageSize : Nat := 0x20000
def coreImageSize : Nat := 0x400000

/-- A thread's registers in an image. -/
def Thread.imageRegs (t : Thread) : Memory :=
  (t.regs.map fun (r : Nat × Word) => imageNat (4 * r.1) 4 r.2.toNat).flatten

/-- The bytes of a crew image. -/
def Crew.image (c : Crew) : Memory :=
  let ef := match c.efault with
    | some f => imageNat imgEfault 8 f.addr.toNat ++ imageBytes (imgEfault + 8) [f.code]
    | none => []
  imagesAt 0 512 Thread.imageRegs c.threads
    ++ imagesAt imgThreads 128 Thread.image c.threads
    ++ imagesAt imgKregs 8 (imageNat 0 8) ((upFrom 0 16).map fun k => (c.kreg k).toNat)
    ++ imageNat imgTags 16 c.utags.toNat
    ++ imagesAt imgCtrs 32 (fun n => imageBytes 0 (c.ctrs.ctr n).bytes) (upFrom 0 16)
    ++ (mapFrom (fun i (w : Waiter) => imageBytes (imgWaiters + 32 * i) (w.bytes [c] i)) 0 c.ctrs.waiters).flatten
    ++ imagesAt imgTickets 8 (imageNat 0 8) (((upFrom 0 3).map c.issuedOf) ++ (upFrom 0 3).map c.doneOf)
    ++ ef ++ imageNat (imgEfault + 9) 1 c.lost
    ++ imageNat imgMisc 8 c.lts ++ imageNat (imgMisc + 8) 4 c.fifo.length ++ imageNat (imgMisc + 12) 4 c.slen
    ++ imageNat (imgMisc + 16) 4 c.area ++ imageNat (imgMisc + 20) 4 c.fifo.length
    ++ imagesAt imgStreg 4 (fun r => imageNat 0 4 ((c.stream r).tag.toNat + if (c.stream r).empty then 65536 else 0))
      (upFrom 0 c.nStreams)
    ++ imagesAt imgWatch 8 (imageNat 0 8) (c.watch.map (·.toNat))
    ++ imagesAt imgFifo 320 Entry.image (c.fifo.take 64)
    ++ imagesAt imgStreams 8192 (fun r => ((c.stream r).lanes.map fun (l : Nat × BitVec 1024) =>
        imageNat (128 * l.1) 128 l.2.toNat).flatten) (upFrom 0 c.nStreams)

/-- Pending hints from KINDS and the five payloads. -/
def hintsOf (kinds : Nat) (payload : Nat → Nat) : Hints :=
  let p (n : Nat) : Option (BitVec 22) := if kinds.testBit n then some (BitVec.ofNat 22 (payload n)) else none
  ⟨p 0, p 1, p 2, p 3, p 4⟩

/-- A thread as its bytes give it; a wait that the bytes leave as it was keeps its registration, any other is
presented again like a poller. `op` numbers such a wait. -/
def Thread.ofImage (t : Thread) (b regs : List Byte) (op : Nat) : Thread :=
  let win := blk b 4 4
  let here := (blk b 21 1, blk b 48 8, blk b 56 8, blk b 64 4, blk b 68 1)
  let st : ThreadState :=
    if here = t.st.fields then t.st
    else
      match here.1 with
      | 0 => .runnable
      | 1 => .waitCounter {
          handle := BitVec.ofNat 64 here.2.1, threshold := BitVec.ofNat 64 here.2.2.1
          expiry := if here.2.2.2.1 = 0 then none else some here.2.2.2.1
          pred := if here.2.2.2.1 = 0 then none else some (BitVec.ofNat 3 here.2.2.2.2)
          poller := some 0, op := op }
      | 2 => .waitTicket (here.2.1 % 4) (field here.2.1 2 7) here.2.2.1
      | 3 => match t.st with
        | .replay f => .replay f
        | _ => .replay ⟨0, 0, 0, 0, 0⟩
      | _ => .exited
  { t with
    pc := BitVec.ofNat 32 (blk b 0 4), st := st, spillb := BitVec.ofNat 64 (blk b 8 8)
    trap := win.testBit 31, limit := win.testBit 30, lo := field win 10 10, depth := field win 0 10
    fpflags := BitVec.ofNat 32 (blk b 16 4), preds := BitVec.ofNat 8 (blk b 20 1)
    hints := hintsOf (blk b 24 4) fun n => blk b (28 + 4 * n) 4
    regs := (upFrom 0 128).filterMap fun n => if n = 0 ∨ blk regs (4 * n) 4 = 0 then none
      else some (n, BitVec.ofNat 32 (blk regs (4 * n) 4)) }

/-- A table of counters of a scope from its bytes, those at reset left out. -/
def ctrsOf (scope : Nat) (m : Memory) (off n : Nat) : List (Nat × Counter) :=
  (upFrom 0 n).filterMap fun i =>
    let k := Counter.ofBytes scope ((m.part (off + 32 * i) 32).read 0 32)
    if k = Counter.reset then none else some (i, k)

/-- A saved crew as the bytes of its image give it: the fields of R370 whose layout the spec states are taken from
the bytes, what it does not lay out stays as it was saved (log 10). -/
def Crew.ofImage (c : Crew) (m : Memory) (op : Nat) : Crew :=
  if m = c.image then c
  else
    let word := m.word
    let ef := (word imgEfault 8, word (imgEfault + 8) 1)
    { c with
      threads := mapFrom (fun l (t : Thread) =>
        t.ofImage ((m.part (imgThreads + 128 * l) 128).read 0 128) ((m.part (512 * l) 512).read 0 512) (op + l)) 0 c.threads
      kregs := (upFrom 1 15).filterMap fun k =>
        if word (imgKregs + 8 * k) 8 = 0 then none else some (k, BitVec.ofNat 64 (word (imgKregs + 8 * k) 8))
      utags := BitVec.ofNat 128 (word imgTags 16)
      ctrs := { c.ctrs with ctrs := ctrsOf 0 m imgCtrs 16, waiters := waitersOf c.ctrs.waiters m imgWaiters }
      efault := if ef = (0, 0) then none
        else some ⟨BitVec.ofNat 8 ef.2, BitVec.ofNat 64 ef.1, (c.efault.map (·.ext)).getD 0⟩
      lost := word (imgEfault + 9) 1
      fifo := mapFrom (fun i (e : Entry) => e.ofImage (m.part (imgFifo + 320 * i) 320)) 0 c.fifo
      issued := (upFrom 0 3).map fun k => word (imgTickets + 8 * k) 8
      done := (upFrom 3 3).map fun k => word (imgTickets + 8 * k) 8
      lts := word imgMisc 8
      watch := (upFrom 0 4).map fun k => BitVec.ofNat 64 (word (imgWatch + 8 * k) 8)
      slen := word (imgMisc + 12) 4, scopyLen := word (imgMisc + 12) 4
      scopy := (upFrom 0 c.nStreams).map fun r =>
        (BitVec.ofNat 16 (word (imgStreg + 4 * r) 4), (word (imgStreg + 4 * r) 4).testBit 16)
      streams := mapFrom (fun r (v : Stream) => if c.nStreams ≤ r then v else
        { v with
          tag := BitVec.ofNat 16 (word (imgStreg + 4 * r) 4), empty := (word (imgStreg + 4 * r) 4).testBit 16
          lanes := (upFrom 0 64).filterMap fun l =>
            let x := word (imgStreams + 8192 * r + 128 * l) 128
            if x = 0 then none else some (l, BitVec.ofNat 1024 x) }) 0 c.streams }

/-! ## The core image (R371) -/

/-- A reservation record's bytes: the descriptor of R243, then live in byte 31 bit 7. -/
def ResRecord.bytes (r : ResRecord) : List Byte :=
  bytesOf 4 r.base ++ bytesOf 4 r.len ++ bytesOf 1 r.fmt ++ bytesOf 1 r.layout ++ bytesOf 2 0 ++ bytesOf 4 r.pitch
    ++ bytesOf 4 r.bstr ++ bytesOf 4 r.soff ++ bytesOf 4 r.spitch ++ bytesOf 3 0 ++ [0x80]

/-- A generator's bytes: mode, seed, P, lane states. -/
def Generator.bytes (g : Generator) : List Byte :=
  bytesOf 8 (match g.mode with | .xs => 0 | .vdc => 1 | .ramp => 2) ++ bytesOf 8 g.seed.toNat ++ bytesOf 8 g.pos
    ++ (g.lanes.map fun x => bytesOf 8 x.toNat).flatten

/-- A generator from its bytes. -/
def Generator.ofBytes (b : List Byte) : Generator where
  mode := match blk b 0 8 with
    | 0 => .xs
    | 1 => .vdc
    | _ => .ramp
  seed := BitVec.ofNat 64 (blk b 8 8)
  pos := blk b 16 8
  lanes := (upFrom 0 64).map fun l => BitVec.ofNat 64 (blk b (24 + 8 * l) 8)

/-- A copy command's image: block, then progress (row, I0, item, flags), whose layout is the model's (log 10). -/
def CopyCmd.image (x : CopyCmd) : Memory :=
  imageBytes 0 x.block ++ imageNat 64 8 x.row ++ imageNat 72 8 x.i0 ++ imageNat 80 4 x.item
    ++ imageNat 84 1 (if x.started then 1 else 0)

/-- A matrix command's image: block or table, then progress (tile and K done), whose layout is the model's (log 10). -/
def MatrixCmd.image (x : MatrixCmd) : Memory :=
  (match x.table with
  | some (n, a) => imageNat 0 8 a.toNat ++ imageNat 69 1 (n + 1)
  | none => imageBytes 0 x.block) ++ imageNat 64 2 x.tile ++ imageNat 66 2 x.kdone ++ imageNat 68 1 (if x.saved then 1 else 0)

/-- A withdrawn collective's image (R371 COLLQ). -/
def Withdrawn.image (x : Withdrawn) : Memory :=
  imageBytes 0 x.cmd.block ++ imageNat 64 4 x.area ++ imageNat 68 1 x.cmd.kind ++ imageNat 69 1 1

/-- Offsets of a core image's parts (R371 table 7). -/
def imgObuf : Nat := 0x200000
def imgDeck : Nat := 0x300000
def imgRecs : Nat := 0x380000
def imgActt : Nat := 0x381000
def imgCoreCtr : Nat := 0x383000
def imgCoreWait : Nat := 0x385000
def imgGens : Nat := 0x386000
def imgCopyq : Nat := 0x38A000
def imgMxq : Nat := 0x38B000
def imgClCtr : Nat := 0x38C000
def imgClWait : Nat := 0x38C800
def imgHdr : Nat := 0x38E000
def imgCollq : Nat := 0x38F000

/-- Images of the entries of a sparse table, each at its key's place. -/
def sparseImage {α : Type} (off stride : Nat) (f : α → List Byte) (l : List (Nat × α)) : Memory :=
  (l.map fun (e : Nat × α) => imageBytes (off + stride * e.1) (f e.2)).flatten

/-- The cluster counters that a core keeps (R73), at the places of its image. -/
def keptCounters (core : Nat) (h : CtrHome) : List (Nat × Counter) :=
  (h.ctrs.filter fun e => e.1 % 4 == core % 4).map fun (e : Nat × Counter) => (e.1 / 4, e.2)

/-- The bytes of a core image. The header's layout is the model's (log 10). -/
def SavedCore.image (v : SavedCore) : Memory :=
  let crews := v.crews.map (·.crew)
  let k := v.core
  let waits (off : Nat) (l : List Waiter) : Memory :=
    (mapFrom (fun i (w : Waiter) => imageBytes (off + 32 * i) (w.bytes crews i)) 0 l).flatten
  let cl := (v.cluster.map (·.ctrs)).getD CtrHome.reset
  k.acc ++ k.obuf.shift imgObuf ++ k.deck.shift imgDeck
    ++ sparseImage imgRecs 32 ResRecord.bytes k.records
    ++ sparseImage imgActt 4 (fun (w : Word) => bytesOf 4 w.toNat) k.acttab
    ++ sparseImage imgCoreCtr 32 Counter.bytes k.ctrs.ctrs
    ++ waits imgCoreWait k.ctrs.waiters
    ++ imagesAt imgGens 1024 (fun n => imageBytes 0 (k.gen n).bytes) (upFrom 0 16)
    ++ (k.copyq.map fun (q : Nat × List CopyCmd) => imagesAt (imgCopyq + 1024 * q.1) 128 CopyCmd.image q.2).flatten
    ++ imagesAt imgMxq 128 MatrixCmd.image k.matrixq
    ++ sparseImage imgClCtr 32 Counter.bytes (keptCounters v.index cl)
    ++ waits imgClWait ((cl.waiters.filter fun w => w.index % 4 == v.index % 4).take 16)
    ++ imageNat imgHdr 2 v.index ++ imageNat (imgHdr + 2) 1 (if k.ldet then 1 else 0) ++ imageNat (imgHdr + 3) 1 crews.length
    ++ imagesAt (imgHdr + 4) 4 (fun (c : Crew) => imageNat 0 4 c.area) (crews.take 15)
    ++ imagesAt imgCollq 128 Withdrawn.image (v.collq.take 64)

/-- Queued commands as their bytes give them: block and progress (R371; log 10). -/
def CopyCmd.ofImage (x : CopyCmd) (m : Memory) : CopyCmd :=
  { x with
    block := m.read 0 64, row := m.word 64 8, i0 := m.word 72 8, item := m.word 80 4, started := m.word 84 1 != 0 }
def MatrixCmd.ofImage (x : MatrixCmd) (m : Memory) : MatrixCmd :=
  { x with
    table := x.table.map fun t => (t.1, BitVec.ofNat 64 (m.word 0 8))
    block := if x.table.isSome then x.block else m.read 0 64
    tile := m.word 64 2, kdone := m.word 66 2, saved := m.word 68 1 != 0 }
def Withdrawn.ofImage (x : Withdrawn) (m : Memory) : Withdrawn :=
  { area := m.word 64 4, cmd := { x.cmd with block := m.read 0 64, kind := m.word 68 1 } }

/-- A saved core as the bytes of its image give it (R371, R372; log 10). -/
def SavedCore.ofImage (v : SavedCore) (m : Memory) : SavedCore :=
  if m = v.image then v
  else
    let recs := (upFrom 0 32).filterMap fun n =>
      let b := (m.part (imgRecs + 32 * n) 32).read 0 32
      if (blk b 31 1).testBit 7 then some (n, recordOf b) else none
    let cl := v.cluster.map fun (x : Cluster) =>
      let own (w : Waiter) : Bool := w.index % 4 == v.index % 4
      { x with ctrs := { x.ctrs with
          waiters := (x.ctrs.waiters.filter fun w => !own w) ++ waitersOf ((x.ctrs.waiters.filter own).take 16) m imgClWait
            ++ (x.ctrs.waiters.filter own).drop 16
          ctrs := (ctrsOf 2 m imgClCtr 64).foldl (fun t (e : Nat × Counter) => Cells.put t (4 * e.1 + v.index % 4) e.2)
            (x.ctrs.ctrs.filter fun e => e.1 % 4 != v.index % 4) } }
    { v with
      cluster := cl
      collq := (mapFrom (fun i (x : Withdrawn) => (x.ofImage (m.part (imgCollq + 128 * i) 128), m.word (imgCollq + 128 * i + 69) 1)) 0
        v.collq).filterMap fun x => if x.2 = 0 then none else some x.1
      core := { v.core with
        acc := m.part 0 0x200000, obuf := m.part imgObuf 0x100000, deck := m.part imgDeck 0x80000, records := recs
        acttab := (upFrom 0 2048).filterMap fun n =>
          let w := natOf ((m.part (imgActt + 4 * n) 4).read 0 4)
          if w = 0 then none else some (n, BitVec.ofNat 32 w)
        ctrs := { v.core.ctrs with
          ctrs := ctrsOf 1 m imgCoreCtr 256, waiters := waitersOf v.core.ctrs.waiters m imgCoreWait }
        copyq := v.core.copyq.map fun (q : Nat × List CopyCmd) =>
          (q.1, mapFrom (fun i (x : CopyCmd) => x.ofImage (m.part (imgCopyq + 1024 * q.1 + 128 * i) 128)) 0 q.2)
        matrixq := mapFrom (fun i (x : MatrixCmd) => x.ofImage (m.part (imgMxq + 128 * i) 128)) 0 v.core.matrixq
        gens := (upFrom 0 16).map fun n => (n, Generator.ofBytes ((m.part (imgGens + 1024 * n) 536).read 0 536)) } }

/-! ## Images in memory (R369) -/

/-- Where a crew slot and a core slot of a context lie (R369). -/
def State.crewImageAt (s : State) (ctx area : Nat) : Nat := (s.context ctx).img * 2 ^ 16 + 0x30000000 + crewImageSize * area
def State.coreImageAt (s : State) (ctx n : Nat) : Nat := (s.context ctx).img * 2 ^ 16 + coreImageSize * n

/-- A slice's lines in a range written at a logical time past their leases (R279). -/
def Slice.stamp (e : Slice) (a n : Nat) : Slice :=
  { e with lines := e.lines.map fun (x : Nat × LineMeta) =>
      if a ≤ x.1 ∧ x.1 < a + n then (x.1, { x.2 with wts := x.2.rts + 1, rts := x.2.rts + 1, dirty := x.2.present }) else x }

/-- An image stored whole at the home slices of device memory (R369): n bytes cleared, then its cells. -/
def State.storeImage (s : State) (a n : Nat) (cells : Memory) : State :=
  if dramSize < a + n then s
  else
    let rest : Memory := s.mem.filter fun e => decide (e.1 < a) || decide (a + n ≤ e.1)
    { s with
      mem := (cells.filter fun e => decide (e.1 < n)).foldl (fun m (e : Host.Cell) => m.setByte (a + e.1) e.2) rest
      poison := s.poison.filter fun l => !(decide (a ≤ l) && decide (l < a + n))
      slices := s.slices.map fun (e : Nat × Slice) => (e.1, e.2.stamp a n) }

/-- Some bytes of an image stored again. -/
def State.patchImage (s : State) (a : Nat) (l : List (Nat × Byte)) : State :=
  l.foldl (init := s) fun s (e : Nat × Byte) =>
    if dramSize ≤ a + e.1 then s
    else
      { s with
        mem := s.mem.setByte (a + e.1) e.2
        slices := s.slices.map fun (x : Nat × Slice) => (x.1, x.2.stamp (lineOf (a + e.1)) 1) }

/-- What happened to a saved crew is credited to its image (R53, R68, R307, R366). -/
def State.syncCrew (s : State) (ctx : Nat) (w : SavedCrew) : State :=
  if w.crew = w.asSaved then s
  else
    let old := w.asSaved.image
    let new := w.crew.image
    s.patchImage (s.crewImageAt ctx w.crew.area) (Memory.changes (old.length + new.length) old new)

/-- The images of saved crews brought up to date. -/
def State.syncImages (s : State) : State :=
  let stale := s.rm.saved.any fun v => v.crews.any fun w => decide (w.crew ≠ w.asSaved)
  if !stale then s
  else
    let s1 := s.rm.saved.foldl (fun s (v : SavedCore) => v.crews.foldl (fun s w => s.syncCrew v.ctx w) s) s
    { s1 with rm := { s1.rm with saved := s1.rm.saved.map fun (v : SavedCore) =>
        { v with crews := v.crews.map fun (w : SavedCrew) => { w with asSaved := w.crew } } } }

/-- A saved crew read back from its image. -/
def State.loadCrew (s : State) (ctx : Nat) (w : SavedCrew) : Crew :=
  let a := s.crewImageAt ctx w.crew.area
  if dramSize < a + crewImageSize then w.crew else w.crew.ofImage (s.mem.part a crewImageSize) s.nextId

/-- A saved core read back from its image. -/
def State.loadCore (s : State) (v : SavedCore) : SavedCore :=
  let a := s.coreImageAt v.ctx v.imgSlot
  if v.parked || dramSize < a + coreImageSize then v else v.ofImage (s.mem.part a coreImageSize)

end Sys2Proof.Machine
end

