-- ==== Sys2Proof/Machine/Ringmaster.lean ====
section
/-! DEFINITION. The Ringmaster's intake: launch records and their checks (R320 to R323), dependences and
completion (R324 to R326), queues and context registers (R327, R328, R367), kicks and graphs (R336 to R338), the
launch window (R335), and the registers that a lock freezes (R397). -/

namespace Sys2Proof.Machine

/-! ## Device memory by physical address -/

/-- The lines of n bytes from an address. -/
def linesOf (a n : Nat) : List Nat := if n = 0 then [] else (upFrom (a / 128) ((a + n - 1) / 128 + 1 - a / 128)).map (128 * ·)

/-- Bytes of device memory at their homes: none where LPDDR-5X ends or a line is poisoned (R272, R283). -/
def State.physRead (s : State) (a n : Nat) : Option (List Byte) :=
  if dramSize < a + n ∨ (linesOf a n).any s.poisoned then none else some (s.mem.read a n)

/-- Bytes stored at their homes by a unit outside the cores. -/
def State.physWrite (s : State) (a : Nat) (data : List Byte) : State :=
  if dramSize < a + data.length then s
  else
    (linesOf a data.length).foldl
      (fun s l => if s.line l = LineMeta.absent then s.useLlc l true else ((s.homeWrite l 0).2).rest l)
      { s with mem := s.mem.write a data }

/-! ## Records (R320) -/

/-- The fields of a launch record. -/
structure Launch where
  crews : Nat
  streams : Nat
  cb : Nat
  ldet : Bool
  cluster : Bool
  deck : Nat
  trapv : Option Word
  entry : Word
  teams : Nat
  done : Nat
  param : DWord
  /-- Used dependences: slot, short handle, threshold. -/
  deps : List (Nat × Nat × Nat)
  reserved : Bool
deriving DecidableEq, Repr

/-- A record's fields (R320 tables 1 and 3). -/
def launchOf (bits : BitVec 512) : Launch :=
  let b := bits.toNat
  { crews := field b 60 4 + 1
    streams := field b 56 4
    cb := field b 7 49 * 128
    ldet := b.testBit 1
    cluster := b.testBit 0
    deck := field b 112 13 * 128
    trapv := if field b 88 24 = 0xFFFFFF then none else some (BitVec.ofNat 32 (4 * field b 88 24))
    entry := BitVec.ofNat 32 (4 * field b 64 24)
    teams := field b 128 32
    done := field b 160 32
    param := BitVec.ofNat 64 (field b 192 64)
    deps := (upFrom 0 4).filterMap fun i =>
      if field b (288 + 64 * i) 32 = 0 then none else some (i, field b (288 + 64 * i) 32, field b (256 + 64 * i) 32)
    reserved := field b 2 5 != 0 || field b 125 3 != 0 }

/-- The full handle a short handle names, when its counter is live with that generation (R320 table 2). -/
def State.shortHandle (s : State) (h : Nat) : Option DWord :=
  let home := field h 30 2
  let index := field h 14 16
  let k := (s.die home).ctrs.ctr index
  if k.live && k.gen % 2 ^ 14 == field h 0 14 then some (handleOf 4 home index k.gen) else none

/-- The checks of a record at the head of its queue, in the order of R321 table 4: the code of the first failing. -/
def State.recordFault (s : State) (ctx : Nat) (r : Launch) : Option Nat :=
  let x := s.context ctx
  firstFailing [
    (0x01, r.reserved),
    (0x02, decide (8 < r.streams) || decide (4096 * 128 < r.deck) || decide (32 < r.crews * r.streams)),
    (0x03, r.teams == 0),
    (0x04, r.cluster && r.teams % 4 != 0),
    (0x05, (r.done != 0 && (s.shortHandle r.done).isNone) || r.deps.any fun d => (s.shortHandle d.2.1).isNone),
    (0x06, decide (x.pcrews < if r.cluster then 4 * r.crews else r.crews))]

/-! ## Completion adds and rejections (R322, R326) -/

/-- An add of 1 whose loss is logged as kind 16, at a home: dropped where it is stale, lost where it saturates (R81,
R326). -/
def State.loggedAddAt (s : State) (source ctx : Nat) (r : HomeRef) (h : DWord) (lts : Nat) : State :=
  let lost (s : State) : State := s.reportAdd (.logged source ctx) h true
  if (s.home r).stale h then lost s
  else
    let q := s.unitAdd (.logged source ctx) r h 1 lts
    if q.1 then lost q.2 else q.2

/-- An add of 1 by the Ringmaster or Coxswain to a package or system handle (R81, R326). -/
def State.loggedAdd (s : State) (source ctx : Nat) (h : DWord) (lts : Nat) : State :=
  match s.packageHome h with
  | none => s.reportAdd (.logged source ctx) h true
  | some r => s.loggedAddAt source ctx r h lts

/-- The DONE add of a rejected or stale record, which releases nothing (R322). -/
def State.rejectAdd (s : State) (r : Launch) : State :=
  if r.done = 0 then s
  else
    match s.shortHandle r.done with
    | some h => s.loggedAdd 200 0xFF h 0
    | none => s

/-- Event kind 1: address, queue and code (R322; layout, log 9). -/
def State.rejectEvent (s : State) (addr q code : Nat) : State :=
  s.event 200 1 (s.queue q).ctx (bytesOf 8 addr ++ bytesOf 8 q ++ bytesOf 8 code)

/-- A launch-window slot's base in the window (R335). -/
def windowSlot (q wslot : Nat) : Nat := 8192 * q + 128 * wslot

/-- The address of a launch-window slot: LWBASE is 2 TiB + 1 GiB of the HDM range (R335, R341). -/
def windowAddr (q wslot : Nat) : Nat := 2 ^ 41 + 2 ^ 30 + windowSlot q wslot

/-- A slot's status word written: VALID, CODE, SEQ (R335 table 7). -/
def State.windowStatus (s : State) (q wslot code seq : Nat) : State :=
  let w := s.rm.window.write (windowSlot q wslot + 64) (bytesOf 4 seq ++ bytesOf 1 code ++ bytesOf 2 0 ++ [0x80])
  { s with rm := { s.rm with window := w } }

/-- A slot's CODE after a later check (R322). -/
def State.windowCode (s : State) (q wslot code : Nat) : State :=
  { s with rm := { s.rm with window := s.rm.window.write (windowSlot q wslot + 68) (bytesOf 1 code) } }

/-- A record rejected: event, DONE add, code in its window slot (R322). -/
def State.reject (s : State) (q : Nat) (r : LaunchRecord) (code : Nat) : State :=
  let s1 := (s.rejectEvent r.addr q code).rejectAdd (launchOf r.bits)
  match r.source with
  | .window w => s1.windowCode q w code
  | _ => s1

/-! ## Dependences (R324, R325) -/

/-- Whether a context has an image that is not restored (R372). -/
def State.hasSaved (s : State) (ctx : Nat) : Bool := s.rm.saved.any fun v => v.ctx == ctx && !v.parked

/-- Whether the Ringmaster's waits for a context are dropped: it is being saved, or has an image (R372). -/
def State.waitsDropped (s : State) (ctx : Nat) : Bool := (s.context ctx).saving || s.hasSaved ctx

/-- A grid by serial changed. -/
def State.modGrid (s : State) (serial : Nat) (f : Grid → Grid) : State :=
  { s with rm := { s.rm with grids := s.rm.grids.map fun g => if g.serial = serial then f g else g } }

/-- The Ringmaster's waits for a grid withdrawn from every home. -/
def State.dropDeps (s : State) (g : Grid) : State :=
  g.unmet.foldl (fun s d => s.dropWaiters (.dependence g.serial d.1)) s

/-- One dependence looked at by the Ringmaster: met or freed, which it notes like a wake, or neither (R324, R325). -/
def State.lookDep (s : State) (serial : Nat) (d : Nat × DWord × Nat) (else' : HomeRef → State) : State :=
  match s.packageHome d.2.1 with
  | none => s.post (.dependenceWake serial d.1 0 true)
  | some r =>
    let k := (s.home r).ctr (handleIndex d.2.1)
    if (s.home r).stale d.2.1 then s.post (.dependenceWake serial d.1 0 true)
    else if d.2.2 ≤ k.value then s.post (.dependenceWake serial d.1 k.lts false)
    else else' r

/-- The Ringmaster's waits for a grid registered at their homes, as far as there is room (R84, R88). -/
def State.registerDeps (s : State) (g : Grid) : State :=
  g.unmet.foldl (init := s) fun s d =>
    s.lookDep g.serial d fun r => (s.register r d.2.1 d.2.2 (.dependence g.serial d.1)).2

/-- Whether the wait for a dependence stands in a home's list. -/
def State.depListed (s : State) (serial n : Nat) : Bool :=
  s.dies.any fun e => e.2.ctrs.waiters.any fun w => w.who == .dependence serial n

/-- The dependences of a grid that no home holds and no wake has answered polled (R88). -/
def State.pollDeps (s : State) (g : Grid) : State :=
  g.unmet.foldl (init := s) fun s d =>
    if (s.depWake g.serial d.1).isSome || s.depListed g.serial d.1 then s else s.lookDep g.serial d fun _ => s

/-- Whether every earlier grid of a grid's queue has started; a child is not held by that order (R330). -/
def State.orderMet (s : State) (g : Grid) : Bool :=
  g.parent.isSome || (s.rm.grids.takeWhile fun x => x.serial != g.serial).all fun x =>
    x.started || x.parent.isSome || x.queue != g.queue

/-- A grid whose dependences are met starts when its queue's order allows, with acquire (R324, R330). -/
def State.tryStart (s0 : State) (serial : Nat) : State :=
  match s0.grid? serial with
  | none => s0
  | some g =>
    if g.started then s0
    else
      let s := if s0.waitsDropped g.ctx then s0 else s0.pollDeps g
      if !s.depsMet g || !s.orderMet g then s
      else
        let lts := g.unmet.foldl (fun m d => max m (((s.depWake g.serial d.1).map (·.1)).getD 0)) g.lts
        (s.dropDeps g).modGrid serial fun g => { g with started := true, unmet := [], lts := lts }

/-- GRID_START (R324, R330). -/
def execGridStart (serial : Nat) (s : State) : Result := .next (s.tryStart serial)

/-- GRID_DEPENDENCE_STALE (R325): a counter freed while its grid was pending; the grid never starts, and its order holds no
later grid. -/
def execGridDependenceStale (serial : Nat) (s0 : State) : Result :=
  match s0.grid? serial with
  | none => .next s0
  | some g =>
    if g.started then .next s0
    else
      let s := if s0.waitsDropped g.ctx then s0 else s0.pollDeps g
      if !(g.unmet.any fun d => ((s.depWake g.serial d.1).map (·.2)).getD false) then .next s
      else
        let s1 := s.dropDeps g
        let s2 := { s1 with rm := { s1.rm with grids := s1.rm.grids.filter fun x => x.serial != serial } }
        .next ((s2.rejectEvent g.addr g.queue 5).rejectAdd (launchOf g.bits))

/-! ## Acceptance (R321 to R323) -/

/-- The queue whose head is checked: highest priority, then lowest number (R323). -/
def State.nextQueue (s : State) : Option (Nat × Queue) :=
  (s.rm.queues.filter fun e => !(e.2.children.isEmpty && e.2.records.isEmpty)).foldl (init := none) fun m e =>
    match m with
    | none => some e
    | some b => if b.2.prio < e.2.prio then some e else m

/-- An accepted record's grid (R320 to R324, R330). -/
def State.accept (s : State) (q : Nat) (v : Queue) (r : LaunchRecord) : State :=
  let f := launchOf r.bits
  let serial := s.rm.serial
  let unmet := f.deps.filterMap fun d => (s.shortHandle d.2.1).map fun h => (d.1, h, d.2.2)
  let tree := match r.source with
    | .child p d => (some p, d)
    | _ => (none, 0)
  let g : Grid := {
    serial := serial, queue := q, ctx := v.ctx, prio := v.prio, parent := tree.1, depth := tree.2, bits := r.bits
    addr := r.addr, done := if f.done = 0 then 0 else (s.shortHandle f.done).getD 0, unmet := unmet, started := false
    dispatched := 0, exited := 0, lts := r.lts, window := tree.1.isNone }
  let s1 := { s with rm := { s.rm with serial := (serial + 1) % 2 ^ 32, grids := s.rm.grids ++ [g] } }
  (s1.registerDeps g).tryStart serial

/-- LAUNCH_RECORD_CHECK (R321 to R323, R330): the head of one queue, a child list before the queue's own records. -/
def execLaunchRecordCheck (s : State) : Result :=
  match s.nextQueue with
  | none => .next s
  | some (q, v) =>
    let take (r : LaunchRecord) (v1 : Queue) : Result :=
      let s1 := s.setQueue q v1
      match s1.recordFault v.ctx (launchOf r.bits) with
      | some code => .next (s1.reject q r code)
      | none => .next (s1.accept q v r)
    match v.children, v.records with
    | r :: t, _ => take r { v with children := t }
    | [], r :: t => take r { v with records := t }
    | [], [] => .next s

/-- GRID_RETIRE (R27, R326): every team and child grid has ended; 1 is added to DONE with release. -/
def execGridRetire (serial : Nat) (s : State) : Result :=
  match s.grid? serial with
  | none => .next s
  | some g =>
    let isChild (r : LaunchRecord) : Bool := match r.source with
      | .child p _ => p == serial
      | _ => false
    let children := s.rm.grids.any (fun x => x.parent == some serial)
      || s.rm.queues.any fun e => e.2.children.any isChild
    if !g.started || decide (g.exited < (launchOf g.bits).teams) || children then .next s
    else
      let s1 := { s with rm := { s.rm with grids := s.rm.grids.filter fun x => x.serial != serial } }
      let s2 := match g.parent with
        | some p => s1.modGrid p fun x => { x with lts := max x.lts g.lts }
        | none => s1
      .next (if g.done = 0 then s2 else s2.loggedAdd 200 g.ctx g.done g.lts)

/-! ## Registers a lock freezes (R396, R397, R399) -/

/-- The TDI enters ERROR, with its event (R396, R399). -/
def State.tdiError (s : State) : State :=
  { s with boot := { s.boot with tdi := .error } }.event 202 13 0xFF [3]

/-- A write to a frozen register: not applied from the lock on, and an error in CONFIG_LOCKED and RUN (R397). -/
def State.frozenWrite (s : State) (f : State → State) : State :=
  match s.boot.tdi with
  | .unlocked => f s
  | .locked | .run => s.tdiError
  | .error => s

/-- A host access without the T bit outside the identity block: from the lock on, dropped and logged (R398, R399). -/
def State.untrusted (s : State) (f : State → State) : State :=
  if s.boot.tdi == .unlocked then f s else s.event 203 9 0xFF []

/-- Whether a context holds a core or a grid (R328). -/
def State.contextBusy (s : State) (x : Nat) : Bool :=
  s.cores.any (fun k => k.2.ctx == some x) || s.rm.grids.any fun g => g.ctx == x

/-- QCFG_WRITE (R327, R397). -/
def execQcfgWrite (q : Nat) (value : BitVec 64) (s : State) : Result :=
  .next (s.frozenWrite fun s =>
    let v := s.queue q
    let w := value.toNat
    if v.en then if w.testBit 8 then s else s.setQueue q { v with en := false }
    else if !v.records.isEmpty || !v.children.isEmpty || s.rm.grids.any fun g => g.queue == q then s
    else s.setQueue q { v with path := w.testBit 9, en := w.testBit 8, ctx := field w 4 4, prio := field w 0 3 })

/-- CONTEXT_REGISTER_WRITE (R328, R397). -/
def execContextRegisterWrite (ctx off : Nat) (value : BitVec 64) (s : State) : Result :=
  .next (s.frozenWrite fun s =>
    if s.contextBusy ctx then s
    else
      let x := s.context ctx
      let w := value.toNat
      match off with
      | 0 =>
        if field w 0 5 < 7 ∨ 24 < field w 0 5 then s
        else s.setContext ctx { x with pool := field w 16 40 * 2 ^ 16, shift := field w 0 5 }
      | 8 => s.setContext ctx { x with pcrews := field w 0 20 }
      | 16 => s.setContext ctx { x with slice := field w 0 16 }
      | _ => s)

/-- CONTEXT_TRANS_WRITE (R367, R397). -/
def execContextTransWrite (ctx off : Nat) (value : BitVec 64) (s : State) : Result :=
  .next (s.frozenWrite fun s =>
    if s.contextBusy ctx then s
    else
      let x := s.context ctx
      let w := value.toNat
      match off with
      | 0 => s.setContext ctx { x with root := field w 20 32, replay := w.testBit 1, priv := w.testBit 0 }
      | 8 => s.setContext ctx { x with img := field w 16 36 }
      | _ => s)

/-! ## Kicks (R336 to R338) -/

/-- Records a queue holds before acceptance (R327). -/
def queueLimit : Nat := 256

/-- A patch entry read from its 16 bytes: node, word, op, value, and whether its RES0 bytes are clear. -/
def patchEntry (b : List Byte) : Nat × Nat × Nat × Nat × Bool :=
  (blk b 0 2, blk b 2 1, blk b 3 1, blk b 8 8, blk b 4 4 == 0)

/-- A patch table's entries, when the whole table passes (R338). -/
def State.patchTable (s : State) (pt nodes : Nat) : Option (List (Nat × Nat × Nat × Nat)) :=
  if pt = 0 then some []
  else
    match s.physRead pt 8 with
    | none => none
    | some h =>
      let e := blk h 0 2
      if blk h 2 6 ≠ 0 ∨ 4096 < e then none
      else
        match s.physRead (pt + 8) (16 * e) with
        | none => none
        | some b =>
          let l := (upFrom 0 e).map fun i => patchEntry ((b.drop (16 * i)).take 16)
          if l.all fun x => decide (x.1 < nodes) && decide (x.2.1 < 8) && decide (x.2.2.1 < 2) && x.2.2.2.2 then
            some (l.map fun x => (x.1, x.2.1, x.2.2.1, x.2.2.2.1))
          else none

/-- A patch applied to an image (R338 table 9). -/
def State.patch (s : State) (image : Nat) (p : Nat × Nat × Nat × Nat) : State :=
  let a := image + 64 + 64 * p.1 + 8 * p.2.1
  if p.2.2.1 = 0 then s.physWrite a (bytesOf 8 p.2.2.2)
  else s.physWrite a (bytesOf 4 (natOf (s.mem.read a 4) + p.2.2.2))

/-- The number of nodes of a graph image, when its header is sound (R336). That a kick of an image whose header has a nonzero
RES0 byte is rejected is the model's choice: R336 to R338 state no response (log 12, DESIGN CHOICE). -/
def State.graphNodes (s : State) (image : Nat) : Option Nat :=
  match s.physRead image 64 with
  | none => none
  | some h =>
    let n := blk h 0 4
    if n = 0 ∨ 4096 < n ∨ (h.drop 4).any (· != 0) ∨ (s.physRead (image + 64) (64 * n)).isNone then none else some n

/-- Copies of an image's nodes (R338). -/
def State.graphRecords (s : State) (image nodes : Nat) : List LaunchRecord :=
  (upFrom 0 nodes).map fun n =>
    let a := image + 64 + 64 * n
    ⟨BitVec.ofNat 512 (natOf (s.mem.read a 64)), a, .graph, 0⟩

/-- A kick rejected: an event and nothing else (R337). A code the spec does not state is free (log 12). -/
def State.rejectKick (s : State) (q : Nat) (value : BitVec 64) (code : Option Nat) : State :=
  match code with
  | some c => s.rejectEvent value.toNat q c
  | none => { s with fresh := s.fresh + 1 }.rejectEvent value.toNat q (Config.freeByte s.fresh).toNat

/-- The checks of a kick that need no memory (R327, R337): the code of a rejection, when there is one. -/
def State.kickFault (s : State) (q : Nat) (value : BitVec 64) : Option (Option Nat) :=
  let v := s.queue q
  let own := match Cells.find s.rm.graphs (field value.toNat 0 6) with
    | some g => g.2 == q
    | none => false
  if field value.toNat 56 8 ≠ 0 || v.path || !own then some none
  else if !v.en then some (some 8)
  else none

/-- A kick's image patched: its records, or the rejection (R338 steps 1 and 2). -/
def State.patchKick (s : State) (q : Nat) (value : BitVec 64) : Option (List LaunchRecord) × State :=
  match Cells.find s.rm.graphs (field value.toNat 0 6) with
  | none => (none, s.rejectKick q value none)
  | some (image, _) =>
    match s.graphNodes image with
    | none => (none, s.rejectKick q value none)
    | some nodes =>
      match s.patchTable (field value.toNat 6 50 * 64) nodes with
      | none => (none, s.rejectKick q value none)
      | some l =>
        let s1 := l.foldl (fun s p => s.patch image p) s
        (some (s1.graphRecords image nodes), s1)

/-- Records that join a queue (R338 step 3). -/
def State.enqueue (s : State) (q : Nat) (l : List LaunchRecord) : State :=
  let v := s.queue q
  s.setQueue q { v with records := v.records ++ l, arrivals := v.arrivals + l.length }

/-- Whether a queue has room for some records. -/
def Queue.room (v : Queue) (n : Nat) : Bool := decide (v.records.length + n ≤ queueLimit)

/-- A kick waits behind what its queue already has waiting. -/
def State.waitKick (s : State) (q : Nat) (k : Kick) : State :=
  s.setQueue q { s.queue q with kicks := (s.queue q).kicks ++ [k] }

/-- A KICK that is honoured (R327, R337, R338). -/
def State.kick (s : State) (q : Nat) (value : BitVec 64) : State :=
  match s.kickFault q value with
  | some code => s.rejectKick q value code
  | none =>
    if !(s.queue q).kicks.isEmpty then s.waitKick q ⟨value, none⟩
    else
      match s.patchKick q value with
      | (none, s) => s
      | (some l, s) => if (s.queue q).room l.length then s.enqueue q l else s.waitKick q ⟨value, some l⟩

/-- KICK (R327, R337, R338), a host write without the T bit (R398). -/
def execKick (q : Nat) (value : BitVec 64) (s : State) : Result := .next (s.untrusted fun s => s.kick q value)

/-- KICK_ENQUEUE (R327, R338): the oldest waiting kick, once its nodes fit. -/
def execKickEnqueue (q : Nat) (s : State) : Result :=
  let v := s.queue q
  match v.kicks with
  | [] => .next s
  | k :: rest =>
    let popped (s : State) : State := s.setQueue q { s.queue q with kicks := rest }
    if !v.en then .next ((popped s).rejectKick q k.value (some 8))
    else
      match k.nodes with
      | some l => if v.room l.length then .next ((popped s).enqueue q l) else .next s
      | none =>
        match s.patchKick q k.value with
        | (none, s) => .next (popped s)
        | (some l, s) =>
          .next (if (s.queue q).room l.length then (popped s).enqueue q l
            else s.setQueue q { s.queue q with kicks := ⟨k.value, some l⟩ :: rest })

/-! ## The launch window (R335) -/

/-- A slot triggered (R327, R335, R398): the record as it stands joins the queue, or is rejected; either way the
slot's status word says so. From the lock on the queues take nothing. -/
def State.trigger (s : State) (q wslot : Nat) (record : BitVec 512) : State :=
  let v := s.queue q
  if s.boot.tdi != .unlocked then s
  else
    let s1 := { s with rm := { s.rm with window := s.rm.window.write (windowSlot q wslot) (bytesOf 64 record.toNat) } }
    let r : LaunchRecord := ⟨record, windowAddr q wslot, .window wslot, 0⟩
    let seq := v.arrivals
    let code := if !v.path then 9 else if !v.en then 8 else if !v.room 1 then 7 else 0
    let s2 := s1.setQueue q { v with arrivals := v.arrivals + 1, records := if code = 0 then v.records ++ [r] else v.records }
    if code = 0 then s2.windowStatus q wslot 0 seq
    else ((s2.rejectEvent r.addr q code).rejectAdd (launchOf record)).windowStatus q wslot code seq

/-- LAUNCH_WINDOW_TRIGGER (R335). -/
def execLaunchWindowTrigger (q wslot : Nat) (record : BitVec 512) (s : State) : Result := .next (s.trigger q wslot record)

end Sys2Proof.Machine
end

