-- ==== Sys2Proof/Machine/Teams.lean ====
section
/-! DEFINITION. Teams on cores: placement and dispatch (R29 to R33, R331, R332, R438), release and retirement of
crews (R193), time slices (R333, R334), pre-emption, saving and restoring (R52 to R55, R92 to R94, R234, R255,
R307, R308, R372), and parking (R28, R94). -/

namespace Sys2Proof.Machine

/-! ## Room on a core (R19, R29, R30) -/

/-- Crews of a subcore among slot numbers of one core. -/
def onSub (used : List Nat) (j : Nat) : Nat := (used.filter fun n => n / 8 == j).length

/-- The subcore that takes the next crew: fewest crews, ties to the lowest (R30). -/
def pickSub (used : List Nat) : Nat :=
  [1, 2, 3].foldl (fun b j => if onSub used j < onSub used b then j else b) 0

/-- The lowest slot from n of some that is not used. -/
def freeSlot (used : List Nat) (n : Nat) : Nat → Option Nat
  | 0 => none
  | k + 1 => if used.contains n then freeSlot used (n + 1) k else some n

/-- Slots for so many crews, in increasing crew index (R30). -/
def placeCrews (used : List Nat) : Nat → Option (List Nat)
  | 0 => some []
  | k + 1 =>
    match freeSlot used (8 * pickSub used) 8 with
    | none => none
    | some n => (placeCrews (used ++ [n]) k).map fun l => n :: l

/-- The lowest offset at which a team's deck fits between the placed ones (first fit: DESIGN CHOICE, log 40). -/
def deckGap (placed : List (Nat × Nat × Nat)) (size : Nat) : Option Nat :=
  let fits (a : Nat) : Bool :=
    decide (a + size ≤ 0x80000)
      && placed.all fun p => decide (a + size ≤ p.2.1) || decide (p.2.1 + p.2.2 ≤ a) || p.2.2 == 0
  if size = 0 then some 0
  else
    ((0 :: placed.map fun p => p.2.1 + p.2.2).filter fits).foldl (init := none) fun m a =>
      match m with
      | none => some a
      | some b => some (min a b)

/-- Slot numbers of a core's crews. -/
def State.usedSlots (s : State) (core : Nat) : List Nat := (s.residents core).map fun e => e.1 % 32

/-- Whether a core may take crews of a context and mode (R33, R234, R332). -/
def State.coreTakes (s : State) (core ctx : Nat) (ldet : Bool) : Bool :=
  let k := s.core core
  if (s.residents core).isEmpty then k.last == some ctx || decide (k.freeAt ≤ s.cycle)
  else k.ctx == some ctx && k.ldet == ldet && !k.preempt

/-- What a team needs of a core: crews, stream registers per crew, deck bytes. -/
structure Need where
  ctx : Nat
  ldet : Bool
  crews : Nat
  streams : Nat
  deck : Nat
deriving DecidableEq, Repr

/-- Slots and deck offset for a team on a core, if the core can hold all of it (R29, R33). -/
def State.fit (s : State) (core : Nat) (n : Need) : Option (List Nat × Nat) :=
  let streams := ((s.residents core).map fun e => e.2.nStreams).sum
  if !s.coreTakes core n.ctx n.ldet || decide (32 < streams + n.crews * n.streams) then none
  else
    match placeCrews (s.usedSlots core) n.crews, deckGap (s.core core).placed n.deck with
    | some l, some a => some (l, a)
    | _, _ => none

/-- The number of cores and of clusters (R14). -/
def coreCount : Nat := 192
def clusterCount : Nat := 48

/-- The lowest-numbered core that can hold a team (R331). -/
def State.fitCore (s : State) (n : Need) : Option Nat :=
  (upFrom 0 coreCount).find? fun c => (s.fit c n).isSome

/-- The cores of a cluster. -/
def clusterCores (cl : Nat) : List Nat := upFrom (4 * cl) 4

/-- Whether no core of a cluster holds a crew. -/
def State.clusterEmpty (s : State) (cl : Nat) : Bool := (clusterCores cl).all fun c => (s.residents c).isEmpty

/-- The lowest-numbered cluster whose four cores can each hold a team of a cluster group, and whose counters are
the context's or fall to it (R32, R76, R331). -/
def State.fitCluster (s : State) (n : Need) : Option Nat :=
  (upFrom 0 clusterCount).find? fun cl =>
    ((s.cluster cl).owner == some n.ctx || s.clusterEmpty cl) && (clusterCores cl).all fun c => (s.fit c n).isSome

/-- A grid's need for each of its teams. -/
def Grid.need (g : Grid) : Need :=
  let f := launchOf g.bits
  ⟨g.ctx, f.ldet, f.crews, f.streams, f.deck⟩

/-- The lowest areas of a context's spill pool that are free, n of them (R329). -/
def freeAreas (used : List Nat) (limit : Nat) : Nat → Nat → Nat → List Nat
  | 0, _, _ => []
  | _, 0, _ => []
  | f + 1, n + 1, a =>
    if limit ≤ a then []
    else if used.contains a then freeAreas used limit f (n + 1) (a + 1)
    else a :: freeAreas used limit f n (a + 1)

/-- The lowest n free areas of a context, fewer when fewer are free (R329). -/
def State.areasFor (s : State) (ctx n : Nat) : List Nat :=
  let used := (s.rm.areas.filter fun p => p.1 == ctx).map (·.2)
  freeAreas used (s.context ctx).pcrews (used.length + n) n 0

/-! ## Placing crews (R71, R76, R329, R332) -/

/-- A core that holds nothing of the context it last served: deck, operand buffer, accumulator store, records,
activation tables, counters and generators (R76, R234, R258). -/
def Core.cleared (k : Core) : Core :=
  { k with
    last := none, deck := [], obuf := [], acc := [], badDeck := [], badObuf := [], badAcc := [], records := []
    acttab := [], ctrs := CtrHome.reset, slotCtrs := [], allocs := [], gens := [], placed := [] }

/-- A core, and a cluster none of whose cores holds a crew, as they are handed to a context: cleared when they last
served another (R76, R234), and woken (R438). -/
def State.handOver (s : State) (core ctx : Nat) : State :=
  let cl := clusterOf core
  let v := s.cluster cl
  let v1 := if s.clusterEmpty cl ∧ v.owner ≠ some ctx then { v with owner := some ctx, ctrs := CtrHome.reset } else v
  (s.setCluster cl { v1 with gated := false }).modCore core fun k => if k.last = some ctx then k else k.cleared

/-- A core that takes a team: its context, mode and the team's deck (R332). -/
def State.takeTeam (s : State) (core first : Nat) (n : Need) (base : Nat) : State :=
  (s.handOver core n.ctx).modCore core fun k =>
    { k with
      ctx := some n.ctx, ldet := n.ldet, last := some n.ctx
      placed := k.placed ++ [(first, base, n.deck)] }

/-- A thread as the launch leaves it (R71, R329). -/
def newThread (entry : Word) (spillb : Nat) : Thread :=
  { Thread.gone with pc := entry, st := .runnable, spillb := BitVec.ofNat 64 spillb }

/-- A crew as the launch leaves it (R71, R76, R92, R256, R318, R329). -/
def State.newCrew (s : State) (g : Grid) (team i area base startAt slot : Nat) : Crew :=
  let f := launchOf g.bits
  let x := s.context g.ctx
  let spillb (l : Nat) : Nat := x.pool + (64 * area + l) * 2 ^ x.shift + 64
  { grid := BitVec.ofNat 32 g.serial, team := team, crew := i, nCrew := f.crews, nTeam := f.teams, depth := g.depth
    ctx := g.ctx, cluster := f.cluster, ldet := f.ldet, cb := BitVec.ofNat 64 f.cb, trapv := f.trapv
    deckBase := base, deckSize := f.deck, nStreams := f.streams, area := area
    threads := (upFrom 0 64).map fun l => newThread f.entry (spillb l)
    kregs := if f.param = 0 then [] else [(1, f.param)]
    utags := BitVec.allOnes 128, ctrs := { CtrHome.reset with ctrs := Cells.get [] (s.core (coreOf slot)).slotCtrs (slot % 32) }
    issued := [0, 0, 0], done := [0, 0, 0], efault := none, lost := 0
    fifo := [], loads := [], ctrOps := [], steps := [], lts := g.lts, slen := 1024
    streams := List.replicate 8 Stream.reset, scopyLen := 1024, scopy := List.replicate f.streams (0, true)
    watch := [0, 0, 0, 0], join := none, pcieWrites := false, cmdTime := [0, 0, 0], early := [], period := none
    startAt := startAt, badLanes := [], fetched := none }

/-- The team's crews placed in their slots, with the areas they take (R30, R329). -/
def State.addCrews (s : State) (g : Grid) (core team base startAt : Nat) : Nat → List Nat → List Nat → State
  | _, [], _ => s
  | _, _, [] => s
  | i, n :: slots, a :: areas =>
    let slot := 32 * core + n
    let s1 := s.setCrew slot (s.newCrew g team i a base startAt slot)
    let s2 := { s1 with rm := { s1.rm with areas := s1.rm.areas ++ [(g.ctx, a)] } }
    let s3 := if g.window then s2.pastLeases slot else s2
    State.addCrews s3 g core team base startAt (i + 1) slots areas

/-- A team dispatched to a core (R29, R30, R331, R438). -/
def State.dispatchTeam (s : State) (g : Grid) (core team : Nat) (gated : Bool) : State :=
  match s.fit core g.need with
  | none => s
  | some (slots, base) =>
    let areas := s.areasFor g.ctx slots.length
    let first := 32 * core + slots.headD 0
    ((s.takeTeam core first g.need base).addCrews g core team base (s.cycle + if gated then 2049 else 41) 0 slots areas).modGrid
      g.serial fun x => { x with dispatched := x.dispatched + 1 }

/-- Whether a grid may have its next team dispatched, room apart (R329, R331, R372, R373). -/
def State.wantsTeam (s : State) (g : Grid) : Bool :=
  let f := launchOf g.bits
  let x := s.context g.ctx
  let n := if f.cluster then 4 * f.crews else f.crews
  g.started && decide (g.dispatched < f.teams) && !x.held && !x.saving && !s.hasSaved g.ctx
    && decide ((s.areasFor g.ctx n).length = n)

/-- The cores a grid's next team or group would go to (R331). -/
def State.placeFor (s : State) (g : Grid) : List Nat :=
  if (launchOf g.bits).cluster then ((s.fitCluster g.need).map clusterCores).getD []
  else ((s.fitCore g.need).map fun c => [c]).getD []

/-- The better of two grids: higher priority, then lower serial (R331). -/
def betterGrid (m : Option Grid) (g : Grid) : Option Grid :=
  match m with
  | none => some g
  | some b => if b.prio < g.prio ∨ (b.prio = g.prio ∧ g.serial < b.serial) then some g else m

/-- The grid whose next team is dispatched: the best whose team fits (R331). -/
def State.nextTeam (s : State) : Option Grid :=
  (s.rm.grids.filter fun g => s.wantsTeam g && !(s.placeFor g).isEmpty).foldl betterGrid none

/-! ## Restores (R55, R93, R234, R308, R331, R372) -/

/-- Whether every sent entry of a saved unit has been credited (R308, R372). -/
def SavedCore.settled (v : SavedCore) : Bool := !(v.crews.any fun w => w.crew.fifo.any (·.sent))

/-- Whether a saved unit belongs with its whole cluster: cluster teams, or live cluster counters (R93). -/
def SavedCore.clustered (v : SavedCore) : Bool :=
  v.crews.any (fun w => w.crew.cluster) || ((v.cluster.map fun c => c.ctrs.ctrs.any fun e => e.2.live).getD false)

/-- The saved units restored together with one (R93). -/
def State.companions (s : State) (v : SavedCore) : List SavedCore :=
  if !v.parked && v.clustered then
    s.rm.saved.filter fun x => x.ctx == v.ctx && !x.parked && x.index / 4 == v.index / 4
  else [v]

/-- A saved crew's team in the order of restores (R331): priority, %GRID and %TEAM. -/
def State.savedRank (s : State) (w : SavedCrew) : Nat × Nat × Nat :=
  (((s.grid? w.crew.grid.toNat).map (·.prio)).getD 0, w.crew.grid.toNat, w.crew.team)

/-- Whether a team is restored before another (R331): higher priority, then lower (%GRID, %TEAM). -/
def restoresBefore (a b : Nat × Nat × Nat) : Bool :=
  decide (b.1 < a.1) || (a.1 == b.1 && (decide (a.2.1 < b.2.1) || (a.2.1 == b.2.1 && decide (a.2.2 < b.2.2))))

/-- The place of a saved unit: that of its first team (R331). -/
def State.unitRank (s : State) (v : SavedCore) : Nat × Nat × Nat :=
  (v.crews.map s.savedRank).foldl (init := (0, 2 ^ 32, 0)) fun m k => if restoresBefore k m then k else m

/-- Whether an empty core can take a saved core of a context (R234, R371). -/
def State.coreFree (s : State) (core ctx : Nat) : Bool := (s.residents core).isEmpty && s.coreTakes core ctx false

/-- The need of a parked team. -/
def SavedCore.need (v : SavedCore) : Need :=
  match v.crews with
  | [] => ⟨v.ctx, false, 0, 0, 0⟩
  | w :: _ => ⟨v.ctx, w.crew.ldet, v.crews.length, w.crew.nStreams, w.crew.deckSize⟩

/-- Whether the collective engine of a core's die has room for the commands withdrawn with some saved units (R251, R255;
log 57). -/
def State.collRoom (s : State) (core : Nat) (l : List SavedCore) : Bool :=
  decide ((s.die (dieOf core)).collq.length + (l.map fun v => v.collq.length).sum ≤ 64)

/-- Where a saved unit and its companions go: the core of each, none where there is no room. -/
def State.restorePlace (s : State) (v : SavedCore) : Option (List (SavedCore × Nat)) :=
  let l := s.companions v
  if v.parked then (s.fitCore v.need).map fun c => [(v, c)]
  else if v.clustered then
    ((upFrom 0 clusterCount).find? fun cl => s.clusterEmpty cl && s.collRoom (4 * cl) l
      && l.all fun x => s.coreFree (4 * cl + x.index % 4) x.ctx).map fun cl =>
        l.map fun x => (x, 4 * cl + x.index % 4)
  else ((upFrom 0 coreCount).find? fun c => s.coreFree c v.ctx && s.collRoom c l).map fun c => [(v, c)]

/-- Whether a saved unit may be restored, room apart (R28, R308, R331, R372, R373). -/
def State.restorable (s : State) (v : SavedCore) : Bool :=
  let x := s.context v.ctx
  !x.held && !x.saving && (s.companions v).all (fun x => x.settled && (x.whole || x.parked))
    && (!v.parked || v.crews.any fun w => w.crew.anyRunnable)

/-- The unit restored next (R331). -/
def State.nextRestore (s : State) : Option (List (SavedCore × Nat)) :=
  let ok := s.rm.saved.filter fun v => s.restorable v && (s.restorePlace v).isSome
  (ok.foldl (init := (none : Option SavedCore)) fun m v =>
    match m with
    | none => some v
    | some b => if restoresBefore (s.unitRank v) (s.unitRank b) then some v else m).bind s.restorePlace

/-- The times of a crew's waits moved by a function: relative in an image, absolute when resident (R53). -/
def Crew.moveTimes (c : Crew) (f : Nat → Nat) : Crew :=
  { c with threads := c.threads.map fun t =>
      match t.st with
      | .waitCounter w => { t with st := .waitCounter { w with expiry := w.expiry.map f, poller := w.poller.map f } }
      | _ => t }

/-- A crew as its save leaves it: remaining times, nothing fetched, no waiting period, its stream words to be written anew
with their parity (R53, R55, R271). -/
def Crew.saved (c : Crew) (cycle : Nat) : Crew :=
  { c.moveTimes (fun t => max 1 (t - cycle)) with
    fetched := none, period := none, steps := [], streams := c.streams.map fun v => { v with bad := [] } }

/-- The saved crews of a unit in the order they are placed: grid, team, crew. -/
def SavedCore.ordered (v : SavedCore) : List SavedCrew :=
  v.crews.foldl (init := []) fun l w =>
    let before (x : SavedCrew) : Bool :=
      decide (x.crew.grid.toNat < w.crew.grid.toNat)
        || (x.crew.grid == w.crew.grid && (decide (x.crew.team < w.crew.team)
          || (x.crew.team == w.crew.team && decide (x.crew.crew < w.crew.crew))))
    l.takeWhile before ++ w :: l.dropWhile before

/-- The new slot of a crew that had an old one. -/
def newSlot (map : List (Nat × Nat)) (old : Nat) : Nat := ((map.find? fun p => p.1 == old).map (·.2)).getD old

/-- Withdrawn collectives posted again at the engine of the crew's new die, in posting order (R255). -/
def State.repost (s : State) (v : SavedCore) (core : Nat) (map : List (Nat × Nat)) : State :=
  let back := mapFrom (fun i (x : Withdrawn) =>
    { x.cmd with
      slot := newSlot map x.cmd.slot, core := core, since := s.cycle, started := false, held := none
      posted := (s.cycle / 2, i) }) 0 v.collq
  s.modDie (dieOf core) fun d => { d with collq := back.foldl joinColl d.collq }

/-- An address space of a core of one cluster or core as it is on another, to which a unit has moved (R307). -/
def Space.moved (old new : Nat) : Space → Space
  | .deck k => .deck (if k = old then new else if k / 4 = old / 4 then new / 4 * 4 + k % 4 else k)
  | .obuf k => .obuf (if k = old then new else k)
  | sp => sp

/-- An entry of a crew that has moved to another core, and its deck to another place there (R307). -/
def Entry.moved (e : Entry) (old new oldBase newBase : Nat) : Entry :=
  let sp := e.space.moved old new
  let shift (a : Nat) : Nat := if e.space = .deck old then a + newBase - oldBase else a
  { e with space := sp, line := shift e.line, items := e.items.map fun i => { i with addr := shift i.addr } }

/-- A crew put back in a slot: a lane whose replay report was answered with DELIVER while it was saved, which its
blocked state shows as CAUSE 5, takes its fault (R364, R366). -/
def State.putBack (s : State) (slot : Nat) (c : Crew) : State :=
  let due := c.lanesWith fun t => match t.st with
    | .replay f => f.cause == 5
    | _ => false
  ((s.setCrew slot (c.modLanes due fun _ t => { t with st := .runnable })).takeFaults slot s.cycle
    (due.map fun l =>
      match (c.thread l).st with
      | .replay f => (l, { code := f.code, addr := f.addr, ext := BitVec.ofNat 8 (f.level * 16 + 5) })
      | _ => (l, { code := codeXlateR })))

/-- A saved unit put back on a core: its crews in their new slots, its engines' commands, its counters (R55, R76, R93, R234,
R255, R371). The crews' entries name the new core (R307), and their logical times pass every lease that it could use, so
that R300 and R301 hold as if no save had occurred (R308; log 57). What belongs to the core itself stays. -/
def State.restoreUnit (s : State) (v0 : SavedCore) (core : Nat) : State :=
  let v := s.loadCore v0
  let crews := v.ordered
  let slots := ((placeCrews (s.usedSlots core) crews.length).getD []).map fun n => 32 * core + n
  let map := (crews.zip slots).map fun p => (p.1.oldSlot, p.2)
  let base := if v.parked then (s.fit core v.need).map (·.2) else none
  let s0 := { s with rm := { s.rm with saved := s.rm.saved.erase v0 } }
  let s1 := s0.handOver core v.ctx
  let s2 :=
    if v.parked then s1.takeTeam core (slots.headD 0) v.need (base.getD 0)
    else
      let s2 := s1.modCore core fun k =>
        { k with
          ctx := some v.ctx, ldet := v.core.ldet, preempt := false, stopped := false, last := some v.ctx
          deck := v.core.deck, obuf := v.core.obuf, acc := v.core.acc, badDeck := [], badObuf := [], badAcc := []
          placed := v.core.placed.map fun p => (newSlot map p.1, p.2)
          records := v.core.records, acttab := v.core.acttab, ctrs := v.core.ctrs, allocs := v.core.allocs, gens := v.core.gens
          copyq := v.core.copyq.map fun (q : Nat × List CopyCmd) =>
            (q.1, q.2.map fun (m : CopyCmd) => { m with slot := newSlot map m.slot })
          matrixq := v.core.matrixq.map fun (m : MatrixCmd) => { m with slot := newSlot map m.slot }
          streamq := [], subcores := [] }
      match v.cluster with
      | some c =>
        if v.clustered then
          s2.setCluster (clusterOf core) { s2.cluster (clusterOf core) with owner := some v.ctx, ctrs := c.ctrs }
        else s2
      | none => s2
  let s3 := (crews.zip slots).foldl (init := s2) fun s (p : SavedCrew × Nat) =>
    let c := s.loadCrew v.ctx p.1
    let deckBase := base.getD c.deckBase
    let c1 := { c.moveTimes (s.cycle + ·) with
      startAt := s.cycle, deckBase := deckBase
      fifo := c.fifo.map fun e => e.moved (coreOf p.1.oldSlot) core c.deckBase deckBase }
    { (s.putBack p.2 c1).pastLeases p.2 with nextId := s.nextId + 64 }
  (s3.repost v core map)

/-- TEAM_RESTORE (R55, R93, R308, R331, R372): a unit is restored; once a context has no image left, the
Ringmaster's waits for its grids are registered again. -/
def execTeamRestore (s : State) : Result :=
  match s.nextRestore with
  | none => .next s
  | some l =>
    let s1 := l.foldl (fun s (p : SavedCore × Nat) => s.restoreUnit p.1 p.2) s
    let ctx := ((l.head?).map fun p => p.1.ctx).getD 0
    let parked := ((l.head?).map fun p => p.1.parked).getD false
    if parked || s1.hasSaved ctx then .next s1
    else
      .next ((s1.rm.grids.filter fun g => g.ctx == ctx && !g.started && !s1.depsMet g).foldl
        (fun s g => (s.dropDeps g).registerDeps g) s1)

/-- TEAM_DISPATCH (R31, R32, R331): when no restore is possible, the best grid's next team or group. -/
def execTeamDispatch (s : State) : Result :=
  if s.nextRestore.isSome then .next s
  else
    match s.nextTeam with
    | none => .next s
    | some g =>
      let cores := s.placeFor g
      let gated := (cores.head?.map fun c => (s.cluster (clusterOf c)).gated).getD false
      .next ((cores.zip (upFrom g.dispatched cores.length)).foldl
        (fun s (p : Nat × Nat) => s.dispatchTeam g p.1 p.2 gated) s)

/-! ## Release (R193, R332) -/

/-- A core whose last crew has gone: it gives up context and mode; the cluster may fall idle (R332, R438). -/
def State.freeCore (s : State) (core : Nat) : State :=
  let s1 := s.modCore core fun k =>
    { k with ctx := none, ldet := false, preempt := false, stopped := false, subcores := [], placed := []
             freeAt := s.cycle + 2048 }
  if s1.clusterEmpty (clusterOf core) then
    s1.setCluster (clusterOf core) { s1.cluster (clusterOf core) with idleSince := s.cycle }
  else s1

/-- The saved unit that a core is being saved into. -/
def State.openSave (s : State) (core ctx : Nat) : Option SavedCore :=
  s.rm.saved.find? fun v => v.index == core && v.ctx == ctx && !v.parked && !v.whole

/-- The end of a core's save: its shared state joins the image, which is stored; its own copy is given up (R53,
R234, R371). -/
def State.closeSave (s : State) (core : Nat) (v : SavedCore) : State :=
  let k := s.core core
  let v1 := { v with core := k, whole := true }
  let s1 := { s with rm := { s.rm with saved := s.rm.saved.map fun x => if x = v then v1 else x } }
  let s2 := s1.storeImage (s.coreImageAt v.ctx v.imgSlot) coreImageSize v1.image
  s2.modCore core fun k =>
    { k with records := [], ctrs := CtrHome.reset, allocs := [], copyq := [], matrixq := [], streamq := [] }

/-- The cluster counters join the images of a cluster once its owner holds no core of it (R93). -/
def State.saveCluster (s : State) (core ctx : Nat) : State :=
  let cl := clusterOf core
  let v := s.cluster cl
  if v.owner ≠ some ctx ∨ (clusterCores cl).any fun c => (s.residents c).any fun e => e.2.ctx == ctx then s
  else
    let part := s.rm.saved.map fun (x : SavedCore) =>
      if x.ctx = ctx ∧ x.index / 4 = cl ∧ !x.parked ∧ x.cluster = none then { x with cluster := some v } else x
    let s1 := { s with rm := { s.rm with saved := part } }
    let s2 := part.foldl (init := s1) fun s (x : SavedCore) =>
      if x.ctx = ctx ∧ x.index / 4 = cl ∧ !x.parked ∧ x.whole then
        s.storeImage (s.coreImageAt ctx x.imgSlot) coreImageSize x.image
      else s
    s2.setCluster cl { v with ctrs := CtrHome.reset }

/-- What follows a crew's departure from a core: its slot keeps its counters' generations, a team's deck is freed, a core
emptied, an image closed (R76, R193, R332). -/
def State.leaveCore (s0 : State) (slot : Nat) (c : Crew) : State :=
  let core := coreOf slot
  let s := s0.modCore core fun k => { k with slotCtrs := Cells.put k.slotCtrs (slot % 32) c.ctrs.ended }
  let rest := s.residents core
  let teamGone := !(rest.any fun e => e.2.grid == c.grid && e.2.team == c.team)
  let s1 := if teamGone then s.modCore core fun k =>
      { k with placed := k.placed.filter fun p => !(p.2.1 == c.deckBase && p.2.2 == c.deckSize) }
    else s
  if !rest.isEmpty then s1
  else
    match s.openSave core c.ctx with
    | some v => ((s.closeSave core v).freeCore core).saveCluster core c.ctx
    | none => s1.freeCore core

/-- Whether a crew may be released (R193). A stream operation that the core's engine has not yet taken, and a counter operation
that its home has not yet taken, hold the release back as well, which R193 does not say (log 58, DESIGN CHOICE). -/
def State.releasable (s : State) (slot : Nat) (c : Crew) : Bool :=
  c.allExited && c.fifo.isEmpty && ((upFrom 0 3).all fun k => c.doneOf k == c.issuedOf k)
    && c.ctrOps.all (·.taken) && !((s.core (coreOf slot)).streamq.any fun o => o.slot == slot)

/-- Whether any crew of a team is resident or saved. -/
def State.teamLives (s : State) (grid : Word) (team : Nat) : Bool :=
  s.crews.any (fun e => e.2.grid == grid && e.2.team == team)
    || s.rm.saved.any fun v => v.crews.any fun w => w.crew.grid == grid && w.crew.team == team

/-- CREW_RELEASE (R193, R329): area and slot freed, a pending engine fault logged, the team's exit counted. -/
def execCrewRelease (slot : Nat) (s : State) : Result :=
  match s.crew? slot with
  | none => .next s
  | some c =>
    if !s.releasable slot c then .next s
    else
      let s1 := match c.efault with
        | some f => s.event (srcCore slot) 7 c.ctx (bytesOf 8 f.addr.toNat ++ [f.code])
        | none => s
      let s2 := { s1 with
        crews := Cells.erase s1.crews slot
        rm := { s1.rm with areas := s1.rm.areas.erase (c.ctx, c.area) } }
      let s3 := s2.leaveCore slot c
      .next (s3.modGrid c.grid.toNat fun g =>
        { g with
          lts := max g.lts c.lts
          exited := if s3.teamLives c.grid c.team then g.exited else g.exited + 1 })

/-! ## Time slices and pre-emption (R52 to R54, R333, R334) -/

/-- Whether a context holds a core. -/
def State.holdsCore (s : State) (x : Nat) : Bool := s.cores.any fun k => k.2.ctx == some x

/-- A context's priority: the highest PRIO among its queues with an unretired grid (R333). -/
def State.contextPrio (s : State) (x : Nat) : Nat :=
  s.rm.grids.foldl (fun m g => if g.ctx = x then max m (s.queue g.queue).prio else m) 0

/-- Whether another context of priority at least x's has a started grid whose next team fits no core (R333). -/
def State.outcompeted (s : State) (x : Nat) : Bool :=
  s.rm.grids.any fun g => g.ctx != x && g.started && decide (g.dispatched < (launchOf g.bits).teams)
    && decide (s.contextPrio x ≤ s.contextPrio g.ctx) && (s.placeFor g).isEmpty

/-- The slice timers over some cycles (R333): they count while the context is outcompeted and return to 0 when it
holds no core. -/
def State.tickTimers (s : State) (elapsed : Nat) : State :=
  let step (e : Nat × Context) : Nat × Context :=
    if e.2.slice = 0 ∧ e.2.timer = 0 then e
    else if !s.holdsCore e.1 then (e.1, { e.2 with timer := 0 })
    else if elapsed ≠ 0 ∧ s.outcompeted e.1 then (e.1, { e.2 with timer := e.2.timer + elapsed })
    else e
  { s with rm := { s.rm with contexts := s.rm.contexts.map step } }

/-- The Ringmaster's waits for the pending grids of a context are withdrawn while it is saved (R372). -/
def State.dropContextDeps (s : State) (x : Nat) : State :=
  (s.rm.grids.filter fun g => g.ctx == x && !g.started && !s.depsMet g).foldl State.dropDeps s

/-- A pre-emption of a whole context asked for (R333, R373). -/
def State.startSaving (s : State) (x : Nat) : State :=
  (s.setContext x { s.context x with timer := 0, saving := true }).dropContextDeps x

/-- Whether every crew of a context that is resident is about to be released, so that its last team retires (R334). -/
def State.retiring (s : State) (x : Nat) : Bool := (s.crews.filter fun e => e.2.ctx == x).all fun e => s.releasable e.1 e.2

/-- Whether a context's slice has expired; where its last resident team retires in that fc, retirement wins (R333, R334). -/
def State.expiredSlice (s : State) (x : Nat) : Bool :=
  let v := s.context x
  v.slice != 0 && decide (256 * v.slice ≤ v.timer) && s.holdsCore x && !v.saving && !s.retiring x

/-- SLICE_EXPIRY (R333, R334). -/
def execSliceExpiry (ctx : Nat) (s : State) : Result :=
  if s.expiredSlice ctx then .next (s.startSaving ctx) else .next s

/-- PREEMPT_CORE (R52): a request of the Ringmaster reaches a core of a context being saved. -/
def execPreemptCore (core : Nat) (s : State) : Result :=
  match (s.core core).ctx with
  | none => .next s
  | some x =>
    if (s.context x).saving then .next (s.modCore core fun k => { k with preempt := true }) else .next s

/-! ## Saves (R53, R255, R307, R369 to R372) -/

/-- The saved crews (R369). -/
def State.savedCrews (s : State) : List Crew := s.rm.saved.flatMap fun v => v.crews.map (·.crew)

/-- Whether the accesses a TLBI waits for have finished (R379). -/
def State.tlbiDone (s : State) (p : Pending) : Bool :=
  !(((s.crews.map (·.2)) ++ s.savedCrews).any fun c =>
    c.loads.any (fun l => p.older.contains l.id) || c.fifo.any fun x => p.older.contains x.id)

/-- Whether an entry's access may still fault a lane: its fault is taken before a save (R359). -/
def EntryOp.mayFault : EntryOp → Bool
  | .atom .. | .atomr _ | .mcast _ => true
  | .store | .spill | .record | .scadd _ | .binapp | .rput _ | .cctl _ => false

/-- Whether a crew's issued instructions have written all they owe, ended their steps and taken their faults (R53, R359). -/
def State.crewSettled (s : State) (slot : Nat) (c : Crew) : Bool :=
  c.loads.isEmpty && c.steps.all (fun p => p.kind == .tlbi && s.tlbiDone p)
    && !(c.fifo.any fun e => e.op.returns || e.op.mayFault) && !(s.msgs.any fun m => match m.2 with
      | .atomic k _ _ _ => k == slot
      | _ => false)
    && c.ctrOps.all (fun o => o.taken && match o.kind with
      | .add _ | .free => true
      | _ => false)
    && !((s.core (coreOf slot)).streamq.any fun o => o.slot == slot)
    && !(s.links.pcie.any fun q => q.slot == slot && q.kind == .fence)

/-- The collective commands that a crew has posted. -/
def State.crewColls (s : State) (slot : Nat) : List CollCmd :=
  ((s.die (dieOf (coreOf slot))).collq.filter fun x => x.slot == slot)

/-- Whether nothing more can write a core's deck and operand buffer once its last crew is saved: its own queues are empty, the
accesses that saved and resident crews have sent there are performed, and where cluster teams share decks, every core of the
cluster that the context holds has stopped and holds no entry for this one (R53, R308, R371; log 57). -/
def State.deckQuiet (s : State) (core ctx : Nat) : Bool :=
  let k := s.core core
  let here (e : Entry) : Bool := e.space == .deck core || e.space == .obuf core
  let others := (clusterCores (clusterOf core)).filter fun x => x != core && (s.core x).ctx == some ctx
  k.deckq.isEmpty && k.beats.isEmpty && !(s.rm.saved.any fun v => v.crews.any fun w => w.crew.fifo.any fun e => e.sent && here e)
    && !(s.crews.any fun e => e.2.ctx == ctx && e.2.fifo.any fun x => here x && (x.sent || coreOf e.1 != core))
    && (!(s.crews.any fun e => e.2.ctx == ctx && e.2.cluster && clusterOf (coreOf e.1) == clusterOf core)
      || others.all fun x => (s.core x).stopped)

/-- Whether a crew's save may begin (R53, R54, R255); the last of its core ends the core's own save. -/
def State.saveReady (s : State) (slot : Nat) (c : Crew) : Bool :=
  let core := coreOf slot
  let last := !(s.crews.any fun e => e.1 != slot && coreOf e.1 == core)
  s.crewSettled slot c && (s.core core).stopped && !((s.crewColls slot).any (·.started))
    && !(s.cores.any fun k => k.2.beats.any fun b => b.core == core) && (!last || s.deckQuiet core c.ctx)

/-- The lowest image slot of a context that is free (R372). -/
def State.freeImageSlot (s : State) (ctx : Nat) : Nat :=
  let used := (s.rm.saved.filter fun v => v.ctx == ctx && !v.parked).map (·.imgSlot)
  ((upFrom 0 coreCount).find? fun n => !used.contains n).getD 0

/-- A unit that a core's crews are saved into, opened if need be. -/
def State.openUnit (s : State) (core ctx : Nat) : SavedCore × State :=
  match s.openSave core ctx with
  | some v => (v, s)
  | none =>
    let v : SavedCore := ⟨Core.reset, none, core, s.freeImageSlot ctx, ctx, [], [], false, false⟩
    (v, { s with rm := { s.rm with saved := s.rm.saved ++ [v] } })

/-- A crew's unstarted collectives withdrawn from its die's engine (R255). -/
def State.withdraw (s : State) (slot : Nat) (c : Crew) : List Withdrawn × State :=
  let l := s.crewColls slot
  (l.map fun x => ⟨c.area, x⟩,
    s.modDie (dieOf (coreOf slot)) fun d => { d with collq := d.collq.filter fun x => x.slot != slot })

/-- A withdrawn command joins those of its core in posting order (R255). -/
def joinWithdrawn (l : List Withdrawn) (x : Withdrawn) : List Withdrawn :=
  (l.takeWhile fun y => !x.cmd.before y.cmd) ++ x :: l.dropWhile fun y => !x.cmd.before y.cmd

/-- A crew leaves its slot for a saved unit, its image stored (R53, R307, R369). -/
def State.moveToImage (s : State) (slot : Nat) (c : Crew) (v : SavedCore) : State :=
  let c1 := c.saved s.cycle
  let q := s.withdraw slot c
  let v1 := { v with crews := v.crews ++ [⟨c1, slot, c1⟩], collq := q.1.foldl joinWithdrawn v.collq }
  let s1 := q.2
  let s2 := { s1 with
    crews := Cells.erase s1.crews slot
    rm := { s1.rm with saved := s1.rm.saved.map fun x => if x = v then v1 else x } }
  s2.storeImage (s.crewImageAt c.ctx c.area) crewImageSize c1.image

/-- CREW_SAVE (R53, R255, R307, R371): the last crew's save ends its core's. A crew that is about to be released is not saved
(R334). -/
def execCrewSave (slot : Nat) (s : State) : Result :=
  match s.crew? slot with
  | none => .next s
  | some c =>
    if !(s.core (coreOf slot)).preempt || s.releasable slot c || !s.saveReady slot c then .next s
    else
      let q := s.openUnit (coreOf slot) c.ctx
      .next ((q.2.moveToImage slot c q.1).leaveCore slot c)

/-- An add of the Ringmaster for a CTXSAVE or CTXLOAD, with release at the handle's scope (R373). -/
def State.ctxAdd (s : State) (p : DWord × Nat) : State :=
  if p.1 = 0 then s
  else
    match s.crew? p.2 with
    | some c =>
      match s.reach p.2 c p.1 with
      | none => s.reportAdd (.logged 200 c.ctx) p.1 true
      | some .peer => { s with fresh := s.fresh + 1 }.sendPeer (.add 1) p.1 0 c.lts
      | some r => s.loggedAddAt 200 c.ctx r p.1 c.lts
    | none => s.loggedAdd 200 0xFF p.1 0

/-- IMAGE_COMPLETE (R372, R373): no crew of the context is resident and every sent entry is credited. -/
def execImageComplete (ctx : Nat) (s : State) : Result :=
  let x := s.context ctx
  let done := !(s.crews.any fun e => e.2.ctx == ctx)
    && (s.rm.saved.filter fun v => v.ctx == ctx).all SavedCore.settled
  if !x.saving || !done then .next s
  else .next (x.saveAdds.foldl State.ctxAdd (s.setContext ctx { x with saving := false, saveAdds := [] }))

/-! ## Parking (R28, R94) -/

/-- A team's crews on its core. -/
def State.teamCrews (s : State) (serial team : Nat) : List (Nat × Crew) :=
  s.crews.filter fun e => e.2.grid.toNat == serial && e.2.team == team

/-- Whether every thread of a crew has exited or is blocked in CWAIT or WAITE, one at least blocked. -/
def Crew.blocked (c : Crew) : Bool :=
  c.threads.all fun t => match t.st with
    | .exited | .waitCounter _ | .waitTicket _ _ _ => true
    | _ => false

/-- Whether a team has an engine command queued or running (R94). -/
def State.hasCommands (s : State) (slots : List Nat) (core : Nat) : Bool :=
  let k := s.core core
  k.copyq.any (fun q => q.2.any fun m => slots.contains m.slot) || k.matrixq.any (fun m => slots.contains m.slot)
    || (s.die (dieOf core)).collq.any fun x => slots.contains x.slot

/-- Whether a team may be parked (R28, R94): blocked, alone with its counters, while a grid of its context waits
for room. -/
def State.parkable (s : State) (serial team : Nat) : Bool :=
  match s.teamCrews serial team with
  | [] => false
  | l@((slot, c) :: _) =>
    let core := coreOf slot
    let waiting := s.rm.grids.any fun g => g.ctx == c.ctx && s.wantsTeam g && (s.placeFor g).isEmpty
    let k := s.core core
    let owns := k.allocs.any fun a => a.2 == (serial, team) && (k.ctrs.ctr a.1).live
    waiting && !c.cluster && !owns && !s.hasCommands (l.map (·.1)) core && !k.preempt
      && l.all (fun e => e.2.blocked && s.crewSettled e.1 e.2 && !(e.2.fifo.any fun x => x.sent && x.space == .deck core))
      && l.any fun e => !e.2.allExited

/-- TEAM_PARK (R28, R94, R372): the team's crew images are stored and its core's room is freed. -/
def execTeamPark (serial team : Nat) (s : State) : Result :=
  if !s.parkable serial team then .next s
  else
    let l := s.teamCrews serial team
    match l with
    | [] => .next s
    | (slot, c) :: _ =>
      let v : SavedCore := ⟨Core.reset, none, coreOf slot, 0, c.ctx, [], [], true, true⟩
      let start := ({ s with rm := { s.rm with saved := s.rm.saved ++ [v] } }, v)
      let r := l.foldl (init := start) fun (p : State × SavedCore) (e : Nat × Crew) =>
        let c1 := e.2.saved s.cycle
        ((p.1.moveToImage e.1 e.2 p.2).leaveCore e.1 e.2, { p.2 with crews := p.2.crews ++ [⟨c1, e.1, c1⟩] })
      .next r.1

/-! ## Cores and clusters between contexts (R234, R438) -/

/-- Whether the next team of a grid, or the next image to restore, of a context other than x goes to a core. -/
def State.passesFrom (s : State) (x core : Nat) : Bool :=
  match s.nextRestore with
  | some l => l.any fun p => p.1.ctx != x && p.2 == core
  | none => (s.nextTeam.map fun g => g.ctx != x && (s.placeFor g).contains core).getD false

/-- CORE_CONTEXT_CLEAR (R76, R234, R258): a core that is to pass to another context, 2,048 c or more after its last
crew, holds nothing of the old one. -/
def execCoreContextClear (core : Nat) (s : State) : Result :=
  let k := s.core core
  match k.last with
  | none => .next s
  | some x =>
    if !(s.residents core).isEmpty || decide (s.cycle < k.freeAt) || !s.passesFrom x core then .next s
    else .next (s.setCore core k.cleared)

/-- CLUSTER_POWER_GATE (R438). -/
def execClusterPowerGate (cluster : Nat) (s : State) : Result :=
  let v := s.cluster cluster
  if !v.gated && s.clusterEmpty cluster && decide (v.idleSince + 65536 ≤ s.cycle) then
    .next (s.setCluster cluster { v with gated := true })
  else .next s

end Sys2Proof.Machine
end

