-- ==== Sys2Proof/Machine/Privileged.lean ====
section
/-! DEFINITION. The privileged words: TLBI (R379), CTXSAVE and CTXLOAD (R373). -/

namespace Sys2Proof.Machine

/-- The frame of a privileged word: PRIV on every thread of the run outside privileged execution (R131, R367). -/
def State.privWord (s : State) (g : Guard) (k : State → Nat → Crew → List Nat → List Nat → State) : Result :=
  s.issueWord noImmx g fun s slot c lanes act =>
    if (s.context c.ctx).priv then k s slot c lanes act
    else s.takeFaults slot s.cycle (lanes.map fun l => (l, { code := codePriv }))

/-! ## TLBI (R379) -/

/-- Whether a TLBI operand names a cached translation. -/
def tlbiHits (y : DWord) (e : TlbEntry) : Bool :=
  let page := field y.toNat 12 44 * 0x1000
  match field y.toNat 0 2 with
  | 0 => e.ctx == field y.toNat 8 4 && decide (e.va ≤ page) && decide (page < e.va + e.size)
  | 1 => e.ctx == field y.toNat 8 4
  | _ => true

/-- A translation cache without the named entries. -/
def Tlb.drop (t : Tlb) (y : DWord) : Tlb := ⟨t.ways.filter fun w => !tlbiHits y w.2, t.tree⟩

/-- The named entries invalidated in every core TLB and every die TLB. -/
def State.invalidate (s : State) (y : DWord) : State :=
  { s with
    cores := s.cores.map fun (e : Nat × Core) => (e.1, { e.2 with tlb := e.2.tlb.drop y })
    dies := s.dies.map fun (e : Nat × Die) => (e.1, { e.2 with tlb := e.2.tlb.drop y }) }

/-- The accesses under way that may have been translated with a named entry: those of the context, or all, and those of its
saved crews. -/
def State.translated (s : State) (y : DWord) : List Nat :=
  (((s.crews.map (·.2)) ++ s.savedCrews).filter fun c => decide (2 ≤ field y.toNat 0 2) || c.ctx == field y.toNat 8 4).flatMap
    fun c => c.loads.map (·.id) ++ c.fifo.map (·.id)

/-- TLBI (R379): once per run; later words of the crew wait for the accesses made with the old entries. -/
def execTlbi (g : Guard) (y : Reg) (s : State) : Result :=
  s.privWord g fun s slot c lanes act =>
    let s1 := s.setCrew slot (c.next lanes)
    match act with
    | [] => s1
    | l :: _ =>
      let v := c.read64 (c.thread l) y
      let p : Pending := ⟨s.nextId, .tlbi, [], (c.thread l).pc, s.cycle, s.translated v, [], []⟩
      { (s1.invalidate v).modCrew slot fun c => { c with steps := c.steps ++ [p] } with nextId := s.nextId + 1 }

/-! ## CTXSAVE and CTXLOAD (R373) -/

/-- The issue of CTXSAVE and CTXLOAD (R207, R373, R440): ALIGN, then the block's read as a completion step. -/
def State.ctxWord (s : State) (g : Guard) (y : Reg) (kind : DWord → StepKind) : Result :=
  s.privWord g fun s slot c lanes act =>
    let s1 := s.setCrew slot (c.next (lanes.filter fun l => !act.contains l))
    match act with
    | [] => s1
    | l :: _ =>
      let a := c.read64 (c.thread l) y
      if a.toNat % 64 ≠ 0 then s1.takeFaults slot s.cycle (act.map fun l => (l, { code := codeAlign, addr := a }))
      else
        (s1.beginStep slot (kind a) act (c.thread l).pc).stepReads slot c 64 (fun s l => s.checkLane slot c l a 64 .read) [l]

/-- CTXSAVE (R373). -/
def execCtxsave (g : Guard) (y : Reg) (s : State) : Result := s.ctxWord g y .ctxsave

/-- CTXLOAD (R373). -/
def execCtxload (g : Guard) (y : Reg) (s : State) : Result := s.ctxWord g y .ctxload

/-- The first byte of a control block that breaks R373. -/
def ctxBlockFault (own : Nat) (load : Bool) (b : List Byte) : Option Nat :=
  let ctx := blk b 0 1
  if 16 ≤ ctx ∨ ctx = own then some 0
  else
    (upFrom 1 63).find? fun i =>
      !(decide (8 ≤ i) && decide (i < 16)) && !(load && decide (16 ≤ i) && decide (i < 24)) && b.getD i 0 != 0

/-- CTXSAVE's effect (R373): the context held and pre-empted; the add follows when its images are complete. -/
def State.ctxSave (s : State) (slot x : Nat) (h : DWord) : State :=
  if (s.context x).held then s.ctxAdd (h, slot)
  else
    let s1 := s.startSaving x
    s1.setContext x { s1.context x with held := true, saveAdds := (s1.context x).saveAdds ++ [(h, slot)] }

/-- CTXLOAD's effect on a held context (R373). -/
def State.ctxLoad (s : State) (slot x img : Nat) (h : DWord) : State :=
  (s.setContext x { s.context x with img := field img 16 36, held := false }).ctxAdd (h, slot)

/-- CTX_BLOCK_RETURN (R373, R440): the block's checks, then the effect or the fault of every lane. -/
def execCtxBlockReturn (slot : Nat) (s : State) : Result :=
  match s.takeStep slot fun k => match k with
    | .ctxsave _ | .ctxload _ => true
    | _ => false with
  | none => .next s
  | some (c, p, s1) =>
    let finish (load : Bool) : State :=
      match p.got with
      | [] => s1
      | (_, .fault t) :: _ => s1.failStep slot p.lanes t p
      | (_, .bytes b) :: _ =>
        match ctxBlockFault c.ctx load b with
        | some off => s1.failStep slot p.lanes (mxparam off) p
        | none =>
          let h := BitVec.ofNat 64 (blk b 8 8)
          match s1.handlesFault slot c (if h = 0 then [] else [h]) with
          | (some t, s) => s.failStep slot p.lanes t p
          | (none, s) =>
            let x := blk b 0 1
            if !load then (s.ctxSave slot x h).endStep slot p.lanes
            else if (s.context x).held then (s.ctxLoad slot x (blk b 16 8) h).endStep slot p.lanes
            else s.failStep slot p.lanes (mxparam 0) p
    match p.kind with
    | .ctxsave _ => .next (finish false)
    | .ctxload _ => .next (finish true)
    | _ => .next s

end Sys2Proof.Machine
end

