-- ==== Sys2Proof/Machine/Present.lean ====
section
/-! DEFINITION. The issue of a word: the crew a subcore may issue from (R42 to R49), the holds at issue (R82,
R140, R202, R203, R206, R211, R215, R230, R233, R242, R257, R259, R299, R346, R373, R379, R440), and the word
that a crew issues next. -/

namespace Sys2Proof.Machine

/-! ## What a word touches -/

/-- The predicates a word reads or writes beside its guard (R130, R173, R175, R176). -/
def predUses : Instr → List (BitVec 3)
  | .sel _ _ _ _ n => [n]
  | .icmpReg _ _ _ _ _ p => [p]
  | .icmpImm _ _ y _ _ _ => [y]
  | .fcmp _ _ _ p _ _ => [p]
  | .pand _ d a b | .por _ d a b | .pxor _ d a b => [d, a, b]
  | .pnot _ d a | .pmov _ d a => [d, a]
  | .voteAny _ x y | .voteAll _ x y => [x, y]
  | .ballot _ _ y => [y]
  | .elect _ x => [x]
  | .ctest _ _ _ p => [p]
  | .cwaitTo _ _ _ p => [p]
  | _ => []

/-- The physical entries of a thread that a word uses without naming them: link and frame (R187, R189, R201). -/
def implicitEntries (t : Thread) : Instr → List Nat
  | .call _ _ | .callx _ _ => [{ t with depth := t.depth + 1 }.entry 31]
  | .ret _ => [t.entry 31]
  | .spillf _ => (upFrom 0 16).map fun e => 16 + 16 * (t.lo % 7) + e
  | .fillf _ => (upFrom 0 16).map fun e => 16 + 16 * ((t.lo - 1) % 7) + e
  | _ => []

/-- The register fields a word uses beside its operands: the third source of an FFMA under MODX (R136), the x + 1 of a
32-bit CAS (R221), %k8 to %k15
of a posting word (R230, R245), the %w register of a stream word (R268), the %k registers of SGENK and SSEED (R263). -/
def extraFields (t : Thread) : Instr → List Reg
  | .ffmaF32 _ d _ _ | .ffmaF16 _ d _ _ | .ffmaBf16 _ d _ _ => [t.third d]
  | .ffmaF64 _ d _ _ => [t.third d, t.third d + 1]
  | .xcopyK _ | .mxcmdK _ | .mxtab _ _ _ => (upFrom 56 8).map fun k => BitVec.ofNat 6 k
  | .atomCas _ x _ w _ => if w = 0 then [x + 1] else []
  | .sgen _ q _ | .scnt _ q | .stag _ q | .sdot _ _ q => [wField q]
  | .sgenk _ q _ => [56 + q.setWidth 6]
  | .sseed _ _ => [62, 63]
  | _ => []

/-- The stream register that a word writes and those it reads (R256, R263 to R270). -/
def streamUses : Instr → List (BitVec 3) × List (BitVec 3)
  | .sgen d _ _ | .sgenk d _ _ => ([d], [])
  | .sand d a b | .sxnor d a b | .sor d a b | .ssub d a b | .smin d a b | .smax d a b => ([d], [a, b])
  | .smux d a b q => ([d], [a, b, q])
  | .snot d a | .smov d a | .srot d a _ | .sregen d a _ => ([d], [a])
  | .scnt a _ | .stag a _ => ([], [a])
  | .sdot a b _ => ([], [a, b])
  | _ => ([], [])

/-- The lanes whose registers a word reads: the active ones; for SX words every lane of their strokes (R184), for SGEN
the exited ones too (R260, R264). -/
def Crew.readLanes (c : Crew) (act : List Nat) : Instr → List Nat
  | .sxpack _ _ _ _ | .sxunpack _ _ _ _ _ => (upFrom 0 64).filter fun l => act.any fun a => a / 16 == l / 16
  | .sgen _ _ _ => act ++ c.lanesWith fun t => t.st == .exited
  | _ => act

/-! ## What is still owed (R140) -/

/-- The late writes a crew is still owed, as (lane, destination): loads, counter answers, atomics with a returned
value, and counts of the stream engine. -/
def State.owed (s : State) (slot : Nat) (c : Crew) : List (Nat × Dest) :=
  (c.loads.map fun l => l.lanes.map fun x => (x.lane, x.dest)).flatten
    ++ (c.ctrOps.map fun o => o.lanes.map fun l => (l, o.dest)).flatten
    ++ (c.fifo.map fun e => if e.op.returns then e.items.map fun i => (i.lane, i.dest) else []).flatten
    ++ ((s.core (coreOf slot)).streamq.map fun o =>
        if o.slot = slot then o.dests.map fun d => (d.1, Dest.regs [d.2] false) else []).flatten

/-- Whether an owed write is to a physical entry of a lane. -/
def owesEntry (l : List (Nat × Dest)) (lane e : Nat) : Bool :=
  l.any fun p => p.1 == lane && match p.2 with
    | .regs es _ => es.contains e
    | _ => false

/-- Whether an owed write is to a %k register. -/
def owesK (l : List (Nat × Dest)) (k : Nat) : Bool :=
  l.any fun p => match p.2 with
    | .kreg n _ => n == k
    | _ => false

/-- Whether an owed write is to a predicate of a lane. -/
def owesPred (l : List (Nat × Dest)) (lane n : Nat) : Bool :=
  l.any fun p => p.1 == lane && match p.2 with
    | .pred q => q == n
    | _ => false

/-- Whether a register or predicate of a word is still owed a write in an active lane (R140). -/
def Crew.owedTo (c : Crew) (l : List (Nat × Dest)) (act : List Nat) (i : Instr) : Bool :=
  let fields := (i.operands.map fun o => o.cls.fields o.field).flatten
  (c.readLanes act i).any fun a =>
    let t := c.thread a
    (fields ++ extraFields t i).any (fun f =>
      if 48 ≤ f.toNat then owesK l (f.toNat - 48) else owesEntry l a (t.entry f.toNat))
      || (implicitEntries t i).any (fun e => owesEntry l a e)
      || (predUses i).any fun p => owesPred l a p.toNat

/-- Whether a stream register that a word reads or writes is still to be written by an operation of the crew in the core's
stream queue (R140, R259). -/
def State.streamOwed (s : State) (slot : Nat) (i : Instr) : Bool :=
  let use := streamUses i
  (s.core (coreOf slot)).streamq.any fun o =>
    o.slot == slot && (streamUses o.instr).1.any fun d => use.1.contains d || use.2.contains d

/-! ## Holds at issue -/

/-- Why a word is held, by the reasons of R424. -/
inductive Hold where
  | mem | eng | pipe
deriving DecidableEq, Repr

/-- A word that reads or writes memory carried out, for the loads and entries it would make: those of its completion
step's reads too (R206, R230, R299, R440). -/
def memoryWord : Instr → Option (State → Result)
  | .ldN8 g d b o => some (execLdN8 g d b o)
  | .ldI8 g d b o => some (execLdI8 g d b o)
  | .ldN16 g d b o => some (execLdN16 g d b o)
  | .ldI16 g d b o => some (execLdI16 g d b o)
  | .ld32 g d b o => some (execLd32 g d b o)
  | .ld64 g d b o => some (execLd64 g d b o)
  | .ld128 g d b o => some (execLd128 g d b o)
  | .st8 g d b o => some (execSt8 g d b o)
  | .st16 g d b o => some (execSt16 g d b o)
  | .st32 g d b o => some (execSt32 g d b o)
  | .st64 g d b o => some (execSt64 g d b o)
  | .st128 g d b o => some (execSt128 g d b o)
  | .ldk g x y w o => some (execLdk g x y w o)
  | .stk g x y w o => some (execStk g x y w o)
  | .spillf g => some (execSpillf g)
  | .atomAdd g x y w r => some (execAtomAdd g x y w r)
  | .atomMin g x y w r => some (execAtomMin g x y w r)
  | .atomMax g x y w r => some (execAtomMax g x y w r)
  | .atomMinu g x y w r => some (execAtomMinu g x y w r)
  | .atomMaxu g x y w r => some (execAtomMaxu g x y w r)
  | .atomAnd g x y w r => some (execAtomAnd g x y w r)
  | .atomOr g x y w r => some (execAtomOr g x y w r)
  | .atomXor g x y w r => some (execAtomXor g x y w r)
  | .atomXchg g x y w r => some (execAtomXchg g x y w r)
  | .atomCas g x y w r => some (execAtomCas g x y w r)
  | .atomFadd g x y r => some (execAtomFadd g x y r)
  | .atomr g x y r => some (execAtomr g x y r)
  | .scadd g x y t => some (execScadd g x y t)
  | .binapp g x y => some (execBinapp g x y)
  | .mcastLd g x y => some (execMcastLd g x y)
  | .cctlIinv g y => some (execCctlIinv g y)
  | .cctlL1inv g y => some (execCctlL1inv g y)
  | .cctlL2wb g y => some (execCctlL2wb g y)
  | .cctlL2inv g y => some (execCctlL2inv g y)
  | .rput g x y m => some (execRput g x y m)
  | .fillf g => some (execFillf g)
  | .eret g => some (execEret g)
  | .launch g y => some (execLaunch g y)
  | .xcopy g y => some (execXcopy g y)
  | .mxcmd g y => some (execMxcmd g y)
  | .obres g y r => some (execObres g y r)
  | .collAllreduce g y => some (execCollAllreduce g y)
  | .collReducescatter g y => some (execCollReducescatter g y)
  | .collAllgather g y => some (execCollAllgather g y)
  | .collGather g y => some (execCollGather g y)
  | .collScatter g y => some (execCollScatter g y)
  | .collAlltoall g y => some (execCollAlltoall g y)
  | .ctxsave g y => some (execCtxsave g y)
  | .ctxload g y => some (execCtxload g y)
  | _ => none

/-- The loads and entries that a word would add to its crew. -/
def State.wouldAdd (s : State) (slot : Nat) (c : Crew) (lanes : List Nat) (i : Instr) : List Load × List Entry :=
  match memoryWord i with
  | none => ([], [])
  | some f =>
    match f { s with cur := ⟨slot, lanes⟩ } with
    | .next t =>
      match t.crew? slot with
      | none => ([], [])
      | some d =>
        (d.loads.filter fun l => !c.loads.any fun x => x.id == l.id,
          d.fifo.filter fun e => !(c.fifo.any fun x => x.id == e.id) && e.op != .record)
    | _ => ([], [])

/-- Whether an entry leaves a byte of a space with a value that its FIFO does not know: an ATOM, SCADD or BINAPP at its
operands, an ATOMR in its whole line, an MCAST.LD in the decks it writes (R211). -/
def State.leavesUnknown (s : State) (slot : Nat) (c : Crew) (e : Entry) (sp : Space) (a : Nat) : Bool :=
  match e.op with
  | .atom .. | .scadd _ | .binapp =>
    e.space == sp && e.items.any fun i => decide (i.addr ≤ a) && decide (a < i.addr + e.size)
  | .atomr _ => e.space == sp && e.line == lineOf a
  | .mcast _ => (s.mcastSpans slot c e).any fun p => sp == .deck p.1 && decide (p.2 ≤ a) && decide (a < p.2 + 128)
  | _ => false

/-- Whether the youngest entry of a crew's own FIFO for a byte leaves a value that the FIFO does not know (R211). -/
def State.unknownByte (s : State) (slot : Nat) (c : Crew) (sp : Space) (a : Nat) : Bool :=
  c.fifo.foldl (init := false) fun m e =>
    if s.leavesUnknown slot c e sp a then true
    else if e.space == sp && e.line == lineOf a && (Cells.find e.bytes (a % 128)).isSome then false
    else m

/-- Whether a load reads such a byte: it waits for the entry's acknowledgement (R211). -/
def State.unknownTo (s : State) (slot : Nat) (c : Crew) (l : Load) : Bool :=
  !c.fifo.isEmpty && l.lanes.any fun x => (upFrom x.addr x.size).any fun a => s.unknownByte slot c l.space a

/-- Whether a load is held (R211, R299). -/
def State.loadHeld (s : State) (slot : Nat) (c : Crew) (l : Load) : Bool :=
  s.sentTo (coreOf slot) l.space l.line (fun k => k != slot)
    || c.loads.any (fun x => x.space == l.space && x.line == l.line) || s.unknownTo slot c l

/-- Byte ranges of the operand buffer that an address range of a command covers, with whether it writes them. -/
def obufRange (write : Bool) (e : Int × Int) : Bool × Int × Int :=
  let base : Int := windowBase + 0x20000000
  (write, e.1 - base, e.2 - base)

/-- The operand buffer's part in the MEM sides of a copy command (R233, R242). -/
def copyUses (cmd : CopyCmd) : List (Bool × Int × Int) :=
  let b := copyBlock cmd.block
  (if b.srck = 0 then [obufRange false b.srcExtent] else []) ++ (if b.dstk = 0 then [obufRange true b.dstExtent] else [])

/-- Byte ranges of the operand buffer that a command of the matrix FIFO reads and writes (R233): the records of its operands,
the table of an MXTAB, bias values and outputs. -/
def Core.matrixUses (k : Core) (m : MatrixCmd) : List (Bool × Int × Int) :=
  let record (n : Nat) : List (Bool × Int × Int) :=
    ((k.record? n).map fun r => (false, (r.base : Int), (r.base : Int) + r.len - 1)).toList
  match m.table with
  | some (_, a) => [obufRange false (a.toNat, a.toNat + 2047)]
  | none =>
    let b := mxBlock m.block
    record b.arec ++ record b.brec
      ++ (if b.bias then [obufRange false (b.biasp, (b.biasp : Int) + 4 * b.n - 1)] else [])
      ++ if b.dstk = 1 then [obufRange true ((b.out : Int), (b.out : Int) + (b.m - 1) * b.opitch + 8 * b.n - 1)] else []

/-- Byte ranges of the operand buffer that a crew's commands not yet complete read and write (R233). -/
def State.obufUses (s : State) (slot : Nat) : List (Bool × Int × Int) :=
  let k := s.core (coreOf slot)
  (k.copyq.map fun q => ((q.2.filter fun m => m.slot == slot).map copyUses).flatten).flatten
    ++ ((k.matrixq.filter fun m => m.slot == slot).map k.matrixUses).flatten

/-- Whether an access of a crew to the operand buffer is held (R233): a load from a record that a command writes, a
store to one that a command reads or writes. -/
def State.obufHeld (s : State) (slot : Nat) (a n : Nat) (store : Bool) : Bool :=
  let uses := s.obufUses slot
  (s.core (coreOf slot)).records.any fun r =>
    decide (r.2.base < a + n) && decide (a < r.2.base + r.2.len)
      && uses.any fun u => (u.1 || store) && decide (u.2.1 < r.2.base + r.2.len) && decide ((r.2.base : Int) ≤ u.2.2)

/-- Whether a word would touch a record in a way that R233 holds. -/
def State.recordHeld (s : State) (slot : Nat) (ls : List Load) (es : List Entry) : Bool :=
  (ls.any fun l => match l.space with
    | .obuf _ => l.lanes.any fun x => s.obufHeld slot x.addr x.size false
    | _ => false)
  || es.any fun e => match e.space with
    | .obuf _ => e.bytes.any fun b => s.obufHeld slot (e.line + b.1) 1 true
    | _ => false

/-- Whether an accumulator word lies in a range that a command of the crew, not yet complete, reads or writes
(R233). -/
def State.accHeld (s : State) (slot w : Nat) : Bool :=
  let k := s.core (coreOf slot)
  let mats := k.matrixq.any fun m => m.slot == slot && m.table.isNone &&
    (let b := mxBlock m.block
     let e := if ((k.record? b.arec).map (·.fmt)).getD 0 = 3 then 2 else 1
     decide (b.accb ≤ w) && decide (w < b.accb + b.m * b.n * e))
  let inside (e : Int × Int) : Bool := decide (e.1 < 4 * w + 4) && decide ((4 * w : Int) ≤ e.2)
  let copies := k.copyq.any fun q => q.2.any fun m => m.slot == slot &&
    (let b := copyBlock m.block
     (b.srck == 1 && inside b.srcExtent) || (b.dstk == 1 && inside b.dstExtent))
  mats || copies

/-- Whether a queued or running command of a core names a record (R242): a matrix command in AREC or BREC, a copy command by
a byte of a MEM side's extent inside it. -/
def State.recordNamed (s : State) (core n : Nat) : Bool :=
  let k := s.core core
  (k.matrixq.any fun m => m.table.isNone && ((mxBlock m.block).arec == n || (mxBlock m.block).brec == n))
    || (Cells.find k.records n).any fun r => k.copyq.any fun q => q.2.any fun m => (copyUses m).any fun u =>
      decide (u.2.1 < r.base + r.len) && decide ((r.base : Int) ≤ u.2.2)

/-- The bytes of a block in the deck as its crew would read them now, given the entries older than its word. -/
def State.deckBlock (s : State) (slot : Nat) (c : Crew) (older : Entry → Bool) (off n : Nat) : List Byte :=
  match blockAddress c off n with
  | .error _ => []
  | .ok a =>
    let sp := Space.deck (coreOf slot)
    mapFrom (fun i (f : Option Byte) => f.getD (s.byteAt sp (a + i))) 0 (forwardBytes (c.fifo.filter older) sp a n)

/-- The block of a posting word at issue: what tells its queue (R230 step 5). -/
def State.peekBlock (s : State) (slot : Nat) (c : Crew) (lanes : List Nat) (kind : PostKind) (y : Option Reg) : List Byte :=
  match y, lanes with
  | some f, l :: _ => s.deckBlock slot c (fun _ => true) (c.read32 (c.thread l) f).toNat kind.size
  | _, _ => ((upFrom 8 8).map fun k => bytesOf 8 (c.kreg k).toNat).flatten

/-- The block of a posting step under way: read, or as its crew reads it. -/
def State.stepBlock (s : State) (slot : Nat) (c : Crew) (p : Pending) (y : Option Nat) (block : List Byte) : List Byte :=
  match y, p.got with
  | some off, [] => s.deckBlock slot c (fun e => p.older.contains e.id) off 64
  | _, _ => (p.block y block).toOption.getD []

/-- How many posting steps under way keep room in the same queue (R230 step 5). -/
def State.postsAhead (s : State) (slot : Nat) (kind : PostKind) (b : List Byte) : Nat :=
  let core := coreOf slot
  let same (e : Nat × Crew) (p : Pending) : Bool :=
    match p.kind, kind with
    | .post .xcopy off blkBytes, .xcopy =>
      coreOf e.1 == core && (copyBlock (s.stepBlock e.1 e.2 p off blkBytes)).chan == (copyBlock b).chan
    | .post .mxcmd _ _, .mxcmd | .post .mxcmd _ _, .mxtab _ _ | .post (.mxtab _ _) _ _, .mxcmd
    | .post (.mxtab _ _) _ _, .mxtab _ _ => coreOf e.1 == core
    | .post (.coll _) _ _, .coll _ => dieOf (coreOf e.1) == dieOf core
    | _, _ => false
  (s.crews.map fun e => (e.2.steps.filter fun p => same e p).length).sum

/-- Commands that an engine queue holds (R240, R245, R251). -/
def queueSize : PostKind → Nat
  | .xcopy => 8
  | .mxcmd | .mxtab _ _ => 16
  | .coll _ => 64
  | .obres _ => 0

/-- The commands queued where a posting word would join. -/
def State.queued (s : State) (slot : Nat) (kind : PostKind) (b : List Byte) : Nat :=
  let core := s.core (coreOf slot)
  match kind with
  | .xcopy => (core.channel (copyBlock b).chan).length
  | .mxcmd | .mxtab _ _ => core.matrixq.length
  | .coll _ => (s.die (dieOf (coreOf slot))).collq.length
  | .obres _ => 0

/-- Whether a posting word waits for room in its engine's queue (R230 step 5). -/
def State.postHeld (s : State) (slot : Nat) (c : Crew) (act : List Nat) (kind : PostKind) (y : Option Reg) : Bool :=
  let b := match kind with
    | .mxtab _ _ => []
    | _ => s.peekBlock slot c act kind y
  match kind with
  | .obres _ => false
  | _ => decide (queueSize kind ≤ s.queued slot kind b + s.postsAhead slot kind b)

/-- Whether a word is a stream word, which joins the core's stream queue (R259). -/
def streamWord? : Instr → Bool
  | .sseed .. | .sgen .. | .sgenk .. | .slen .. | .sand .. | .sxnor .. | .sor .. | .ssub .. | .smin .. | .smax ..
  | .snot .. | .smux .. | .scnt .. | .sdot .. | .sregen .. | .stag .. | .smov .. | .srot .. => true
  | _ => false

/-- The holds of the engines, the Ringmaster and the Coxswain (R203, R230, R233, R242, R257, R259, R202). -/
def State.engineHeld (s : State) (slot : Nat) (c : Crew) (act : List Nat) (i : Instr) : Bool :=
  let k := s.core (coreOf slot)
  let word (f : Reg) : List Nat := act.map fun l => (c.read32 (c.thread l) f).toNat
  match i with
  | .launch _ _ =>
    let q := s.gridQueue c
    let coming := ((s.crews.filter fun e => s.gridQueue e.2 == q).map fun e => (e.2.steps.filter fun p => match p.kind with
      | .launch _ => true
      | _ => false).length).sum
    !c.fifo.isEmpty || !c.loads.isEmpty || decide (256 ≤ (s.queue q).children.length + coming)
  | .svc _ _ _ => !c.fifo.isEmpty || !c.loads.isEmpty || decide (64 ≤ s.cox.deviceq.length)
  | .xcopy _ y => s.postHeld slot c act .xcopy (some y)
  | .xcopyK _ => s.postHeld slot c act .xcopy none
  | .mxcmd _ y => s.postHeld slot c act .mxcmd (some y)
  | .mxcmdK _ => s.postHeld slot c act .mxcmd none
  | .mxtab _ y t => s.postHeld slot c act (.mxtab t.toNat 0) (some y)
  | .collAllreduce _ y => s.postHeld slot c act (.coll 0) (some y)
  | .collReducescatter _ y => s.postHeld slot c act (.coll 1) (some y)
  | .collAllgather _ y => s.postHeld slot c act (.coll 2) (some y)
  | .collGather _ y => s.postHeld slot c act (.coll 3) (some y)
  | .collScatter _ y => s.postHeld slot c act (.coll 4) (some y)
  | .collAlltoall _ y => s.postHeld slot c act (.coll 5) (some y)
  | .accld _ _ y | .accst _ _ y => (word y).any fun w => s.accHeld slot w
  | .obrel _ r => s.recordNamed (coreOf slot) r.toNat
  | .csrw _ _ n => n == 0x020 && k.streamq.any fun o => o.slot == slot
  | _ => streamWord? i && decide (16 ≤ k.streamq.length)

/-- The other waits at issue: fences and privileged words (R215, R346, R373, R379). -/
def Crew.drainHeld (c : Crew) (i : Instr) : Bool :=
  match i with
  | .fence _ x =>
    x != 0 && (!c.fifo.isEmpty || !c.loads.isEmpty || c.ctrOps.any fun o => match o.kind with
      | .add _ | .addr _ => true
      | _ => false)
  | .tlbi _ _ | .ctxsave _ _ | .ctxload _ _ => !c.fifo.isEmpty
  | _ => false

/-- Whether the crew still waits for a flush read of a fence or for the accesses of a TLBI (R346, R379). -/
def State.crewWaits (s : State) (slot : Nat) (c : Crew) : Bool :=
  s.links.pcie.any (fun q => q.slot == slot && q.kind == .fence)
    || c.steps.any fun p => p.kind == .tlbi && !s.tlbiDone p

/-- Whether a word is a CCTL (R214). -/
def cctlWord? : Instr → Bool
  | .cctlIinv .. | .cctlL1inv .. | .cctlL2wb .. | .cctlL2inv .. => true
  | _ => false

/-- Whether a memory word waits for a CREAD or CTEST of wider scope than crew that its home has not answered: the acquire
comes with the answer, and every later access follows it (R301, R304; log 63). -/
def Crew.acquiring (c : Crew) : Bool :=
  c.ctrOps.any fun o => match o.kind with
    | .read | .test => true
    | _ => false

/-- Whether the loads and entries that a word would make are held (R19, R206, R211, R214, R299, R304). -/
def State.accessHeld (s : State) (slot : Nat) (c : Crew) (i : Instr) (ls : List Load) (es : List Entry) : Bool :=
  (ls.any fun l => s.loadHeld slot c l)
    || (!ls.isEmpty && decide (requestRoom < s.outstanding (coreOf slot) + ls.length))
    || (!es.isEmpty && decide (64 < c.fifo.length + es.length))
    || (cctlWord? i && !c.fifo.isEmpty)
    || ((memoryWord i).isSome && c.acquiring)

/-- The hold of a word at issue, if any (R42, R440). A word whose guard is false for the whole run is held by its
guard alone. -/
def State.holdOf (s : State) (slot : Nat) (c : Crew) (lanes : List Nat) (i : Instr) : Option Hold :=
  let owed := s.owed slot c
  let guardOwed := match i.guard? with
    | some g => lanes.any fun l => owesPred owed l (g.toNat % 8)
    | none => false
  let act := match i.guard? with
    | some g => c.active lanes g
    | none => lanes
  if guardOwed || s.crewWaits slot c then some .pipe
  else if act.isEmpty then none
  else if c.owedTo owed act i || s.streamOwed slot i then some .pipe
  else if c.drainHeld i then some .pipe
  else if s.engineHeld slot c act i then some .eng
  else
    let w := s.wouldAdd slot c lanes i
    if s.recordHeld slot w.1 w.2 then some .eng
    else if s.accessHeld slot c i w.1 w.2 then some .mem
    else none

/-! ## The crew that may issue (R42 to R49, R52, R331, R390, R399, R415) -/

/-- Whether the package runs: booted, clocked, not frozen, not in ERROR. -/
def State.running (s : State) : Bool :=
  s.boot.stage == 0 && !s.boot.lockstep && !s.boot.thermtrip && !s.rpl.frozen && !s.fleet.clockStopped
    && s.boot.tdi != .error

/-- The run that alone may issue, its crew being resident (R47). -/
def State.forcedRun (s : State) (sub : Nat) : Option (Nat × Word) :=
  (s.sub sub).forced.filter fun f => (s.crew? f.1).isSome

/-- The current crew of a subcore in logically deterministic mode: the one chosen, while it has threads and is
there, else a choice afresh (R44). -/
def State.currentCrew (s : State) (sub : Nat) : Option Nat :=
  let v := s.sub sub
  match v.current with
  | some k => if (s.crew? k).isSome then some k else s.chooseCrew sub false
  | none => s.chooseCrew sub false

/-- Whether a crew runs: its package, core and context do, and its start has come (R52, R331, R390, R415). -/
def State.mayRun (s : State) (slot : Nat) (c : Crew) : Bool :=
  let k := s.core (coreOf slot)
  s.running && !k.preempt && !k.stopped && !(s.context c.ctx).held && decide (c.startAt ≤ s.cycle)

/-- Whether a subcore may issue from a slot: the current crew in logically deterministic mode, a forced run's crew alone
(R44, R47). -/
def State.mayIssue (s : State) (slot : Nat) (c : Crew) : Bool :=
  let k := s.core (coreOf slot)
  let sub := slot / 8
  s.mayRun slot c
    && (if k.ldet then s.currentCrew sub == some slot && decide ((s.sub sub).budget < 65536)
        else match s.forcedRun sub with
          | some f => f.1 == slot
          | none => true)

/-! ## The next word -/

/-- What a crew issues next: nothing, with the state after what was tried, or an instruction with the state in
which it executes. -/
inductive IssueView where
  | held (s : State)
  | word (i : Instr) (s : State)
  /-- A word that is no instruction (R141). -/
  | undefined (w : Word) (s : State)

/-- The current crew recorded (R44). -/
def State.noteCurrent (s : State) (slot : Nat) : State :=
  if (s.core (coreOf slot)).ldet && (s.sub (slot / 8)).current != some slot then
    s.setSub (slot / 8) { s.sub (slot / 8) with current := some slot, budget := 0 }
  else s

/-- Lanes of a run whose registers hold an uncorrectable error fault POISON as they read (R428). -/
def State.badRegisters (s : State) (slot : Nat) (c : Crew) (lanes : List Nat) : State :=
  let bad := lanes.filter fun l => c.badLanes.contains l
  if bad.isEmpty then s
  else
    (s.modCrew slot fun c => { c with badLanes := c.badLanes.filter fun l => !bad.contains l }).takeFaults slot s.cycle
      (bad.map fun l => (l, { code := codePoison }))

/-- The state in which a crew's word executes: its run is the issuer, the issue is counted, and a TLBI whose
accesses have finished is done (R44, R47, R379). -/
def State.beginIssue (s : State) (slot : Nat) (lanes : List Nat) : State :=
  ({ (s.noteCurrent slot).noteIssue slot lanes with cur := ⟨slot, lanes⟩ }).modCrew slot fun d =>
    { d with fetched := none, steps := d.steps.filter fun (p : Pending) => p.kind != StepKind.tlbi }

/-- A run of a crew presented with its word (R131, R140, R428, R440). A lane whose register storage holds an uncorrectable
error faults POISON at its run's next word, before the word's UNDEF or PRIV is looked for and whatever registers the word
reads: R131 and R428 do not place this fault (log 61, DESIGN CHOICE). -/
def State.present (s : State) (slot : Nat) (c : Crew) (lanes : List Nat) (w : Word) : IssueView :=
  if lanes.any fun l => c.badLanes.contains l then .held ((s.badRegisters slot c lanes).spend 1)
  else
    match decode? w with
    | none => if s.crewWaits slot c then .held s else .undefined w (s.beginIssue slot lanes)
    | some i =>
      match s.holdOf slot c lanes i with
      | some _ => .held s
      | none => .word i (s.beginIssue slot lanes)

/-- A run of a crew with its word, fetched if it is not yet (R42, R127). -/
def State.runView (s : State) (slot : Nat) (c : Crew) (pc : Word) (lanes : List Nat) : IssueView :=
  let fresh : IssueView :=
    match s.fetch slot c pc with
    | (.error t, s) => .held ((s.takeFaults slot s.cycle (lanes.map fun l => (l, t))).spend 1)
    | (.ok w, s) => s.present slot c lanes w
  match c.fetched with
  | some (a, w) => if a = BitVec.ofNat 64 (c.codeAddr pc) then s.present slot c lanes w else fresh
  | none => fresh

/-! ## Waiting periods (R43) -/

/-- The run of a crew whose word is fetched, whose sources are ready and which nothing holds (R43). -/
def State.readyRun (s : State) (slot : Nat) (c : Crew) : Option (Word × List Nat) :=
  if !s.mayRun slot c then none
  else
    match s.nextRun slot c with
    | none => none
    | some (pc, lanes) =>
      match s.runView slot c pc lanes with
      | .held _ => none
      | _ => some (pc, lanes)

/-- A crew's waiting period: begun when its run became ready, ended by a hold and by a change of the run (R43). -/
def State.periodOf (s : State) (slot : Nat) (c : Crew) : Option Period :=
  match s.readyRun slot c with
  | none => none
  | some (pc, lanes) =>
    match c.period with
    | some p => if p.pc = pc ∧ p.lanes = lanes then some p else some ⟨s.cycle, pc, lanes⟩
    | none => some ⟨s.cycle, pc, lanes⟩

/-- Every crew's waiting period brought up to date (R43). -/
def State.notePeriods (s : State) : State :=
  { s with crews := s.crews.map fun (e : Nat × Crew) => (e.1, { e.2 with period := s.periodOf e.1 e.2 }) }

/-- Of some crews, the one whose waiting period began earliest, ties to the lower slot (R43). -/
def earliestOf (l : List (Nat × Crew)) : Option Nat :=
  (l.foldl (init := (none : Option (Nat × Nat))) fun m e =>
    match e.2.period, m with
    | some p, none => some (p.since, e.1)
    | some p, some b => if p.since < b.1 then some (p.since, e.1) else m
    | none, _ => m).map (·.2)

/-- Whether it is a crew's turn on its subcore: in normal mode, with no run forced, that of the ready crew whose waiting
period began earliest (R43, R44, R47). -/
def State.inTurn (s : State) (slot : Nat) : Bool :=
  (s.core (coreOf slot)).ldet || (s.forcedRun (slot / 8)).isSome || earliestOf (s.subCrews (slot / 8)) == some slot

/-- What every step finds done: the subcores and the waiting periods brought up to date (R43, R44, R47, R48). -/
def State.refresh (s : State) : State := s.refreshSubs.notePeriods

/-- The next word of the crew in a slot (R42). A crew that is not in turn still takes the fault of a fetch. -/
def State.issueView (s : State) (slot : Nat) : IssueView :=
  match s.crew? slot with
  | none => .held s
  | some c =>
    if !s.mayIssue slot c then .held s
    else
      match s.nextRun slot c with
      | none => .held s
      | some (pc, lanes) =>
        match s.runView slot c pc lanes with
        | .held t => .held t
        | v => if s.inTurn slot then v else .held s

end Sys2Proof.Machine
end

