-- ==== Sys2Proof/Machine/Coxswain.lean ====
section
/-! DEFINITION. The Coxswain: its call queue and the frame of a call (R380 to R385), the event ring (R388,
R431), and the calls for information, arenas, counters, events, faults, debugging and contexts (R386 calls 0 to
29; R387, R389, R390). -/

namespace Sys2Proof.Machine

/-! ## Events (R388, R431) -/

/-- The MSI-X vector of an event kind: its own, or the ring's (log 41). -/
def Coxswain.vector (x : Coxswain) (kind : Nat) : Option Nat :=
  match Cells.find x.vectors kind with
  | some v => if v = 0xFF then none else some v
  | none =>
    match Cells.find x.vectors 256 with
    | some v => if v = 0xFF then none else some v
    | none => none

/-- An event's 64-byte record (R388 table 5). -/
def Event.record (e : Event) : List Byte :=
  bytesOf 8 (e.cycle * 256 + e.source) ++ bytesOf 2 e.kind ++ bytesOf 1 e.ctx ++ bytesOf 5 0
    ++ (e.data ++ List.replicate 48 0).take 48

/-- One more event lost (R384: saturating). -/
def Coxswain.lose (x : Coxswain) : Coxswain := { x with evlost := min 0xFFFF (x.evlost + 1) }

/-- An event written to the ring, or counted as lost when masked or when the ring is full (R386, R388). -/
def State.writeEvent (s : State) (e : Event) : State :=
  let x := s.cox
  if x.mask.getLsbD e.kind || (x.head + 2 ^ 32 - x.tail) % 2 ^ 32 == x.ringRecords then { s with cox := x.lose }
  else
    let s1 := { s with cox := { x with head := (x.head + 1) % 2 ^ 32 } }
    let s2 := s1.physWrite (x.ringBase + 64 * (x.head % x.ringRecords)) e.record
    match x.vector e.kind with
    | some v => s2.emit (.msix v)
    | none => s2

/-- Events placed in increasing SEQ (R388). -/
def inSeqOrder (l : List Event) : List Event :=
  l.foldl (init := []) fun m e =>
    let before (x : Event) : Bool := decide (x.cycle * 256 + x.source ≤ e.cycle * 256 + e.source)
    m.takeWhile before ++ e :: m.dropWhile before

/-- The events whose c has come are written to the ring, in increasing SEQ (R388, R431). -/
def State.drainEvents (s : State) : State :=
  let due := s.cox.events.filter fun e => decide (e.cycle ≤ s.cycle)
  if due.isEmpty then s
  else
    (inSeqOrder due).foldl State.writeEvent
      { s with cox := { s.cox with events := s.cox.events.filter fun e => !decide (e.cycle ≤ s.cycle) } }

/-! ## A poster's memory (R382) -/

/-- Who posted a call: the context for calls on the caller's context, and the context whose virtual addresses
the call's addresses are; a host post's addresses are physical. -/
structure Poster where
  ctx : Nat
  device : Option Nat
  priv : Bool
deriving DecidableEq, Repr

/-- Where a poster's address lands: physical address and path bit. -/
def State.posterPlace (s : State) (p : Poster) (a : Nat) (kind : WalkKind) : Option (Nat × Bool) :=
  match p.device with
  | none => if a < dramSize ∧ !s.inOverflow a then some (a, false) else none
  | some x =>
    if inWindow a then none
    else
      match s.walk x a kind with
      | .error _ => none
      | .ok g =>
        let pa := g.pa + (a - g.va)
        if hostBase ≤ pa ∧ s.linkdown g.hp then none else some (pa, g.hp)

/-- Bytes of one line as a path shows them: a PCIe-path line is read from the host itself (R345, R356). -/
def State.pathBytes (s : State) (pa : Nat) (cxl : Bool) (n : Nat) : List Byte :=
  if hostLine pa && !cxl then s.hostMem.read (pa - hostBase) n else s.bytesAt .global pa n

/-- Whether a read of a line on a path meets poison: a poisoned line, or a host line that no slice holds and the host does not
serve (R283, R345). -/
def State.readPoison (s : State) (pa : Nat) (cxl : Bool) : Bool :=
  let host := hostLine pa && !(cxl && (s.line (lineOf pa)).present)
  if host then !Config.hostServes (lineOf pa) else s.poisoned pa

/-- n bytes at a poster's address. -/
def State.posterRead (s : State) (p : Poster) (a n : Nat) : Option (List Byte) :=
  (piecesOf a n).foldl (init := some []) fun m (q : Nat × Nat) =>
    match m, s.posterPlace p q.1 .read with
    | some l, some (pa, cxl) => if s.readPoison pa cxl then none else some (l ++ s.pathBytes pa cxl q.2)
    | _, _ => none

/-- Bytes of one line stored at their home by a unit outside the cores; the write time. -/
def State.unitStore (s : State) (pa : Nat) (cxl : Bool) (data : List Byte) : Nat × State :=
  if hostLine pa && !cxl then
    (0, (s.hostWrite pa data).emit
      (.pcieWrite (lineOf pa - hostBase) (mapFrom (fun i (b : Byte) => (i, b)) (pa % 128) data)))
  else ((s.useLine (lineOf pa) true).setBytesAt .global pa data).homeWrite (lineOf pa) 0

/-- Pieces stored where they were placed. -/
def State.storePieces (s : State) (t : Nat) : List (Nat × Bool × Nat) → List Byte → Nat × State
  | [], _ => (t, s)
  | p :: r, data =>
    let q := s.unitStore p.1 p.2.1 (data.take p.2.2)
    State.storePieces q.2 (max t q.1) r (data.drop p.2.2)

/-- Bytes stored at a poster's address, when every piece has a place: the largest write time. -/
def State.posterWrite (s : State) (p : Poster) (a : Nat) (data : List Byte) : Option (Nat × State) :=
  let l := (piecesOf a data.length).map fun (q : Nat × Nat) => (s.posterPlace p q.1 .write).map fun w => (w.1, w.2, q.2)
  if l.all Option.isSome then some (s.storePieces 0 (l.filterMap id) data) else none

/-! ## The frame of a call (R380 to R385) -/

/-- Status codes (R381 table 2). -/
def stOk : Nat := 0
def stBadCall : Nat := 1
def stBadArg : Nat := 2
def stNoMem : Nat := 3
def stDenied : Nat := 4
def stBadCnt : Nat := 5
def stBusy : Nat := 6

/-- What a call answers: code, offset of the failing field, results by block offset, and the state. -/
structure Answer where
  code : Nat
  off : Nat
  results : List (Nat × List Byte)
  state : State

/-- The answers of a call. -/
def State.done (s : State) (results : List (Nat × List Byte)) : Answer := ⟨stOk, 0, results, s⟩
def State.badArg (s : State) (off : Nat) : Answer := ⟨stBadArg, off, [], s⟩
def State.denied (s : State) : Answer := ⟨stDenied, 0, [], s⟩
def State.noMem (s : State) : Answer := ⟨stNoMem, 0, [], s⟩
def State.busy (s : State) : Answer := ⟨stBusy, 0, [], s⟩

/-- The call served next: the oldest post (R380). -/
def State.nextCall (s : State) : Option Call :=
  match s.cox.deviceq, s.cox.hostq with
  | d :: _, h :: _ => if d.order < h.order then some d else some h
  | d :: _, [] => some d
  | [], h :: _ => some h
  | [], [] => none

/-- A call taken out of the queue. -/
def State.popCall (s : State) (c : Call) : State :=
  { s with cox := { s.cox with deviceq := s.cox.deviceq.erase c, hostq := s.cox.hostq.erase c } }

/-- The privileged calls (R385, R386 table 4) and those a lock freezes (R397). -/
def privCall (n : Nat) : Bool :=
  [1, 4, 8, 9, 14, 16, 20, 21, 22, 23, 24, 25, 26, 27, 28, 29, 34, 35, 37, 38, 39, 40, 42, 43, 46, 47].contains n
def frozenCall (n : Nat) : Bool := [1, 4, 9, 14, 16, 20, 21, 34, 42, 43, 47].contains n

/-- The checks of a call before its own: CNT, the call number, the header, the poster (R382, R385, R397). -/
def State.callFault (s : State) (c : Call) (p : Poster) (b : List Byte) : Option (Nat × Nat) :=
  let cnt := BitVec.ofNat 64 (blk b 0 8)
  let badCnt := cnt != 0 && match s.packageHome cnt with
    | none => true
    | some r => (s.home r).stale cnt
  if badCnt then some (stBadCnt, 0)
  else if 48 ≤ c.number then some (stBadCall, 0)
  else if blk b 13 1 ≠ 0 then some (stBadArg, 13)
  else if blk b 14 1 ≠ 0 then some (stBadArg, 14)
  else if blk b 15 1 ≠ 0 then some (stBadArg, 15)
  else if 16 ≤ p.ctx then some (stBadArg, 12)
  else if privCall c.number && !p.priv then some (stDenied, 0)
  else if frozenCall c.number && s.boot.tdi != .unlocked then some (stDenied, 0)
  else none

/-- A call's end (R382): results, STATUS, then the add to CNT with release. -/
def State.endCall (s : State) (pa : Nat) (cxl : Bool) (cnt : DWord) (a : Answer) : State :=
  let status := bytesOf 4 (2 ^ 31 + a.off % 256 * 256 + a.code)
  let q := (a.results ++ [(8, status)]).foldl (init := (0, s)) fun (m : Nat × State) (r : Nat × List Byte) =>
    let w := m.2.unitStore (pa + r.1) cxl r.2
    (max m.1 w.1, w.2)
  if cnt = 0 ∨ a.code = stBadCnt then q.2 else q.2.loggedAdd 201 0xFF cnt q.1

/-- A call served (R382): the oldest post when its number is the row's. `f` is the call's own part. -/
def State.serveCall (s : State) (ok : Nat → Bool) (f : State → Poster → List Byte → Answer) : Result :=
  match s.nextCall with
  | none => .next s
  | some c =>
    if !ok c.number || s.boot.tdi == .error then .next s
    else
      let s1 := s.popCall c
      let raw : Poster := ⟨(c.device.map (·.1)).getD 0, c.device.map (·.1), (c.device.map (·.2)).getD true⟩
      let read := s1.posterRead raw c.block.toNat 64
      match read, s1.posterPlace raw c.block.toNat .write with
      | some b, some (pa, cxl) =>
        let p := if c.device.isSome then raw else { raw with ctx := blk b 12 1 }
        let cnt := BitVec.ofNat 64 (blk b 0 8)
        match s1.callFault c p b with
        | some (code, off) => .next (s1.endCall pa cxl cnt ⟨code, off, [], s1⟩)
        | none =>
          let a := f s1 p b
          .next (a.state.endCall pa cxl cnt a)
      | _, _ => .next (s1.event 201 2 ((c.device.map (·.1)).getD 0xFF) (bytesOf 8 c.block.toNat))

/-- A call by number. -/
def State.callOf (s : State) (n : Nat) (f : State → Poster → List Byte → Answer) : Result := s.serveCall (· == n) f

/-- BADCALL (R381, R386): a host post of number 48 to 63. -/
def execBadcall (s : State) : Result := s.serveCall (fun n => decide (48 ≤ n)) fun s _ _ => ⟨stBadCall, 0, [], s⟩

/-- A host post that is honoured: it joins the queue; a full queue or a RES0 bit drops it (R384). -/
def State.hcall (s : State) (value : BitVec 64) : State :=
  if field value.toNat 56 8 ≠ 0 then s.event 201 9 0xFF (bytesOf 8 value.toNat)
  else if 64 ≤ s.cox.hostq.length then { s with cox := { s.cox with drops := min 0xFFFF (s.cox.drops + 1) } }
  else
    let c : Call := ⟨field value.toNat 0 6, BitVec.ofNat 64 (field value.toNat 6 50 * 64), none, s.nextId⟩
    { s with nextId := s.nextId + 1, cox := { s.cox with hostq := s.cox.hostq ++ [c] } }

/-- HCALL (R384), a host write without the T bit (R398). -/
def execHcall (value : BitVec 64) (s : State) : Result := .next (s.untrusted fun s => s.hcall value)

/-! ## Calls 0 to 3: information -/

/-- INFO (R386 call 0). -/
def execInfo (s : State) : Result :=
  s.callOf 0 fun s _ _ =>
    s.done [(16, bytesOf 2 s.cox.moduleNo), (20, bytesOf 4 s.boot.fwVersion), (24, bytesOf 4 s.boot.fwSvn),
      (32, bytesOf 8 Config.deviceSerial.toNat)]

/-- Whether a system-scope counter of the module is live (R386 call 1). -/
def State.systemLive (s : State) : Bool := s.dies.any fun d => d.2.ctrs.ctrs.any fun k => k.2.live && k.2.scope == 5

/-- SETMOD (R386 call 1). -/
def execSetmod (s : State) : Result :=
  s.callOf 1 fun s _ b =>
    if 2048 ≤ blk b 16 2 then s.badArg 16
    else if s.systemLive then s.busy
    else { s with cox := { s.cox with moduleNo := blk b 16 2 } }.done []

/-- NOP (R386 call 2). -/
def execNop (s : State) : Result := s.callOf 2 fun s _ _ => s.done []

/-- PING (R386 call 3): the own module at round trip 0; another module's answer is free (log 13). -/
def execPing (s : State) : Result :=
  s.callOf 3 fun s _ b =>
    let m := blk b 16 2
    if 2048 ≤ m then s.badArg 16
    else if m = s.cox.moduleNo then s.done [(18, [0]), (24, bytesOf 8 0)]
    else
      match Config.pingRoundTrip m with
      | some t => s.done [(18, [0]), (24, bytesOf 8 t)]
      | none => s.done [(18, [1])]

/-! ## Calls 4 to 9: arenas and the stranded-line log (R387) -/

/-- A context's arena. -/
def State.arena (s : State) (x : Nat) : Arena := Cells.get ⟨0, 0, []⟩ s.cox.arenas x
def State.setArena (s : State) (x : Nat) (a : Arena) : State := { s with cox := { s.cox with arenas := Cells.put s.cox.arenas x a } }

/-- 2 MiB. -/
def mib2 : Nat := 0x200000

/-- ARENA (R386 call 4). -/
def execArena (s : State) : Result :=
  s.callOf 4 fun s _ b =>
    let x := blk b 16 1
    if 16 ≤ x then s.badArg 16
    else if blk b 24 8 % mib2 ≠ 0 then s.badArg 24
    else if blk b 32 8 % mib2 ≠ 0 then s.badArg 32
    else if !(s.arena x).allocs.isEmpty then s.busy
    else (s.setArena x ⟨blk b 24 8, blk b 32 8, []⟩).done []

/-- A number rounded up to a multiple. -/
def roundUp (v m : Nat) : Nat := (v + m - 1) / m * m

/-- The lowest aligned address with room before, between and after allocations of rising starts (R387). -/
def freeRange (align size stop : Nat) : List (Nat × Nat) → Nat → Option Nat
  | [], a => if roundUp a align + size ≤ stop then some (roundUp a align) else none
  | p :: r, a => if roundUp a align + size ≤ p.1 then some (roundUp a align) else freeRange align size stop r (max a (p.1 + p.2))

/-- ALLOC (R386 call 5, R387). -/
def execAlloc (s : State) : Result :=
  s.callOf 5 fun s p b =>
    let align := blk b 24 8
    let size := roundUp (blk b 16 8) 128
    let v := s.arena p.ctx
    if blk b 16 8 = 0 then s.badArg 16
    else if align < 128 ∨ 2 ^ 30 < align ∨ 2 ^ Nat.log2 align ≠ align then s.badArg 24
    else if 65536 ≤ v.allocs.length then s.noMem
    else
      match freeRange align size (v.base + v.size) v.allocs v.base with
      | none => s.noMem
      | some a => (s.setArena p.ctx { v with allocs := Cells.put v.allocs a size }).done [(32, bytesOf 8 a)]

/-- FREE (R386 call 6, R387). -/
def execFree (s : State) : Result :=
  s.callOf 6 fun s p b =>
    let v := s.arena p.ctx
    if (Cells.find v.allocs (blk b 16 8)).isNone then s.badArg 16
    else (s.setArena p.ctx { v with allocs := Cells.erase v.allocs (blk b 16 8) }).done []

/-- The free runs of an arena. -/
def freeRuns (stop : Nat) : List (Nat × Nat) → Nat → List Nat
  | [], a => [stop - a]
  | p :: r, a => (p.1 - a) :: freeRuns stop r (p.1 + p.2)

/-- AQUERY (R386 call 7). -/
def execAquery (s : State) : Result :=
  s.callOf 7 fun s p _ =>
    let v := s.arena p.ctx
    let runs := freeRuns (v.base + v.size) v.allocs v.base
    s.done [(16, bytesOf 8 runs.sum), (24, bytesOf 8 (runs.foldl max 0)), (32, bytesOf 4 v.allocs.length)]

/-- ARESET (R386 call 8). -/
def execAreset (s : State) : Result :=
  s.callOf 8 fun s _ b =>
    if 16 ≤ blk b 16 1 then s.badArg 16
    else (s.setArena (blk b 16 1) { s.arena (blk b 16 1) with allocs := [] }).done []

/-- SLOG (R353, R386 call 9). -/
def execSlog (s : State) : Result :=
  s.callOf 9 fun s _ b =>
    if blk b 24 8 % 256 ≠ 0 then s.badArg 24
    else { s with cox := { s.cox with slogBase := blk b 16 8, slogSize := blk b 24 8, slogUsed := 0 } }.done []

/-! ## Calls 10 to 15: counters -/

/-- CALLOC (R76, R386 call 10). -/
def execSvcCalloc (s : State) : Result :=
  s.callOf 10 fun s _ b =>
    let scope := blk b 16 1
    let h := blk b 17 1
    if scope ≠ 4 ∧ scope ≠ 5 then s.badArg 16
    else if 4 ≤ h then s.badArg 17
    else
      let home := if scope = 5 then 4 * s.cox.moduleNo + h else h
      let q := (s.die h).ctrs.alloc (s.homeSize (.die h)) scope home
      (s.setHome (.die h) q.2).done [(24, bytesOf 8 q.1.toNat)]

/-- The home of a handle a call names, live and of its generation (R73, R77). -/
def State.liveHome (s : State) (h : DWord) : Option HomeRef :=
  match s.packageHome h with
  | none => none
  | some r => if (s.home r).stale h then none else some r

/-- CFREE (R78, R386 call 11). -/
def execSvcCfree (s : State) : Result :=
  s.callOf 11 fun s _ b =>
    let h := BitVec.ofNat 64 (blk b 16 8)
    match s.liveHome h with
    | none => s.badArg 16
    | some r => (s.applyFree r h).done []

/-- CNOTIFY (R386 call 12). -/
def execCnotify (s : State) : Result :=
  s.callOf 12 fun s _ b =>
    let h := BitVec.ofNat 64 (blk b 16 8)
    match s.liveHome h with
    | none => s.badArg 16
    | some _ =>
      let id := s.cox.nextNote
      let n : Notification := ⟨id, h, blk b 24 8, BitVec.ofNat 32 (blk b 32 4)⟩
      { s with cox := { s.cox with notes := s.cox.notes ++ [n], nextNote := (id + 1) % 2 ^ 32 } }.done [(40, bytesOf 4 id)]

/-- CCANCEL (R386 call 13). -/
def execCcancel (s : State) : Result :=
  s.callOf 13 fun s _ b =>
    if s.cox.notes.any fun n => n.id == blk b 16 4 then
      { s with cox := { s.cox with notes := s.cox.notes.filter fun n => n.id != blk b 16 4 } }.done []
    else s.badArg 16

/-- COUNTER_NOTIFICATION (R386 call 12): kind 5 once the value has reached the threshold. -/
def execCounterNotification (id : Nat) (s : State) : Result :=
  match s.cox.notes.find? fun n => n.id == id with
  | none => .next s
  | some n =>
    let drop : State := { s with cox := { s.cox with notes := s.cox.notes.filter fun x => x.id != id } }
    match s.liveHome n.handle with
    | none => .next drop
    | some r =>
      if n.threshold ≤ ((s.home r).ctr (handleIndex n.handle)).value then
        .next (drop.event 201 5 0xFF (bytesOf 8 id ++ bytesOf 8 n.tag.toNat ++ bytesOf 8 n.handle.toNat))
      else .next s

/-- OVFPAGES (R74, R386 call 14). -/
def execOvfpages (s : State) : Result :=
  s.callOf 14 fun s _ b =>
    let h := blk b 16 1
    let n := blk b 18 2
    if 4 ≤ h then s.badArg 16
    else if 255 < n then s.badArg 18
    else if n < (s.die h).pages then s.busy
    else (s.modDie h fun d => { d with pages := n }).done []

/-- A counter's status word (R95). -/
def Counter.status (k : Counter) : Nat := (if k.live then 2 ^ 31 else 0) + k.scope % 8 * 2 ^ 28 + k.gen

/-- CINFO (R95, R386 call 15). -/
def execCinfo (s : State) : Result :=
  s.callOf 15 fun s _ b =>
    let h := BitVec.ofNat 64 (blk b 16 8)
    match s.packageHome h with
    | none => s.badArg 16
    | some r =>
      let k := (s.home r).ctr (handleIndex h)
      s.done [(24, bytesOf 8 k.value), (32, bytesOf 8 k.status)]

/-! ## Calls 16 to 21: events -/

/-- EVRING (R386 call 16). -/
def execEvring (s : State) : Result :=
  s.callOf 16 fun s _ b =>
    let n := blk b 24 4
    if n < 64 ∨ 2 ^ 20 < n ∨ 2 ^ Nat.log2 n ≠ n then s.badArg 24
    else
      { s with cox := { s.cox with
          ringBase := blk b 16 8, ringRecords := n, head := 0, tail := 0
          vectors := Cells.put s.cox.vectors 256 (blk b 28 1) } }.done []

/-- EVPOST (R386 call 17). -/
def execEvpost (s : State) : Result :=
  s.callOf 17 fun s p b => (s.event 201 6 p.ctx ((b.drop 16).take 32)).done []

/-- TRAPFWD (R386 call 18). -/
def execTrapfwd (s : State) : Result :=
  s.callOf 18 fun s p b =>
    match s.posterRead p (blk b 16 8) 48 with
    | none => s.badArg 16
    | some r => (s.event 201 3 p.ctx r).done []

/-- EVFLUSH (R386 call 19): served once every event raised before it is in the ring. -/
def execEvflush (s : State) : Result := if s.cox.events.isEmpty then s.callOf 19 fun s _ _ => s.done [] else .next s

/-- EVVEC (R386 call 20). -/
def execEvvec (s : State) : Result :=
  s.callOf 20 fun s _ b =>
    let v := blk b 17 1
    if 64 ≤ v ∧ v ≠ 0xFF then s.badArg 17
    else { s with cox := { s.cox with vectors := Cells.put s.cox.vectors (blk b 16 1) v } }.done []

/-- EVMASK (R386 call 21). -/
def execEvmask (s : State) : Result :=
  s.callOf 21 fun s _ b => { s with cox := { s.cox with mask := BitVec.ofNat 64 (blk b 16 8) } }.done []

/-! ## Call 22: answers to replay reports (R364, R366, R389) -/

/-- A blocked lane of a report goes on at its instruction (R364 step 4), resident or saved. -/
def Crew.retry (c : Crew) (report : Nat) : Crew :=
  { c with threads := c.threads.map fun t =>
      match t.st with
      | .replay f => if f.report = report then { t with st := .runnable } else t
      | _ => t }

/-- The lanes of a crew blocked on a report. -/
def Crew.reportLanes (c : Crew) (report : Nat) : List Nat :=
  c.lanesWith fun t => match t.st with
    | .replay f => f.report == report
    | _ => false

/-- CAUSE 5 as the EXT byte of a delivered fault (R364 step 5). -/
def Report.trap (r : Report) : Trap := { code := r.code, addr := r.addr, ext := BitVec.ofNat 8 (r.level * 16 + 5) }

/-- A report delivered to its resident lanes: each takes the fault as trappable at its instruction. -/
def State.deliverLanes (s : State) (slot : Nat) (r : Report) : State :=
  match s.crew? slot with
  | none => s
  | some c =>
    let lanes := c.reportLanes r.id
    (s.setCrew slot (c.retry r.id)).takeFaults slot s.cycle
      (lanes.map fun l =>
        match (c.thread l).st with
        | .replay f => (l, { r.trap with addr := f.addr })
        | _ => (l, r.trap))

/-- A report delivered to a saved lane, which takes the fault when it is restored: CAUSE 5 in its blocked state. -/
def Crew.creditDeliver (c : Crew) (report : Nat) : Crew :=
  { c with threads := c.threads.map fun t =>
      match t.st with
      | .replay f => if f.report = report then { t with st := .replay { f with cause := 5 } } else t
      | _ => t }

/-- The engine accesses held for a report let go again, to be made afresh (R232, R364). -/
def State.retryEngines (s : State) (id : Nat) : State :=
  let free (h : Option Nat) : Option Nat := if h = some id then none else h
  { s with
    cores := s.cores.map fun (e : Nat × Core) =>
      (e.1, { e.2 with
        copyq := e.2.copyq.map fun (q : Nat × List CopyCmd) =>
          (q.1, q.2.map fun (m : CopyCmd) => { m with held := free m.held })
        matrixq := e.2.matrixq.map fun (m : MatrixCmd) => { m with held := free m.held } })
    dies := s.dies.map fun (e : Nat × Die) =>
      (e.1, { e.2 with collq := e.2.collq.map fun (x : CollCmd) => { x with held := free x.held } }) }

/-- The engine commands held for a report stop with its fault (R232, R364). -/
def State.deliverEngines (s : State) (r : Report) : State :=
  let held (h : Option Nat) : Bool := h == some r.id
  let s1 := (s.cores.map (·.1)).foldl (init := s) fun s core =>
    let s1 := (upFrom 0 4).foldl (init := s) fun s chan =>
      match s.copyHead core chan with
      | some (m, _) => if held m.held then s.stopCopy core chan m r.trap else s
      | none => s
    match s1.matrixHead core with
    | some (m, c) => if held m.held then s1.matrixStop core m c (.fault r.trap) else s1
    | none => s1
  (s1.dies.map (·.1)).foldl (init := s1) fun s d =>
    ((s.die d).collq.filter fun x => held x.held).foldl (fun s x => s.stopColl d x r.trap) s

/-- FLTANS (R364, R366, R386 call 22, R389). -/
def execFltans (s : State) : Result :=
  s.callOf 22 fun s _ b =>
    let id := blk b 16 8
    match s.cox.reports.find? fun r => r.id == id && !r.answered with
    | none => s.badArg 16
    | some r =>
      if 1 < blk b 24 1 then s.badArg 24
      else
        let all := s.cox.reports.map fun (x : Report) => if x.id = id then { x with answered := true } else x
        let s1 := { s with cox := { s.cox with reports := all } }
        if blk b 24 1 = 0 then
          let s2 := { s1 with crews := s1.crews.map fun (e : Nat × Crew) => (e.1, e.2.retry id) }
          ((s2.modSaved fun c => c.retry id).retryEngines id).done []
        else
          let s2 := (s1.crews.map (·.1)).foldl (fun s slot => s.deliverLanes slot r) s1
          ((s2.modSaved fun c => c.creditDeliver id).deliverEngines r).done []

/-! ## Calls 23 to 27: debugging, contexts, translation -/

/-- A call that changes one context named in byte 16. -/
def State.contextCall (s : State) (b : List Byte) (f : State → Nat → State) : Answer :=
  if 16 ≤ blk b 16 1 then s.badArg 16 else (f s (blk b 16 1)).done []

/-- DBGATT (R386 call 23, R390). -/
def execDbgatt (s : State) : Result :=
  s.callOf 23 fun s _ b => s.contextCall b fun s x => s.setContext x { s.context x with debugger := true }

/-- DBGDET (R386 call 24). -/
def execDbgdet (s : State) : Result :=
  s.callOf 24 fun s _ b => s.contextCall b fun s x => s.setContext x { s.context x with debugger := false }

/-- DBGRES (R386 call 25, R390). -/
def execDbgres (s : State) : Result :=
  s.callOf 25 fun s _ b => s.contextCall b fun s x => s.setContext x { s.context x with held := false }

/-- A home without the waits of some operations. -/
def CtrHome.forget (h : CtrHome) (ops : List Nat) : CtrHome :=
  { h with waiters := h.waiters.filter fun w => match w.who with
      | .lanes op => !ops.contains op
      | _ => true }

/-- The numbers of a crew's waits. -/
def Crew.waitOps (c : Crew) : List Nat :=
  c.threads.filterMap fun t => match t.st with
    | .waitCounter w => some w.op
    | _ => none

/-- Every resident and saved crew of a context removed, with its engines' commands and its waits (R386 call 26). -/
def State.dropCrews (s : State) (x : Nat) : State :=
  let gone := s.crews.filter fun e => e.2.ctx == x
  let slots := gone.map (·.1)
  let ops := (gone.map fun e => e.2.waitOps).flatten
    ++ (s.rm.saved.map fun v => (v.crews.map fun w => if w.crew.ctx = x then w.crew.waitOps else []).flatten).flatten
  let held := (s.cores.filter fun k => k.2.ctx == some x).map (·.1)
  let s0 := held.foldl (fun s core => (upFrom 0 4).foldl (fun s chan => s.dropWaiters (.carousel core chan)) s) s
  let lost (f : EngineUnit × Nat × StepData) : Bool := match f.1 with
    | .copy k _ | .matrix k => held.contains k
    | .coll d g => !(s0.die d).collq.any fun c => c.group == g && !slots.contains c.slot
  let s1 := { s0 with
    crews := s0.crews.filter fun e => e.2.ctx != x
    cores := s0.cores.map fun (k : Nat × Core) =>
      if k.2.ctx = some x then
        let kept := (gone.filter fun e => coreOf e.1 == k.1).foldl (init := k.2.slotCtrs) fun m e =>
          Cells.put m (e.1 % 32) e.2.ctrs.ended
        (k.1, { k.2 with copyq := [], matrixq := [], streamq := [], ctrs := k.2.ctrs.forget ops, slotCtrs := kept })
      else (k.1, { k.2 with ctrs := k.2.ctrs.forget ops })
    clusters := s0.clusters.map fun (k : Nat × Cluster) => (k.1, { k.2 with ctrs := k.2.ctrs.forget ops })
    dies := s0.dies.map fun (d : Nat × Die) =>
      (d.1, { d.2 with ctrs := d.2.ctrs.forget ops, collq := d.2.collq.filter fun c => !slots.contains c.slot })
    links := { s0.links with
      pcie := s0.links.pcie.filter fun q => !slots.contains q.slot, fetched := s0.links.fetched.filter fun f => !lost f }
    rm := { s0.rm with saved := s0.rm.saved.filter (fun v => v.ctx != x), areas := s0.rm.areas.filter fun a => a.1 != x } }
  held.foldl (fun s core => s.freeCore core) s1

/-- A context ended: every grid stops, images are discarded, and, when asked, each grid's DONE add is made without
release (R386 call 26, R400). -/
def State.killContext (s : State) (x : Nat) (add : Bool) : State :=
  let grids := s.rm.grids.filter fun g => g.ctx == x
  let child (r : LaunchRecord) : Bool := match r.source with
    | .child p _ => grids.any fun g => g.serial == p
    | _ => false
  let s1 := (grids.foldl (fun s g => s.dropDeps g) s).dropCrews x
  let s2 := { s1 with rm := { s1.rm with
    grids := s1.rm.grids.filter fun g => g.ctx != x
    queues := s1.rm.queues.map fun (q : Nat × Queue) => (q.1, { q.2 with children := q.2.children.filter fun r => !child r }) } }
  if add then grids.foldl (fun s g => if g.done = 0 then s else s.loggedAdd 200 x g.done 0) s2 else s2

/-- CTXKILL (R386 call 26). -/
def execCtxkill (s : State) : Result :=
  s.callOf 26 fun s _ b => s.contextCall b fun s x => s.killContext x true

/-- TLBINV (R379, R386 call 27). -/
def execTlbinv (s : State) : Result :=
  s.callOf 27 fun s _ b => (s.invalidate (BitVec.ofNat 64 (blk b 16 8))).done []

/-! ## Calls 28 and 29: ATOMR routines (R226) -/

/-- The branch or jump offset of an RV32I word, if it is one. -/
def rvTarget (w : Nat) : Option Nat :=
  match field w 0 7 with
  | 0x63 => some (field w 8 4 * 2 + field w 25 6 * 32 + field w 7 1 * 2048 + field w 31 1 * 4096)
  | 0x6F => some (field w 21 10 * 2 + field w 20 1 * 2048 + field w 12 8 * 4096 + field w 31 1 * 1048576)
  | _ => none

/-- Whether a word at an index of a routine is one that R226 lists. -/
def rvAllowed (index w : Nat) : Bool :=
  let f3 := field w 12 3
  let f7 := field w 25 7
  let jump (limit : Nat) : Bool := match rvTarget w with
    | some off => off != 0 && decide (off < limit) && off % 4 == 0 && decide (index + off / 4 ≤ 16)
    | none => false
  match field w 0 7 with
  | 0x37 => true
  | 0x13 => if f3 = 1 then f7 == 0 else if f3 = 5 then f7 == 0 || f7 == 0x20 else true
  | 0x33 => f7 == 0 || (f7 == 0x20 && (f3 == 0 || f3 == 5))
  | 0x03 => [0, 1, 2, 4, 5].contains f3
  | 0x23 => decide (f3 < 3)
  | 0x63 => (decide (f3 < 2) || decide (4 ≤ f3)) && jump 4096
  | 0x6F => field w 7 5 == 0 && jump 1048576
  | _ => false

/-- The check of a routine at installation (R226). -/
def routineAllowed (words : List Nat) : Bool :=
  (mapFrom (fun i (w : Nat) => rvAllowed i w) 0 words).all id

/-- RTNINST (R226, R386 call 28). -/
def execRtninst (s : State) : Result :=
  s.callOf 28 fun s p b =>
    let n := blk b 18 1
    if 16 ≤ blk b 16 1 then s.badArg 16
    else if 64 ≤ blk b 17 1 then s.badArg 17
    else if n = 0 ∨ 16 < n then s.badArg 18
    else
      match s.posterRead p (blk b 24 8) (4 * n) with
      | none => s.badArg 24
      | some d =>
        let words := (upFrom 0 n).map fun i => blk d (4 * i) 4
        if routineAllowed words then
          { s with cox := { s.cox with
              routines := Cells.put s.cox.routines (64 * blk b 16 1 + blk b 17 1) (words.map (BitVec.ofNat 32)) } }.done []
        else s.badArg 24

/-- RTNDEL (R386 call 29). -/
def execRtndel (s : State) : Result :=
  s.callOf 29 fun s _ b =>
    if 16 ≤ blk b 16 1 then s.badArg 16
    else if 64 ≤ blk b 17 1 then s.badArg 17
    else
      { s with cox := { s.cox with routines := Cells.erase s.cox.routines (64 * blk b 16 1 + blk b 17 1) } }.done []

end Sys2Proof.Machine
end

