-- ==== Sys2Proof/Machine/Boot.lean ====
section
/-! DEFINITION. The boot pair: firmware images (R392), boot, recovery and reset (R391, R393, R406), measurements
and SPDM (R394, R395), and the trusted interface (R396 to R401). -/

namespace Sys2Proof.Machine

/-! ## Firmware (R392) -/

/-- Bytes of a hash. -/
def hashBytes (h : BitVec 512) : List Byte := bytesOf 64 h.toNat

/-- Whether a firmware image is accepted (R392). -/
def firmwareAccepted (minSvn : Nat) (b : List Byte) : Bool :=
  let len := blk b 12 4
  let body := (b.drop 512).take len
  let key := (b.drop 80).take 132
  blk b 0 4 == 0x485A4657 && decide (len ≤ 2 ^ 26) && decide (512 + len ≤ b.length)
    && ((b.drop 344).take 168).all (· == 0) && decide (minSvn ≤ blk b 8 4)
    && ((upFrom 0 4).any fun n => Config.keyHash n == Config.sha512 key && !Config.keyRevoked n)
    && hashBytes (Config.sha512 body) == (b.drop 16).take 64
    && Config.ecdsaVerifies key (Config.sha512 (b.take 212)) ((b.drop 212).take 132)

/-- An accepted image's header and body, over which measurement 2 is taken (R394). -/
def firmwareMeasured (b : List Byte) : BitVec 512 := Config.sha512 (b.take (512 + blk b 12 4))

/-! ## Boot and reset (R391, R393, R406) -/

/-- The period of the epochs (R406). -/
def epochPeriod : Nat := 28311552

/-- The scrub of R400: every byte and array zero, Ringmaster and Coxswain at their reset values. -/
def State.scrub (s : State) : State :=
  { s with
    mem := [], poison := [], crews := [], cores := [], clusters := [], dies := [], slices := [], msgs := []
    rm := Ringmaster.reset, cox := { Coxswain.reset with flash := s.cox.flash }
    links := { s.links with pcie := [], fetched := [] } }

/-- An accepted image: boot goes on at stage 3 (R391 to R393). -/
def State.acceptImage (s : State) (image : List Byte) : State :=
  { s with boot := { s.boot with
      stage := 0x83, recov := false, rverify := false, fwVersion := blk image 4 4, fwSvn := blk image 8 4, image := image } }

/-- Recovery mode: the staging buffer shows and XMODE is 3 (R393, R408). -/
def State.enterRecovery (s : State) : State :=
  { s with boot := { s.boot with recov := true }, rpl := { s.rpl with xmode := 3 } }

/-- Boot in a stage, or stopped at one, as IDENT shows it (R342). -/
def State.atStage (s : State) (stage : BitVec 8) : State := { s with boot := { s.boot with stage := stage } }

/-- Boot stopped at a stage, with event kind 12 (R388, R391). -/
def State.bootStop (s : State) (n : Nat) : State := (s.atStage (BitVec.ofNat 8 n)).event 202 12 0xFF [BitVec.ofNat 8 n]

/-- A stage that ran to its end, or failed: why stages 1 and 3 to 6 fail the spec does not say, so it is free (R391,
log 27). -/
def State.endStage (s : State) (n : Nat) (f : State → State) : State :=
  let s1 := { s with fresh := s.fresh + 1 }
  if Config.stageFails s.fresh then s1.bootStop n else f s1

/-- Boot stage 2 (R391, R392): slot A, then slot B; both failing leaves the device in recovery mode, as does a boot that a
warm reset began. -/
def State.readSlots (s : State) (slotA slotB : List Byte) : State :=
  if !s.boot.recov && firmwareAccepted s.boot.minSvn slotA then s.acceptImage slotA
  else if !s.boot.recov && firmwareAccepted s.boot.minSvn slotB then s.acceptImage slotB
  else s.enterRecovery.bootStop 2

/-- RESET_RELEASE (R391 to R393, R400, R406): the boot stage that IDENT shows as running ends, and the next begins; the
first, at reset release, is stage 1. Stage 3 takes measurement 2, stage 4 scrubs, and after stage 6 every window is active
and the epoch that this boot will reach is set. -/
def execResetRelease (slotA slotB : List Byte) (s : State) : Result :=
  if s.boot.thermtrip || s.boot.lockstep then .next s
  else
    match s.boot.stage.toNat with
    | 0x81 => .next (s.endStage 1 fun s => s.atStage 0x82)
    | 0x82 => .next (s.readSlots slotA slotB)
    | 0x83 => .next (s.endStage 3 fun s =>
        { s.atStage 0x84 with boot := { (s.atStage 0x84).boot with meas2 := firmwareMeasured s.boot.image, image := [] } })
    | 0x84 => .next (s.endStage 4 fun s => { s.scrub with cox := s.cox }.atStage 0x85)
    | 0x85 => .next (s.endStage 5 fun s => s.atStage 0x86)
    | 0x86 => .next (s.endStage 6 fun s =>
        ({ s with rpl := { s.rpl with epochAt := some ((s.cycle / epochPeriod + 1) * epochPeriod) } }.atStage 0).event 202 12 0xFF [0])
    | _ => .next s

/-- RVERIFY (R342, R393): written 1 in recovery mode it starts the verification of the staged image and reads 1; the
verification's end clears it, and boot goes on at stage 3 when the image passes. -/
def execRverify (s : State) : Result :=
  if !s.boot.recov || s.boot.stage ≠ 0x02 then .next s
  else if !s.boot.rverify then .next { s with boot := { s.boot with rverify := true } }
  else if firmwareAccepted s.boot.minSvn s.links.staging then .next (s.acceptImage s.links.staging)
  else .next { s with boot := { s.boot with rverify := false } }

/-- The package in reset: everything at its reset value but what lies outside it or in fuses and flash, and the
model's own fields (R391, R392). -/
def State.inReset (s : State) : State :=
  { State.reset with
    fresh := s.fresh, agenda := s.agenda, egress := s.egress, nextId := s.nextId, hostMem := s.hostMem, images := s.images
    boot := { Boot.reset with minSvn := s.boot.minSvn }
    cox := { Coxswain.reset with flash := s.cox.flash } }

/-- A warm reset into recovery (R393, R400); the pair then reruns from stage 1 with RESET_RELEASE. -/
def State.warmReset (s : State) : State := s.inReset.enterRecovery

/-- WRST (R393), a write without the T bit: dropped and logged from the lock on (R398). -/
def execWrst (s : State) : Result := .next (s.untrusted State.warmReset)

/-- PERST_ASSERT (R391): the package goes into reset, which ends a lock-step halt but not a THERMTRIP halt. -/
def execPerstAssert (s : State) : Result := if s.boot.thermtrip then .next s else .next s.inReset

/-- POWER_LOSS (R437): the package loses its state; the way out of every halt. -/
def execPowerLoss (s : State) : Result := .next s.inReset

/-- LOCKSTEP_MISMATCH (R391). -/
def execLockstepMismatch (s : State) : Result :=
  .next { s with boot := { s.boot with stage := 0xFF, lockstep := true } }

/-- FUSED_MINIMUM_RAISE (R392): the fused minimum only rises. -/
def execFusedMinimumRaise (svn : Nat) (s : State) : Result :=
  .next { s with boot := { s.boot with minSvn := max s.boot.minSvn svn } }

/-! ## Measurements and SPDM (R394, R395) -/

/-- The fuse state: key hashes, revocations, minimum SVN (R394 table 8; the order of its parts is the model's, log 42). -/
def State.fuseBytes (s : State) : List Byte :=
  ((upFrom 0 4).map fun n => hashBytes (Config.keyHash n)).flatten
    ++ ((upFrom 0 4).map fun n => if Config.keyRevoked n then 1 else 0) ++ bytesOf 4 s.boot.minSvn

/-- The boot configuration at stage 5: no overflow page, module 0, every slice map at reset (R391, R394, log 42). -/
def bootConfiguration : List Byte :=
  bytesOf 4 0 ++ bytesOf 2 0 ++ ((upFrom 0 4).map fun _ => (upFrom 0 768).map fun b => BitVec.ofNat 8 (b % 48)).flatten

/-- A measurement by index (R394 table 8). -/
def State.measurement (s : State) (n : Nat) : BitVec 512 :=
  match n with
  | 1 => Config.romMeasurement
  | 2 => s.boot.meas2
  | 3 => Config.sha512 s.fuseBytes
  | 4 => Config.sha512 bootConfiguration
  | _ => s.boot.meas5

/-- The bytes of measurements 1 to 5. -/
def State.measurements (s : State) : List Byte := ((upFrom 1 5).map fun n => hashBytes (s.measurement n)).flatten

/-- The signature of the leaf key, which measurement 2 gives with the fused secret, over a nonce and the measurements
(R386 call 45, R394). -/
def State.attest (s : State) (nonce : List Byte) : List Byte := Config.leafSign s.boot.meas2 (Config.sha512 (nonce ++ s.measurements))

/-- An SPDM answer whose body the spec does not lay out (log 42). -/
def State.spdmAnswer (s : State) : State := { s with fresh := s.fresh + 1 }.emit (.spdm (Config.spdmBody s.fresh))

/-- SPDM_REQUEST (R394, R395). -/
def execSpdmRequest (request : SpdmRequest) (s : State) : Result :=
  match request with
  | .getCapabilities | .getCertificate _ => .next s.spdmAnswer
  | .challenge nonce => .next (s.emit (.spdm (s.attest (bytesOf 32 nonce.toNat))))
  | .getMeasurement n => .next (s.emit (.spdm (hashBytes (s.measurement n))))
  | .keyExchange => .next { s.spdmAnswer with boot := { s.boot with session := true } }
  | .endSession => .next { s.spdmAnswer with boot := { s.boot with session := false } }
  | .keyIdeStream n =>
    if s.boot.session && decide (n < 4) && !s.boot.ide.contains n then
      .next { s with boot := { s.boot with ide := s.boot.ide ++ [n] } }
    else .next s

/-! ## The trusted interface (R396 to R401) -/

/-- The values of the frozen register set (R397), over which measurement 5 is taken; their order is the model's
(log 42). -/
def State.frozenSet (s : State) : List Byte :=
  let q (n : Nat) : List Byte :=
    let v := s.queue n
    bytesOf 8 ((if v.path then 512 else 0) + (if v.en then 256 else 0) + 16 * v.ctx + v.prio)
  let g (n : Nat) : List Byte :=
    let v := Cells.get (0, 0) s.rm.graphs n
    bytesOf 8 v.1 ++ bytesOf 8 v.2
  let x (n : Nat) : List Byte :=
    let v := s.context n
    bytesOf 8 v.pool ++ bytesOf 8 v.shift ++ bytesOf 8 v.pcrews ++ bytesOf 8 v.slice ++ bytesOf 8 v.trans.toNat
      ++ bytesOf 8 v.img ++ bytesOf 8 (s.arena n).base ++ bytesOf 8 (s.arena n).size
  let d (n : Nat) : List Byte :=
    bytesOf 2 (s.die n).pages ++ (upFrom 0 768).map fun b => BitVec.ofNat 8 ((s.die n).mapped b)
  ((upFrom 0 64).map q).flatten ++ ((upFrom 0 64).map g).flatten ++ ((upFrom 0 16).map x).flatten
    ++ ((upFrom 0 4).map d).flatten ++ bytesOf 2 s.cox.moduleNo ++ bytesOf 8 s.cox.slogBase ++ bytesOf 8 s.cox.slogSize
    ++ bytesOf 8 s.cox.ringBase ++ bytesOf 4 s.cox.ringRecords ++ (s.cox.vectors.map fun v => BitVec.ofNat 8 v.2)
    ++ bytesOf 8 s.cox.mask.toNat ++ bytesOf 8 s.rpl.base ++ bytesOf 1 s.rpl.mode ++ bytesOf 1 s.rpl.logres
    ++ [if s.rpl.fullact then 1 else 0] ++ bytesOf 8 s.rpl.stopcyc ++ s.cox.flash
    ++ [if s.links.atomicEnable then 1 else 0] ++ bytesOf 8 s.links.timeout ++ s.boot.ide.map (BitVec.ofNat 8)
    ++ (s.links.config.map fun r => bytesOf 8 r.1 ++ bytesOf 8 r.2.toNat).flatten

/-- A TDI state's code in events (log 9). -/
def TdiState.code : TdiState → Byte
  | .unlocked => 0
  | .locked => 1
  | .run => 2
  | .error => 3

/-- The TDI moved to a state, with event kind 13 and a response (R396). -/
def State.tdiMove (s : State) (t : TdiState) : State :=
  ({ s with boot := { s.boot with tdi := t } }.event 202 13 0xFF [t.code]).emit (.tdisp true t)

/-- An error response; nothing changes (R396). -/
def State.tdiRefuse (s : State) : State := s.emit (.tdisp false s.boot.tdi)

/-- LOCK_INTERFACE_REQUEST (R396, R397). -/
def execLockInterfaceRequest (nonce : BitVec 256) (s : State) : Result :=
  if !s.boot.session || s.boot.tdi != .unlocked || s.boot.ide.isEmpty then .next s.tdiRefuse
  else
    .next ({ s with boot := { s.boot with nonce := nonce, meas5 := Config.sha512 s.frozenSet } }.tdiMove .locked)

/-- START_INTERFACE_REQUEST (R396). -/
def execStartInterfaceRequest (nonce : BitVec 256) (s : State) : Result :=
  if !s.boot.session || s.boot.tdi != .locked || nonce != s.boot.nonce then .next s.tdiRefuse else .next (s.tdiMove .run)

/-- STOP_INTERFACE_REQUEST (R396, R400): every context ends without an add, then the scrub. -/
def execStopInterfaceRequest (s : State) : Result :=
  if !s.boot.session then .next s.tdiRefuse
  else
    let s1 := s.scrub
    .next ({ s1 with boot := { s1.boot with meas5 := 0, nonce := 0 } }.tdiMove .unlocked)

/-- The TDISP interface report (R401 table 10; its layout is the model's, log 42). -/
def State.interfaceReport (s : State) : List Byte :=
  let range (r : Nat × Nat × Nat) : List Byte := bytesOf 8 r.1 ++ bytesOf 4 r.2.1 ++ bytesOf 4 r.2.2
  ([(0, 1, 0), (0x00100000, 16, 1), (0x00200000, 256, 1), (0x00300000, 256, 1), (0x00400000, 256, 1),
    (0x200000000, 262144, 1)].map range).flatten
    ++ hashBytes s.boot.meas5 ++ bytesOf 4 s.boot.fwSvn ++ bytesOf 2 s.cox.moduleNo

/-- GET_DEVICE_INTERFACE_REPORT (R401). -/
def execGetDeviceInterfaceReport (s : State) : Result :=
  if !s.boot.session then .next s.tdiRefuse else .next (s.emit (.spdm s.interfaceReport))

/-- A TDISP error of a locked or running TDI (R396, R399). -/
def State.tdiFail (s : State) : State :=
  if s.boot.tdi == .locked || s.boot.tdi == .run then s.tdiError else s

/-- IDE_FAILURE (R395, R396): the stream is no longer keyed. -/
def execIdeFailure (stream : Nat) (s : State) : Result :=
  if s.boot.ide.contains stream then .next { s with boot := { s.boot with ide := s.boot.ide.erase stream } }.tdiFail
  else .next s

/-- FLR (R396). -/
def execFlr (s : State) : Result := .next s.tdiFail

end Sys2Proof.Machine
end

