-- ==== Sys2Proof/Machine/Services.lean ====
section
/-! DEFINITION. The Coxswain calls 30 to 47 (R386): collective groups (R252, R254), ports (R433), slice maps and
retirement (R290, R291), error counts (R429), stall sampling (R423, R426), power (R436, R437), replay and stop
(R409, R415), attestation (R394), the interface report (R401) and the spare flash slot (R392). -/

namespace Sys2Proof.Machine

/-! ## Calls 30 to 32: collective groups -/

/-- GRPDEF (R252, R386 call 30). -/
def execGrpdef (s : State) : Result :=
  s.callOf 30 fun s p b =>
    let n := blk b 20 2
    if n = 0 ∨ 4096 < n then s.badArg 20
    else
      match s.posterRead p (blk b 24 8) (4 * n) with
      | none => s.badArg 24
      | some d =>
        if (s.group? (blk b 16 4)).isSome then s.busy
        else
          let members := (upFrom 0 n).map fun i => (field (blk d (4 * i) 4) 2 11, field (blk d (4 * i) 4) 0 2)
          { s with
            cox := { s.cox with groups := s.cox.groups ++ [(⟨blk b 16 4, members⟩ : Group)] }
            dies := s.dies.map fun (e : Nat × Die) =>
              (e.1, { e.2 with collDone := e.2.collDone.filter fun k => k.1 != blk b 16 4 }) }.done []

/-- Whether a collective of a group is queued at an engine of the module. -/
def State.groupQueued (s : State) (group : Nat) : Bool :=
  (upFrom 0 4).any fun d => (s.die d).collq.any fun x => x.group == group

/-- GRPDEL (R386 call 31). -/
def execGrpdel (s : State) : Result :=
  s.callOf 31 fun s _ b =>
    if (s.group? (blk b 16 4)).isNone then s.badArg 16
    else if s.groupQueued (blk b 16 4) then s.busy
    else { s with cox := { s.cox with groups := s.cox.groups.filter fun g => g.id != blk b 16 4 } }.done []

/-- GRPCANCEL (R254, R386 call 32). -/
def execGrpcancel (s : State) : Result :=
  s.callOf 32 fun s _ b =>
    if (s.group? (blk b 16 4)).isNone then s.badArg 16
    else (s.cancelGroup (blk b 16 4) fun x => !x.started && x.seq == blk b 20 4).done []

/-! ## Calls 33 to 35: ports and slice maps -/

/-- RPORT (R386 call 33, R433). -/
def execRport (s : State) : Result :=
  s.callOf 33 fun s _ b =>
    let p := s.port (blk b 16 1)
    if 16 ≤ blk b 16 1 then s.badArg 16
    else s.done [(24, bytesOf 1 p.1), (26, bytesOf 2 p.2.1), (28, bytesOf 4 p.2.2)]

/-- A new map of a die written to every copy, to be used from an activation cycle (R290). -/
def State.setMap (s : State) (die : Nat) (map : List Nat) : State :=
  s.modDie die fun d => { d with pending := some ⟨map, (d.gen + 1) % 256, s.cycle + 1024⟩ }

/-- MAPSET (R290, R386 call 34). -/
def execMapset (s : State) : Result :=
  s.callOf 34 fun s p b =>
    if 4 ≤ blk b 16 1 then s.badArg 16
    else
      match s.posterRead p (blk b 24 8) 768 with
      | none => s.badArg 24
      | some d =>
        if d.any fun x => decide (48 ≤ x.toNat) then s.badArg 24
        else if (s.die (blk b 16 1)).pending.isSome then s.busy
        else (s.setMap (blk b 16 1) (d.map (·.toNat))).done [(32, bytesOf 8 (s.cycle + 1024))]

/-- A map with a slice's buckets given to other slices in turn (which ones is not stated: log 43). -/
def remapAway (gone : Nat) (others : List Nat) : Nat → List Nat → List Nat
  | _, [] => []
  | k, e :: r =>
    if e = gone then others.getD (k % others.length) gone :: remapAway gone others (k + 1) r
    else e :: remapAway gone others k r

/-- An atomic's effect at the home of its line, when a free value says that it took place (R291). -/
def State.maybeApplied (s : State) (q : Req) (slot : Nat) (e : Entry) : State :=
  let s1 := { s with fresh := s.fresh + 1 }
  if Config.freeByte s.fresh = 0 then s1
  else
    match e.op with
    | .atom op _ _ => ((s1.applyItems op.toNat e.size e.items).2.homeWrite e.line q.lts).2
    | .atomr n => ((s1.runRoutine (s1.routine? (s1.ownerCtx slot e.id) n) e.line e.items).2.2.homeWrite e.line q.lts).2
    | _ => s1

/-- The atomics being served at a slice that fails (R291): those its replay filter knows are answered; of the others it is
unknown whether memory holds their effect, and their lanes fault REMAPLOST. -/
def State.loseAtomics (s : State) (slice : Nat) : State :=
  let v := s.slice slice
  v.serving.foldl (init := s.setSlice slice { v with serving := [] }) fun s (x : Serving) =>
    match x.req.kind with
    | .entry slot id =>
      match s.entry? slot id with
      | none => s
      | some e =>
        match filterFind v.replay x.req.core e with
        | some f => s.answerAtom slot e f.results f.wts
        | none => (s.maybeApplied x.req slot e).failEntry slot id codeRemaplost
    | _ => s

/-- The dirty lines of a slice that fails: those that cannot be read, as a free value says of each, are poisoned at the LLC
(R291). -/
def State.loseLines (s : State) (slice : Nat) : State :=
  ((s.slice slice).lines.filter fun x => x.2.dirty && !hostLine x.1).foldl (init := s) fun s x =>
    let s1 := { s with fresh := s.fresh + 1 }
    if Config.freeByte s.fresh = 0 then s1
    else (s1.addPoison x.1).modSlice slice fun v => v.setLine x.1 { v.line x.1 with present := false, dirty := false, keep := false }

/-- SLRETIRE (R290, R291, R386 call 35). -/
def execSlretire (s : State) : Result :=
  s.callOf 35 fun s _ b =>
    let e := blk b 16 2
    let d := e / 48
    if 192 ≤ e then s.badArg 16
    else if (s.die d).pending.isSome then s.busy
    else
      let others := (upFrom 0 48).filter fun k => k != e % 48 && !(s.slice (48 * d + k)).retired
      let map := remapAway (e % 48) others 0 ((upFrom 0 768).map (s.die d).mapped)
      let s1 := ((s.modSlice e fun v => { v with retired := true }).loseAtomics e).loseLines e
      (s1.setMap d map).done [(24, bytesOf 8 (s.cycle + 1024))]

/-! ## Calls 36 and 37: error counts (R429) -/

/-- The units of a structure (R428 table 9), by the numbers of R14 and R388; which unit holds which structure is
the model's reading (log 44). -/
def rasUnits : Nat → List Nat
  | 3 | 4 => upFrom 0 192
  | 5 | 6 => upFrom 0 4
  | 8 => upFrom 0 192 ++ upFrom 205 16
  | _ => upFrom 0 192

/-- One 32-byte entry (R429). -/
def State.rasEntry (s : State) (structure_ unit : Nat) : List Byte :=
  let e := Cells.get (0, 0, 0, 0) s.fleet.ras (4096 * structure_ + unit)
  let corrected := if structure_ = 7 then min 0xFFFFFFFF (s.core unit).softErrors else e.1
  bytesOf 1 structure_ ++ [0] ++ bytesOf 2 unit ++ bytesOf 4 corrected ++ bytesOf 4 e.2.1 ++ bytesOf 4 0
    ++ bytesOf 8 e.2.2.1 ++ bytesOf 8 e.2.2.2

/-- Every (structure, unit), in order. -/
def rasOrder : List (Nat × Nat) := ((upFrom 0 9).map fun t => (rasUnits t).map fun u => (t, u)).flatten

/-- RASREAD (R386 call 36, R429). -/
def execRasread (s : State) : Result :=
  s.callOf 36 fun s p b =>
    let data := ((rasOrder.take (blk b 24 4 / 32)).map fun x => s.rasEntry x.1 x.2).flatten
    match s.posterWrite p (blk b 16 8) data with
    | some q => q.2.done []
    | none => s.badArg 16

/-- RASCLR (R386 call 37, R429). -/
def execRasclr (s : State) : Result :=
  s.callOf 37 fun s _ _ =>
    { s with
      fleet := { s.fleet with ras := [] }
      cores := s.cores.map fun (e : Nat × Core) => (e.1, { e.2 with softErrors := 0 }) }.done []

/-! ## Calls 38 and 39: stall sampling (R423, R426) -/

/-- SMPSTART (R423, R386 call 38). -/
def execSmpstart (s : State) : Result :=
  s.callOf 38 fun s _ b =>
    let base := blk b 16 8
    let size := blk b 24 4
    let period := blk b 28 4
    if base % 32 ≠ 0 ∨ dramSize ≤ base then s.badArg 16
    else if size % 32 ≠ 0 ∨ size < 64 ∨ 2 ^ 30 < size ∨ dramSize < base + size then s.badArg 24
    else if period < 16 ∨ 2 ^ 24 < period then s.badArg 28
    else if s.fleet.smpActive then s.busy
    else
      { s with fleet := { s.fleet with
          smpBase := s.cycle + 1024, smpHead := 0, smpDrop := 0, smpActive := true
          smpBuf := base, smpSize := size, smpPeriod := period, smpK := 0 } }.done []

/-- SMPSTOP (R426, R386 call 39). -/
def execSmpstop (s : State) : Result :=
  s.callOf 39 fun s _ _ =>
    { s with fleet := { s.fleet with smpActive := false } }.done [(16, bytesOf 4 s.fleet.smpDrop)]

/-! ## Calls 40 to 43: power, temperature, replay and stop -/

/-- PWRCAP (R386 call 40, R436). -/
def execPwrcap (s : State) : Result :=
  s.callOf 40 fun s _ b =>
    let w := blk b 16 4
    if w < 600 ∨ 2600 < w then s.badArg 16 else { s with fleet := { s.fleet with pwrcap := w } }.done []

/-- THERM (R386 call 41, R437): what the sensors read is not the package's state; each reading is free (log 8). -/
def execTherm (s : State) : Result :=
  s.callOf 41 fun s _ _ =>
    { s with fresh := s.fresh + 8 }.done
      [(16, ((upFrom 0 8).map fun i => bytesOf 2 (Config.sensor (s.fresh + i)).toNat).flatten)]

/-- RPLCFG (R386 call 42, R409). -/
def execRplcfg (s : State) : Result :=
  s.callOf 42 fun s _ b =>
    if 2 < blk b 24 1 then s.badArg 24
    else { s with rpl := { s.rpl with base := field (blk b 16 8) 30 22, mode := blk b 24 1 } }.done []

/-- STOPSET (R386 call 43, R415). -/
def execStopset (s : State) : Result :=
  s.callOf 43 fun s _ b => { s with rpl := { s.rpl with stopcyc := blk b 16 8, armed := true } }.done []

/-! ## Calls 44 to 47: attestation and firmware -/

/-- A result stored at a poster's address outside the block; BADARG at its offset where it cannot be. -/
def State.deliverTo (s : State) (p : Poster) (a off : Nat) (data : List Byte) : Answer :=
  match s.posterWrite p a data with
  | some q => q.2.done []
  | none => s.badArg off

/-- ATTMEAS (R386 call 44, R394). -/
def execAttmeas (s : State) : Result :=
  s.callOf 44 fun s p b =>
    let n := blk b 24 1
    if n = 0 ∨ 5 < n then s.badArg 24 else s.deliverTo p (blk b 16 8) 16 (hashBytes (s.measurement n))

/-- ATTSIGN (R386 call 45, R394). -/
def execAttsign (s : State) : Result :=
  s.callOf 45 fun s p b => s.deliverTo p (blk b 48 8) 48 (s.attest ((b.drop 16).take 32))

/-- TDIREPORT (R386 call 46, R401). -/
def execTdireport (s : State) : Result :=
  s.callOf 46 fun s p b => s.deliverTo p (blk b 16 8) 16 s.interfaceReport

/-- FWSTAGE (R386 call 47, R392). -/
def execFwstage (s : State) : Result :=
  s.callOf 47 fun s p b =>
    match s.posterRead p (blk b 16 8) (blk b 24 4) with
    | none => s.badArg 16
    | some image =>
      if firmwareAccepted s.boot.minSvn image then { s with cox := { s.cox with flash := image } }.done []
      else s.badArg 16

end Sys2Proof.Machine
end

