-- ==== Sys2Proof/Machine/Fleet.lean ====
section
/-! DEFINITION. Stall samples (R423 to R427), errors at rest and in flight (R271, R405, R428 to R430), Rolper ports
(R432 to R434), refresh (R404), power and heat (R436, R437). -/

namespace Sys2Proof.Machine

/-! ## Stall samples (R423 to R427) -/

/-- A sampled crew's reason with a runnable thread (R424). Which of ISSUED, NOTSEL and PIPEBUSY a crew that no rule
holds shows in that c depends on times the model leaves out: it is free (log 2). -/
def State.runReason (s : State) (slot : Nat) (c : Crew) (pc : Word) (lanes : List Nat) : Nat :=
  let trapped := lanes.any fun l =>
    let t := c.thread l
    t.trap && (t.trapinfo.setWidth 8 == codeWinovf || t.trapinfo.setWidth 8 == codeWinunf)
  if trapped then 6
  else
    match c.fetched with
    | none => 5
    | some (a, w) =>
      if a ≠ BitVec.ofNat 64 (c.codeAddr pc) then 5
      else
        match (decode? w).bind fun i => s.holdOf slot c lanes i with
        | some .mem => 3
        | some .eng => 4
        | some .pipe => 7
        | none => [0, 1, 7].getD ((Config.freeByte s.fresh).toNat % 3) 0

/-- The lowest lane that has not exited. -/
def Crew.lowestLane (c : Crew) : Option Nat := (c.lanesWith fun t => t.st != .exited).head?

/-- The reason of a crew with no runnable thread (R424). -/
def ThreadState.reason : ThreadState → Nat
  | .waitCounter _ => 2
  | .waitTicket .. => 4
  | _ => 3

/-- Reason, PC and number of threads in the head run (R424, R425). A crew whose runnable threads all stand outside
the table has no head run: its PC is its lowest lane's. -/
def State.sampleOf (s : State) (slot : Nat) (c : Crew) (lane : Nat) : Nat × Word × Nat :=
  let t := c.thread lane
  if c.anyRunnable then
    match c.lowestPc with
    | some pc => (s.runReason slot c pc (c.runAt pc), pc, (c.runAt pc).length)
    | none => (7, t.pc, 0)
  else (t.st.reason, t.pc, 0)

/-- A sample record (R425 table 2). -/
def State.sampleRecord (s : State) (slot : Nat) (c : Crew) (lane at' : Nat) : List Byte :=
  let r := s.sampleOf slot c lane
  let join := match c.join with
    | some p => p.toNat
    | none => 0xFFFFFFFF
  bytesOf 8 at' ++ bytesOf 4 r.2.1.toNat ++ bytesOf 4 join ++ bytesOf 4 c.grid.toNat ++ bytesOf 4 c.team
    ++ bytesOf 1 (coreOf slot) ++ bytesOf 1 (8 * (slot % 8) + subOf slot) ++ bytesOf 1 c.crew ++ bytesOf 1 r.1
    ++ bytesOf 1 c.ctx ++ bytesOf 1 r.2.2 ++ bytesOf 2 0

/-- A record stored, or dropped and counted when the buffer is full (R426). -/
def State.putSample (s : State) (data : List Byte) : State :=
  let f := s.fleet
  if f.smpSize < 32 * (f.smpHead + 1) then
    { s with fleet := { f with smpDrop := min 0xFFFFFFFF (f.smpDrop + 1) } }
  else { s.physWrite (f.smpBuf + 32 * f.smpHead) data with fleet := { f with smpHead := f.smpHead + 1 } }

/-- SAMPLE_POINT (R423): sample point k, once its c has come. -/
def execSamplePoint (s : State) : Result :=
  let f := s.fleet
  let at' := f.smpBase + f.smpK * f.smpPeriod
  if !f.smpActive || decide (s.cycle < at') then .next s
  else
    let s1 := { s with fleet := { f with smpK := f.smpK + 1 } }
    .next (s.crews.foldl (init := s1) fun s e =>
      if subOf e.1 ≠ f.smpK % 4 then s
      else
        match e.2.lowestLane with
        | none => s
        | some l => { s.putSample (s.sampleRecord e.1 e.2 l at') with fresh := s.fresh + 1 })

/-! ## Errors (R271, R405, R428 to R430) -/

/-- The set of a slice around a line (the set index is free, log 7): its dirty lines are poisoned, all its ways dropped. -/
def State.dropSet (s : State) (slice line : Nat) : State :=
  let v := s.slice slice
  let set := l2Set line
  let hit (l : Nat) : Bool := l2Set l == set
  let dirty := (v.lines.filter fun e => hit e.1 && e.2.present && e.2.dirty).map (·.1)
  let lines := v.lines.map fun (e : Nat × LineMeta) =>
    (e.1, if hit e.1 && e.2.present then { LineMeta.absent with wts := e.2.wts, rts := e.2.rts } else e.2)
  dirty.foldl State.addPoison (s.setSlice slice { v with
    lines := lines, copies := v.copies.filter fun e => !hit e.1
    ways := { v.ways with held := v.ways.held.filter fun e => e.1 / 16 != set } })

/-- An uncorrectable error in its structure (R428 table 9). -/
def State.strike (s : State) : ErrorSite → State
  | .register slot lane =>
    (s.modCrew slot fun c => { c with badLanes := if c.badLanes.contains lane then c.badLanes else c.badLanes ++ [lane] }).countError
      0 (coreOf slot) false
  | .deckWord core off => (s.modCore core fun k => { k with badDeck := k.badDeck ++ [off / 8 * 8] }).countError 1 core false
  | .operandWord core off => (s.modCore core fun k => { k with badObuf := k.badObuf ++ [off / 8 * 8] }).countError 1 core false
  | .accumulatorWord core index =>
    (s.modCore core fun k => { k with badAcc := k.badAcc ++ [index / 2 * 8] }).countError 1 core false
  | .l1Line core line =>
    (s.modCore core fun k => { k with l1 := Cells.erase k.l1 line, icache := Cells.erase k.icache line }).countError 2 core true
  | .cacheData line => (s.addPoison (lineOf line)).countError 3 (s.homeSlice line) false
  | .cacheTags slice line => ((s.dropSet slice line).countError 4 slice false).event (192 + slice / 48) 15 0xFF (bytesOf 8 slice)
  | .counterSram die index =>
    (s.applyFree (.die die) (handleOf 4 die index 0)).countError 5 die false
  | .dramLine line => (s.addPoison (lineOf line)).countError 6 (homeDie line) false
  | .streamBit slot reg lane bit =>
    s.modCrew slot fun c =>
      let v := c.stream reg
      let w := (lane, bit / 32)
      let bad := if v.bad.contains w then v.bad.erase w else v.bad ++ [w]
      let flipped := v.lane lane ^^^ ((1 : BitVec 1024) <<< bit)
      { c with streams := setAt c.streams reg { v with bad := bad, lanes := Cells.set 0 v.lanes lane flipped } }
  | .packet core id =>
    match (s.slices.findSome? fun e => e.2.ingress.find? fun q => q.id == id && q.core == core) with
    | some q => (s.addPoison q.line).countError 8 core false
    | none =>
      match Cells.find s.msgs id with
      | some (.load slot lid _) =>
        match (s.crew? slot).bind fun c => c.loads.find? fun l => l.id == lid with
        | some l => { (s.addPoison l.line).countError 8 core false with msgs := Cells.put s.msgs id (.load slot lid .poison) }
        | none => s
      | _ => s

/-- The structure and unit an error site is counted under (R429, log 44). -/
def State.siteUnit (s : State) : ErrorSite → Nat × Nat
  | .register slot _ => (0, coreOf slot)
  | .deckWord core _ | .operandWord core _ | .accumulatorWord core _ => (1, core)
  | .l1Line core _ => (2, core)
  | .cacheData line => (3, s.homeSlice line)
  | .cacheTags slice _ => (4, slice)
  | .counterSram die _ => (5, die)
  | .dramLine line => (6, homeDie line)
  | .streamBit slot _ _ _ => (7, coreOf slot)
  | .packet core _ => (8, core)

/-- SOFT_ERROR (R271, R405, R428): corrected and counted, a packet being sent again (R287); or uncorrectable. A
stream bit has parity only: it is counted when the word is read. -/
def execSoftError (site : ErrorSite) (corrected : Bool) (s : State) : Result :=
  match site, corrected with
  | .streamBit .., _ => .next (s.strike site)
  | .packet core id, true => execNack core id (s.countError 8 core true)
  | _, true => .next (s.countError (s.siteUnit site).1 (s.siteUnit site).2 true)
  | _, false => .next (s.strike site)

/-! ## Rolper ports (R432 to R434) -/

/-- FLIT_CRC_RESEND (R432): the flit is resent and counted as a corrected error of the port. -/
def execFlitCrcResend (port : Nat) (s : State) : Result :=
  let p := s.port port
  let s1 := { s with fleet := { s.fleet with ports := Cells.put s.fleet.ports port (p.1, p.2.1, p.2.2 + 1) } }
  .next ((s1.countError 8 (205 + port) true).emit (.nackFlit port))

/-- Whether a group's traffic from an own member to another module's uses a port (R434). -/
def State.usesPort (s : State) (g : Group) (port : Nat) : Bool :=
  let ranked := mapFrom (fun r (m : Nat × Nat) => (r, m)) 0 g.members
  ranked.any fun own => own.2.1 == s.cox.moduleNo
    && ranked.any fun far => far.2.1 != s.cox.moduleNo && 4 * far.2.2 + own.1 % 4 == port

/-- PORT_STATE_CHANGE (R254, R433, R434): a port that is no longer UP stops the started collectives that use it. -/
def execPortStateChange (port state peer : Nat) (s : State) : Result :=
  let p := s.port port
  let s1 := { s with fleet := { s.fleet with ports := Cells.put s.fleet.ports port (state, peer, p.2.2) } }
  if state = 2 ∨ state = 3 then .next s1
  else
    .next ((s1.cox.groups.filter fun g => s1.usesPort g port).foldl (fun s g => s.cancelGroup g.id fun x => x.started && !x.done) s1)

/-! ## Memory refresh, power and heat (R404, R436, R437) -/

/-- LPDDR_REFRESH (R404): one more refresh of an M-die's memory; it changes no byte. -/
def execLpddrRefresh (mdie : Nat) (s : State) : Result :=
  .next { s with fleet := { s.fleet with
    refreshes := Cells.put s.fleet.refreshes mdie (Cells.get 0 s.fleet.refreshes mdie + 1) } }

/-- POWER_WINDOW (R436): how many reference periods of later windows the clock stands still. %CYCLE stands with it. -/
def execPowerWindow (meanWatts : Nat) (s : State) : Result :=
  let n := s.fleet.stopped
  let n1 := if s.fleet.pwrcap < meanWatts then min 200 (n + 8)
    else if 100 * meanWatts < 95 * s.fleet.pwrcap then n - 8 else n
  .next { s with fleet := { s.fleet with stopped := n1 } }

/-- THERMAL_STOP (R437): a sensor at 105 °C, in 0.125 °C. -/
def execThermalStop (temps : List Int) (s : State) : Result :=
  if s.fleet.clockStopped || !(temps.any fun t => decide (840 ≤ t)) then .next s
  else .next ({ s with fleet := { s.fleet with clockStopped := true } }.event 221 14 0xFF [0])

/-- THERMAL_RESTART (R437): every sensor at 100 °C or less. -/
def execThermalRestart (temps : List Int) (s : State) : Result :=
  if !s.fleet.clockStopped || temps.any fun t => decide (800 < t) then .next s
  else .next ({ s with fleet := { s.fleet with clockStopped := false } }.event 221 14 0xFF [1])

/-- THERMTRIP (R437): the device halts without a save. -/
def execThermtrip (s : State) : Result :=
  .next ({ s with boot := { s.boot with thermtrip := true } }.emit .thermtrip)

end Sys2Proof.Machine
end

