-- ==== Sys2Proof/Machine/Turnstile.lean ====
section
/-! DEFINITION. The Turnstiles and the replay block: the replay log and its records (R410 to R413), egress digests
(R414), start points (R406), freezing (R415), scan images (R417 to R420), execution mode and replay registers
(R408, R409) and the alignment of modules (R421). -/

namespace Sys2Proof.Machine

/-! ## CRC-32C -/

/-- One bit of a reflected CRC-32C (polynomial 0x1EDC6F41). -/
def crcBit (r : Word) : Word := if r.getLsbD 0 then (r >>> 1) ^^^ 0x82F63B78 else r >>> 1

/-- One byte of a CRC-32C. -/
def crcByte (r : Word) (b : Byte) : Word :=
  crcBit (crcBit (crcBit (crcBit (crcBit (crcBit (crcBit (crcBit (r ^^^ b.setWidth 32))))))))

/-- A CRC-32C carried on over further bytes: the CRC of what came before to the CRC of all. -/
def crcMore (c : Word) (l : List Byte) : Word := ~~~(l.foldl crcByte (~~~c))

/-- CRC-32C of bytes. -/
def crc32c (l : List Byte) : Word := crcMore 0 l

/-! ## An access as a log payload (R411; the payload's layout is the model's, log 45) -/

/-- A flag as a byte. -/
def flagByte (b : Bool) : Byte := if b then 1 else 0

/-- A signed number as eight bytes. -/
def intBytes (i : Int) : List Byte := bytesOf 8 (BitVec.ofInt 64 i).toNat

/-- A peer's counter operation as bytes: its kind, and its operand or 0. -/
def peerBytes : PeerOp → List Byte
  | .addr i => 0 :: bytesOf 8 i.toNat
  | .free => 1 :: bytesOf 8 0
  | .read => 2 :: bytesOf 8 0
  | .test t => 3 :: bytesOf 8 t.toNat
  | .wait t => 4 :: bytesOf 8 t.toNat

/-- The peer's counter operation of a kind and operand. -/
def peerOf (kind v : Nat) : PeerOp :=
  match kind with
  | 0 => .addr (BitVec.ofNat 32 v)
  | 1 => .free
  | 2 => .read
  | 3 => .test (BitVec.ofNat 64 v)
  | _ => .wait (BitVec.ofNat 64 v)

/-- The payload of an arrival's record. -/
def accessPayload : Access → List Byte
  | .bar0Read off tee => [0, flagByte tee] ++ bytesOf 8 off
  | .bar0Write off value tee => [1, flagByte tee] ++ bytesOf 8 off ++ bytesOf 8 value.toNat
  | .bar2Read off tee => [2, flagByte tee] ++ bytesOf 8 off
  | .bar2Write off value tee => [3, flagByte tee] ++ bytesOf 8 off ++ bytesOf 8 value.toNat
  | .hdmRead addr size => [4, 0] ++ bytesOf 8 addr ++ bytesOf 8 size
  | .hdmWrite addr data => [5, 0] ++ bytesOf 8 addr ++ data
  | .snoopCur line => [6, 0] ++ bytesOf 8 line
  | .snoopData line => [7, 0] ++ bytesOf 8 line
  | .snoopInv line => [8, 0] ++ bytesOf 8 line
  | .completion id ok data => [9, flagByte ok] ++ bytesOf 8 id ++ data
  | .peerAdd handle inc => [10, 0] ++ bytesOf 8 handle.toNat ++ bytesOf 4 inc.toNat
  | .peerCollective group seq rank kind block data =>
    [11, 0] ++ bytesOf 8 group ++ bytesOf 8 seq ++ bytesOf 8 rank ++ bytesOf 8 kind ++ bytesOf 8 block.length ++ block ++ data
  | .portState port state peer => [12, 0] ++ bytesOf 8 port ++ bytesOf 8 state ++ bytesOf 8 peer
  | .sync t1 => [13, 0] ++ intBytes t1
  | .dreq t4 => [14, 0] ++ intBytes t4
  | .raiseSvn svn => [15, 0] ++ bytesOf 8 svn
  | .peerOp op handle id => [16, 0] ++ bytesOf 8 handle.toNat ++ bytesOf 8 id ++ peerBytes op
  | .deviceControl2 value => [17, 0] ++ bytesOf 8 value.toNat
  | .configWrite reg value => [18, 0] ++ bytesOf 8 reg ++ bytesOf 8 value.toNat

/-- The access of a record's payload. -/
def accessOf (b : List Byte) : Option Access :=
  let a := blk b 2 8
  let v := BitVec.ofNat 64 (blk b 10 8)
  let f := blk b 1 1 != 0
  match blk b 0 1 with
  | 0 => some (.bar0Read a f)
  | 1 => some (.bar0Write a v f)
  | 2 => some (.bar2Read a f)
  | 3 => some (.bar2Write a v f)
  | 4 => some (.hdmRead a (blk b 10 8))
  | 5 => some (.hdmWrite a (b.drop 10))
  | 6 => some (.snoopCur a)
  | 7 => some (.snoopData a)
  | 8 => some (.snoopInv a)
  | 9 => some (.completion a f (b.drop 10))
  | 10 => some (.peerAdd (BitVec.ofNat 64 a) (BitVec.ofNat 32 (blk b 10 4)))
  | 11 =>
    let n := blk b 34 8
    some (.peerCollective a (blk b 10 8) (blk b 18 8) (blk b 26 8) ((b.drop 42).take n) (b.drop (42 + n)))
  | 12 => some (.portState a (blk b 10 8) (blk b 18 8))
  | 13 => some (.sync (BitVec.ofNat 64 a).toInt)
  | 14 => some (.dreq (BitVec.ofNat 64 a).toInt)
  | 15 => some (.raiseSvn a)
  | 16 => some (.peerOp (peerOf (blk b 18 1) (blk b 19 8)) (BitVec.ofNat 64 a) (blk b 10 8))
  | 17 => some (.deviceControl2 (BitVec.ofNat 16 a))
  | 18 => some (.configWrite a v)
  | _ => none

/-! ## The replay log (R410 to R413) -/

/-- Recording and replaying, since the latest start point (R409). -/
def State.recording (s : State) : Bool := s.rpl.active && s.rpl.curMode == 1
def State.replaying (s : State) : Bool := s.rpl.active && s.rpl.curMode == 2

/-- Size of the log region (R409 BASE). -/
def logRegion : Nat := 2 ^ 34

/-- A record's bytes (R411 table 3): header, check, payload padded to 16 bytes. -/
def logRecord (cycle source kind : Nat) (payload : List Byte) : List Byte :=
  let h := bytesOf 8 cycle ++ bytesOf 1 source ++ bytesOf 1 kind ++ bytesOf 2 payload.length
  h ++ bytesOf 4 (crc32c (h ++ payload)).toNat ++ payload ++ List.replicate ((16 - payload.length % 16) % 16) 0

/-- The package frozen in the next even c with a cause (R415, R412, R414). -/
def State.freezeNow (s : State) (cause : Nat) : State :=
  if s.rpl.frozen then s
  else
    { s with
      cycle := s.cycle + s.cycle % 2
      rpl := { s.rpl with frozen := true, cause := cause, scannedIn := false } }

/-- The log is full (R412): recording stops, or the package freezes. -/
def State.logFull (s : State) : State :=
  let s1 := { s with rpl := { s.rpl with full := true } }
  if s.rpl.fullact then s1.freezeNow 2 else { s1 with rpl := { s1.rpl with active := false } }

/-- A record appended at HEAD in record mode (R412). -/
def State.logAppend (s : State) (cycle source kind : Nat) (payload : List Byte) : State :=
  if !s.recording then s
  else
    let r := logRecord cycle source kind payload
    if logRegion < s.rpl.head + r.length then s.logFull
    else
      let s1 := s.physWrite (s.rpl.base * 2 ^ 30 + s.rpl.head) r
      let s2 := { s1 with rpl := { s1.rpl with head := s1.rpl.head + r.length } }
      if s2.rpl.head = logRegion then s2.logFull else s2

/-- A record of the log as it is read back. -/
structure LogView where
  cycle : Nat
  source : Nat
  kind : Nat
  payload : List Byte
  /-- Bytes it takes in the log. -/
  size : Nat

/-- The record at an offset of the log. -/
def State.logAt (s : State) (off : Nat) : LogView :=
  let a := s.rpl.base * 2 ^ 30 + off
  let h := s.mem.read a 16
  let n := blk h 10 2
  ⟨blk h 0 8, blk h 8 1, blk h 9 1, s.mem.read (a + 16) n, 16 + (n + 15) / 16 * 16⟩

/-- The egress digest that the log holds for a source and cycle, sought from an offset over a number of records. -/
def State.logDigest (s : State) (source cycle : Nat) : Nat → Nat → Option Word
  | 0, _ => none
  | n + 1, off =>
    let r := s.logAt off
    if r.kind = 3 ∧ r.source = source ∧ r.cycle = cycle then some (BitVec.ofNat 32 (natOf r.payload))
    else if cycle < r.cycle ∨ r.source = 0 then none
    else State.logDigest s source cycle n (off + r.size)

/-! ## Egress digests (R414) -/

/-- The source whose Turnstile an egress item leaves by (R388, R414; ports, log 45). -/
def Egress.source (moduleNo : Nat) : Egress → Nat
  | .reply n _ | .data n _ _ | .unsupported n => n
  | .snoopMiss | .snoopState | .snoopBytes _ => 204
  | .peerAdd _ h _ | .peerOp _ _ h _ => 205 + 4 * field h.toNat 48 2 + handleIndex h % 4
  | .peerReply _ | .peerAnswer .. => 205
  | .collective m die _ => 205 + 4 * (die % 4) + (if m = moduleNo then 0 else 1)
  | .sync _ | .dreq => 205
  | .nackFlit port => 205 + port
  | .thermtrip => 221
  | .pcieRead .. | .pcieWrite .. | .pcieAtomic .. | .pcieFlush | .msix _ | .spdm _ | .tdisp .. | .image .. => 203

/-- An egress item's bytes, over which the digest runs (the model's serialisation, log 45). -/
def Egress.bytes : Egress → List Byte
  | .reply _ v => 0 :: bytesOf 8 v.toNat
  | .data _ b p => 1 :: flagByte p :: b
  | .unsupported _ => [2]
  | .pcieRead _ a => 3 :: bytesOf 8 a
  | .pcieWrite a b => 4 :: bytesOf 8 a ++ (b.map fun x => [BitVec.ofNat 8 x.1, x.2]).flatten
  | .pcieAtomic _ a op w v v2 => 5 :: bytesOf 8 a ++ [BitVec.ofNat 8 op, flagByte w] ++ bytesOf 8 v.toNat ++ bytesOf 8 v2.toNat
  | .pcieFlush => [6]
  | .snoopMiss => [7]
  | .snoopState => [8]
  | .snoopBytes b => 9 :: b
  | .msix v => 10 :: bytesOf 2 v
  | .peerAdd m h i => 11 :: bytesOf 2 m ++ bytesOf 8 h.toNat ++ bytesOf 4 i.toNat
  | .peerReply f => 12 :: bytesOf 1 f
  | .collective m d b => 13 :: bytesOf 2 m ++ bytesOf 1 d ++ b
  | .spdm b => 14 :: b
  | .tdisp ok t => [15, flagByte ok, t.code]
  | .image a b => 16 :: bytesOf 8 a ++ b
  | .sync t => 17 :: intBytes t
  | .dreq => [18]
  | .thermtrip => [19]
  | .nackFlit p => 20 :: bytesOf 1 p
  | .peerOp m op h lts => 21 :: bytesOf 2 m ++ peerBytes op ++ bytesOf 8 h.toNat ++ bytesOf 8 lts
  | .peerAnswer id fault value lts => 22 :: bytesOf 8 id ++ bytesOf 1 fault ++ bytesOf 8 value ++ bytesOf 8 lts

/-- One egress item taken into its source's digest. -/
def State.digestItem (s : State) (e : Egress) : State :=
  let n := e.source s.cox.moduleNo
  { s with rpl := { s.rpl with digests := Cells.put s.rpl.digests n (crcMore (Cells.get 0 s.rpl.digests n) e.bytes) } }

/-- What left the package since the last step taken into the digests; in replay it is then discarded (R413, R414). -/
def State.digestEgress (s : State) : State :=
  let fresh := s.egress.drop s.rpl.taken
  match fresh with
  | [] => s
  | _ =>
    let s1 := fresh.foldl State.digestItem s
    let kept := if s.replaying then s.egress.take s.rpl.taken else s.egress
    { s1 with egress := kept, rpl := { s1.rpl with taken := kept.length } }

/-- What the boot pair sends for itself, outside the digests: the arrivals of R407 do not ask for it (R409, R417). -/
def State.emitAside (s : State) (e : Egress) : State :=
  let s1 := s.digestEgress
  { s1 with egress := s1.egress ++ [e], rpl := { s1.rpl with taken := s1.egress.length + 1 } }

/-- Cycles between digest checks (R414). -/
def digestPeriod : Nat := 2 ^ 20

/-- A divergence (R414). -/
def State.diverged (s : State) (cycle : Nat) : State :=
  { s with rpl := { s.rpl with diverge := true, dcycle := if s.rpl.diverge then s.rpl.dcycle else cycle } }.freezeNow 3

/-- EGRESS_DIGEST_CHECK (R414): the next check of a source, once its cycle has come. -/
def execEgressDigestCheck (source : Nat) (s : State) : Result :=
  let k := Cells.get 0 s.rpl.checks source + 1
  let rel := k * digestPeriod
  if !s.rpl.active || s.cycle < s.rpl.epoch + rel then .next s
  else
    let crc := Cells.get 0 s.rpl.digests source
    let s1 := { s with rpl := { s.rpl with checks := Cells.put s.rpl.checks source k } }
    if s.recording then .next (s1.logAppend rel source 3 (bytesOf 4 crc.toNat))
    else if s.replaying && s.logDigest source rel (2 ^ 16) s.rpl.head != some crc then .next (s1.diverged (s.rpl.epoch + rel))
    else .next s1

/-! ## Start points (R402, R406, R417) -/

/-- A start point: EPOCH, the modes that waited for it, and the log's start marker (R409, R411, R412). -/
def State.startPoint (s : State) (cycle kind : Nat) (crc : Word) : State :=
  let r := s.rpl
  { s with rpl := { r with
      epoch := cycle, epochAt := none, curMode := r.mode, curLogres := r.logres, active := r.mode != 0
      head := 0, checks := [], stamped := (cycle, 0) } }.logAppend 0 203 2 (bytesOf 8 kind ++ bytesOf 8 crc.toNat)

/-- Caches emptied, replacement trees and round-robin pointers at their reset values (R406); a dirty host-homed
line is written back first. -/
def State.flushCaches (s : State) : State :=
  let dirty := (s.slices.map fun e => (e.2.lines.filter fun l => hostLine l.1 && l.2.present && l.2.dirty).map (·.1)).flatten
  let s1 := dirty.foldl State.writeBack s
  { s1 with
    slices := s1.slices.map fun (e : Nat × Slice) => (e.1, { e.2 with lines := [], copies := [], ways := Ways.reset })
    dies := s1.dies.map fun (e : Nat × Die) => (e.1, { e.2 with tlb := Tlb.reset, llc := Ways.reset, llcDirty := [] })
    cores := s1.cores.map fun (e : Nat × Core) =>
      (e.1, { e.2 with
        l1 := [], l1ways := Ways.reset, icache := [], tlb := Tlb.reset
        subcores := e.2.subcores.map fun (j : Nat × Subcore) => (j.1, { j.2 with lastSent := Subcore.reset.lastSent }) }) }

/-- EPOCH (R406): the first multiple of the period after boot stage 6; every cache and logical time is at its reset
value. -/
def execEpoch (s : State) : Result :=
  match s.rpl.epochAt with
  | none => .next s
  | some e =>
    if s.cycle < e then .next s
    else
      let s1 := s.flushCaches
      .next ({ s1 with
        rpl := { s1.rpl with digests := [] }, links := { s1.links with hostTime := 0 }
        crews := s1.crews.map fun (c : Nat × Crew) => (c.1, { c.2 with lts := 0 }) }.startPoint e 0 0)

/-! ## Freezing (R415, R416) -/

/-- FREEZE (R415): before the first even c at or after STOPCYC. -/
def execFreeze (s : State) : Result :=
  if !s.rpl.armed || s.rpl.frozen || decide (s.cycle < s.rpl.stopcyc) then .next s
  else
    let s1 := s.freezeNow 1
    .next { s1 with rpl := { s1.rpl with armed := false } }

/-! ## Registers of the block (R408, R409, R420) -/

/-- XMODE written (R408). -/
def State.setXmode (s : State) (value : BitVec 64) : State := { s with rpl := { s.rpl with xmode := field value.toNat 0 2 } }

/-- XMODE_WRITE (R408, R398). -/
def execXmodeWrite (value : BitVec 64) (s : State) : Result := .next (s.untrusted fun s => s.setXmode value)

/-- RPLCTL written (R409): a LOGRES above 32 or MODE 3 makes the write ignored. -/
def State.setRplctl (s : State) (value : BitVec 64) : State :=
  let v := value.toNat
  if 32 < field v 8 8 ∨ field v 0 2 = 3 then s
  else { s with rpl := { s.rpl with mode := field v 0 2, logres := field v 8 8, fullact := v.testBit 2 } }

/-- RPLCTL_WRITE (R409, R420). -/
def execRplctlWrite (value : BitVec 64) (s : State) : Result := .next (s.frozenWrite fun s => s.setRplctl value)

/-- STOPCYC written (R409, R415). -/
def State.setStopcyc (s : State) (value : BitVec 64) : State :=
  { s with rpl := { s.rpl with stopcyc := value.toNat, armed := true } }

/-- RPLCTL as it reads (R409). -/
def Replay.rplctl (r : Replay) : Nat := 256 * r.logres + (if r.fullact then 4 else 0) + r.mode

/-! ## Scan images (R417 to R420) -/

/-- The code that keeps a SCANCMD operation from starting (R417, R420). -/
def State.scanFault (s : State) : Option Nat :=
  if s.boot.tdi != .unlocked then some 6
  else if !s.rpl.frozen then some 1
  else if s.rpl.scanBusy then some 2
  else none

/-- CODE set at once, with nothing else happening. -/
def State.scanRefuse (s : State) (code : Nat) : State := { s with rpl := { s.rpl with scanCode := code } }

/-- An operation under way, with what it will report (R417). -/
def State.scanStart (s : State) (code : Nat) (crc : Word) : State :=
  { s with rpl := { s.rpl with scanBusy := true, scanNext := (code, crc) } }

/-- Free bytes by number. -/
def freeBytes (n : Nat) : Nat → List Byte
  | 0 => []
  | k + 1 => Config.freeByte n :: freeBytes (n + 1) k

/-- The device lines that a slice or an LLC holds newer than LPDDR-5X (R418). -/
def State.dirtyLines (s : State) : List Nat :=
  (s.slices.map fun e => (e.2.lines.filter fun l => !hostLine l.1 && l.2.dirty).map (·.1)).flatten
    ++ (s.dies.map fun d => d.2.llcDirty).flatten

/-- The scanned state (R418), before its sums are known. -/
def State.scanned (s : State) : Image where
  addr := 0
  serial := Config.deviceSerial
  cycle := s.cycle
  epoch := s.rpl.epoch
  crc := 0
  directory := []
  crews := s.crews
  cores := s.cores
  clusters := s.clusters
  dies := s.dies
  slices := s.slices
  msgs := s.msgs
  rm := s.rm
  cox := s.cox
  fleet := s.fleet
  ticks := s.ticks
  pcie := s.links.pcie
  arrivals := s.rpl.arrivals
  digests := s.rpl.digests
  checks := s.rpl.checks
  dirty := s.dirtyLines.map fun l => (l, s.mem.read l 128)
  poison := s.dirtyLines.filter s.poisoned
  fetched := s.links.fetched
  hostTime := s.links.hostTime

/-- The header's stated fields (R418). -/
def State.scanHeader (s : State) : List Byte :=
  bytesOf 4 0x485A5343 ++ bytesOf 4 Config.scanVersion.toNat ++ bytesOf 8 Config.deviceSerial.toNat ++ bytesOf 8 s.cycle
    ++ bytesOf 8 s.rpl.epoch ++ bytesOf 8 s.rpl.rplctl ++ bytesOf 8 s.rpl.head ++ bytesOf 8 s.rpl.xmode

/-- SCAN_OUT (R417, R418, R420): equal images have equal sums; otherwise the directory and the CRC are free. -/
def execScanOut (haddr : Nat) (s : State) : Result :=
  match s.scanFault with
  | some c => .next (s.scanRefuse c)
  | none =>
    if !s.links.pup then .next (s.scanStart 3 s.rpl.scanCrc)
    else
      let i := s.scanned
      let same (x : Image) : Bool := { x with addr := 0, crc := 0, directory := [] } == i
      let image := match s.images.find? same with
        | some x => { x with addr := haddr }
        | none => { i with addr := haddr, crc := (Config.freeWord s.fresh).setWidth 32, directory := freeBytes s.fresh 80 }
      let host := (s.hostMem.write haddr s.scanHeader).write (haddr + 64) image.directory
      let s1 := { s with
        fresh := s.fresh + 80, hostMem := host
        images := image :: s.images.filter fun x => x.addr != haddr }
      .next ((s1.emitAside (.image haddr s.scanHeader)).scanStart 0 image.crc)

/-- Clean lines refilled from the level below (R419). -/
def State.refillLines (s : State) : State :=
  let s1 := { s with slices := s.slices.map fun (e : Nat × Slice) =>
    (e.1, { e.2 with lines := e.2.lines.map fun (l : Nat × LineMeta) =>
      (l.1, if hostLine l.1 && l.2.present && !l.2.dirty then { l.2 with data := s.hostBytes l.1 } else l.2) }) }
  { s1 with
    slices := s1.slices.map fun (e : Nat × Slice) =>
      (e.1, { e.2 with copies := e.2.copies.map fun (l : Nat × LineCopy) => (l.1, { l.2 with data := s1.lineBytes l.1 }) })
    cores := s1.cores.map fun (e : Nat × Core) =>
      (e.1, { e.2 with
        l1 := e.2.l1.map fun (l : Nat × LineCopy) => (l.1, { l.2 with data := s1.lineBytes l.1 })
        icache := e.2.icache.map fun (l : Nat × List Byte) => (l.1, s1.lineBytes l.1) }) }

/-- An image's state loaded (R419). -/
def State.loadScan (s : State) (i : Image) : State :=
  let s1 := { s with
    cycle := i.cycle, ticks := i.ticks, crews := i.crews, cores := i.cores, clusters := i.clusters, dies := i.dies
    slices := i.slices, msgs := i.msgs, rm := i.rm, cox := { i.cox with flash := s.cox.flash }
    fleet := { i.fleet with clockStopped := s.fleet.clockStopped }
    links := { s.links with pcie := i.pcie, fetched := i.fetched, hostTime := i.hostTime }
    poison := s.poison.filter (fun l => !i.dirty.any fun d => d.1 == l) ++ i.poison
    mem := i.dirty.foldl (fun (m : Memory) (d : Nat × List Byte) => m.write d.1 d.2) s.mem
    rpl := { s.rpl with
      arrivals := i.arrivals, digests := i.digests, checks := i.checks, scannedIn := true
      armed := decide (i.cycle < s.rpl.stopcyc), epochAt := none } }
  s1.refillLines

/-- The check of an image (R419): the code of a refusal. -/
def State.imageFault (s : State) (haddr : Nat) : Option Nat :=
  let h := s.hostMem.read haddr 16
  if blk h 0 4 ≠ 0x485A5343 ∨ blk h 4 4 ≠ Config.scanVersion.toNat ∨ !(s.images.any fun x => x.addr == haddr) then some 4
  else if blk h 8 8 ≠ Config.deviceSerial.toNat then some 5
  else none

/-- SCAN_IN (R417, R419, R420). -/
def execScanIn (haddr : Nat) (s : State) : Result :=
  match s.scanFault with
  | some c => .next (s.scanRefuse c)
  | none =>
    if !s.links.pup then .next (s.scanStart 3 s.rpl.scanCrc)
    else
      match s.imageFault haddr, s.images.find? fun x => x.addr == haddr with
      | none, some i => .next ((s.loadScan i).scanStart 0 i.crc)
      | some c, some i => .next (s.scanStart c i.crc)
      | some c, none => .next ({ s with fresh := s.fresh + 1 }.scanStart c ((Config.freeWord s.fresh).setWidth 32))
      | none, none => .next s

/-- SCAN_COMPLETE (R417). -/
def execScanComplete (s : State) : Result :=
  if !s.rpl.scanBusy then .next s
  else
    .next { s with rpl := { s.rpl with scanBusy := false, scanCode := s.rpl.scanNext.1, scanCrc := s.rpl.scanNext.2 } }

/-- RELEASE (R415 to R417, R420): after a scan-in it is a start point. -/
def execRelease (s : State) : Result :=
  match s.scanFault with
  | some c => .next (s.scanRefuse c)
  | none =>
    let s1 := { s with rpl := { s.rpl with frozen := false, scanCode := 0 } }
    if s.rpl.scannedIn then
      .next ({ s1 with rpl := { s1.rpl with scannedIn := false } }.startPoint s.cycle 1 s.rpl.scanCrc)
    else .next s1

/-! ## Aligning modules (R421, R422) -/

/-- SYNCCMD written (R421): this module aligns itself to the one beyond a port. -/
def State.startSync (s : State) (value : BitVec 64) : State :=
  { s with rpl := { s.rpl with syncPort := some (field value.toNat 0 4) } }

/-- SYNCCMD (R421, R398). -/
def execSynccmd (value : BitVec 64) (s : State) : Result := .next (s.untrusted fun s => s.startSync value)

/-- SYNC (R421): stamped at t2; the follower sends DREQ at t3. -/
def execSync (t1 : Int) (s : State) : Result :=
  if s.rpl.syncPort.isNone then .next s
  else .next ({ s with rpl := { s.rpl with syncT1 := t1, syncT2 := s.cycle, syncT3 := s.cycle } }.emit .dreq)

/-- DREQ (R421): the master returns its stamp; the follower, given it, sets SYSOFF, rounded toward minus infinity. -/
def execDreq (t4 : Int) (s : State) : Result :=
  match s.rpl.syncPort with
  | some _ =>
    let off := ((s.rpl.syncT1 - (s.rpl.syncT2 : Int)) + (t4 - (s.rpl.syncT3 : Int))) / 2
    .next { s with rpl := { s.rpl with sysoff := off, syncPort := none } }
  | none => .next (s.emit (.sync ((s.cycle : Int) + s.rpl.sysoff)))

end Sys2Proof.Machine
end

