-- ==== Sys2Proof/Machine/Host.lean ====
section
/-! DEFINITION. The host links: the counter window (R95), the HDM range (R341, R344, R348), snoops (R350, R351), PCIe
requests and their completions (R223, R345, R346, R355), and link loss and return (R343, R352 to R354). -/

namespace Sys2Proof.Machine

/-! ## The counter window (R95) -/

/-- Whether a counter's scope lets the host reach it (R95). -/
def Counter.hostReach (k : Counter) : Bool := k.scope == 4 || k.scope == 5

/-- The counter of a die by index. -/
def State.dieCtr (s : State) (die index : Nat) : Counter := (s.die die).ctrs.ctr index

/-- The handle that a counter of a die has. -/
def State.dieHandle (s : State) (die index : Nat) : DWord :=
  let k := s.dieCtr die index
  handleOf k.scope (if k.scope = 5 then 4 * s.cox.moduleNo + die else die) index k.gen

/-- A window read of a counter's value: 0 and an event where it is not of package or system scope. -/
def State.windowValue (s : State) (source die index : Nat) : BitVec 64 × State :=
  let k := s.dieCtr die index
  if k.hostReach then (BitVec.ofNat 64 k.value, s)
  else (0, s.event source 9 0xFF (bytesOf 8 die ++ bytesOf 8 index))

/-- A window add: a stale generation, another scope or a nonzero RES0 bit drops it; a drop or a saturation is logged
as kind 16. It carries release of the host's earlier writes (R347). -/
def State.windowAdd (s : State) (source die index : Nat) (value : BitVec 64) : State :=
  let k := s.dieCtr die index
  let h := s.dieHandle die index
  let note (s : State) : State := s.event source 16 0xFF (bytesOf 8 h.toNat)
  if !k.live || !k.hostReach || k.gen != field value.toNat 32 24 || field value.toNat 56 8 != 0 then note s
  else
    let q := s.unitAdd (.logged source 0xFF) (.die die) h (field value.toNat 0 32) s.links.hostTime
    if q.1 then note q.2 else q.2

/-- A host read without the T bit outside the identity block: from the lock on, 0 and an event (R398, R399). -/
def State.untrustedRead (s : State) (source : Nat) (f : State → BitVec 64 × State) : State :=
  let q := if s.boot.tdi == .unlocked then f s else ((0 : BitVec 64), s.event source 9 0xFF [])
  q.2.emit (.reply source q.1)

/-- COUNTER_WINDOW_READ_VALUE (R95, R398). -/
def execCounterWindowReadValue (die index : Nat) (s : State) : Result :=
  .next (s.untrustedRead 203 fun s => s.windowValue 203 die index)

/-- COUNTER_WINDOW_READ_STATUS (R95, R398). -/
def execCounterWindowReadStatus (die index : Nat) (s : State) : Result :=
  .next (s.untrustedRead 203 fun s => (BitVec.ofNat 64 (s.dieCtr die index).status, s))

/-- COUNTER_WINDOW_ADD (R95, R398). -/
def execCounterWindowAdd (die index : Nat) (value : BitVec 64) (s : State) : Result :=
  .next (s.untrusted fun s => s.windowAdd 203 die index value)

/-- A dropped access logged with its offset (R341). -/
def State.dropped (s : State) (source off : Nat) : State := s.event source 9 0xFF (bytesOf 8 off)

/-- An 8-byte read of the counter window at an offset. -/
def State.windowReadAt (s : State) (source off size : Nat) : BitVec 64 × State :=
  let die := off / 2 ^ 28
  let index := off % 2 ^ 28 / 16
  if size ≠ 8 then (0, s.dropped source off)
  else
    match off % 16 with
    | 0 => s.windowValue source die index
    | 8 => (BitVec.ofNat 64 (s.dieCtr die index).status, s)
    | _ => (0, s.dropped source off)

/-- A write to the counter window at an offset. -/
def State.windowWriteAt (s : State) (source off size : Nat) (value : BitVec 64) : State :=
  if size = 8 ∧ off % 16 = 8 then s.windowAdd source (off / 2 ^ 28) (off % 2 ^ 28 / 16) value else s.dropped source off

/-! ## The HDM range (R341, R344, R347, R348) -/

/-- Offsets of the windows above the device's memory. -/
def hdmCounters : Nat := 2 ^ 41
def hdmLaunch : Nat := 2 ^ 41 + 2 ^ 30
def hdmFlush : Nat := 2 ^ 41 + 2 ^ 30 + 2 ^ 20

/-- One host write inside a 64 B half-line, performed at the home slice with LTS 0 (R277, R279, R344); a write into
an overflow page is dropped and logged (R74). -/
def State.hostStore (s : State) (a : Nat) (data : List Byte) : State :=
  if s.inOverflow a then s.dropped 204 a
  else
    let w := ((s.useLine (lineOf a) true).setBytesAt .global a data).homeWrite (lineOf a) 0
    { w.2 with links := { w.2.links with hostTime := max w.2.links.hostTime w.1 } }

/-- A host write split at 64 B boundaries, lower address first (R344). -/
def State.hostStores (s : State) : Nat → Nat → List Byte → State
  | 0, _, _ => s
  | n + 1, a, data =>
    match data with
    | [] => s
    | _ =>
      let k := 64 - a % 64
      State.hostStores (s.hostStore a (data.take k)) n (a + k) (data.drop k)

/-- The writable bits of a slot's byte: bits [62:40] of its status word and the bytes past it are RES0 (R7, R335). -/
def slotBits (off : Nat) : Byte :=
  if off % 128 < 69 then 0xFF else if off % 128 = 71 then 0x80 else 0

/-- Bytes of a launch window write (R335). -/
def State.windowBytes (s : State) (off : Nat) : List Byte → State
  | [] => s
  | b :: t =>
    State.windowBytes { s with rm := { s.rm with window := s.rm.window.setByte off (b &&& slotBits off) } } (off + 1) t

/-- A host write to the launch windows: it triggers each slot whose byte 63 it covers, in increasing number (R335). -/
def State.launchWrite (s : State) (off : Nat) (data : List Byte) : State :=
  let hit := (upFrom 0 data.length).filterMap fun i => if (off + i) % 128 = 63 then some ((off + i) / 128) else none
  hit.foldl (init := s.windowBytes off data) fun s n =>
    s.trigger (n / 64) (n % 64) (BitVec.ofNat 512 (natOf (s.rm.window.read (128 * n) 64)))

/-- A CXL.mem write by HDM offset. -/
def State.hdmWrite (s : State) (a : Nat) (data : List Byte) : State :=
  let n := data.length
  if s.boot.tdi != .unlocked then s
  else if a + n ≤ hdmCounters then s.hostStores n a data
  else if hdmCounters ≤ a ∧ a < hdmLaunch then s.windowWriteAt 204 (a - hdmCounters) n (BitVec.ofNat 64 (natOf data))
  else if hdmLaunch ≤ a ∧ a + n ≤ hdmLaunch + 2 ^ 19 then s.launchWrite (a - hdmLaunch) data
  else s.dropped 204 a

/-- A CXL.mem read by HDM offset: bytes and the poison indication (R344, R348, R398). -/
def State.hdmRead (s : State) (a n : Nat) : (List Byte × Bool) × State :=
  let zero := bytesOf n 0
  if s.boot.tdi != .unlocked then ((zero, true), s)
  else if a + n ≤ hdmCounters then
    let bad := (linesOf a n).any fun l => s.poisoned l || s.inOverflow l
    ((s.mem.read a n, bad), (linesOf a n).foldl (fun s l => s.useLine l false) s)
  else if hdmCounters ≤ a ∧ a < hdmLaunch then
    let q := s.windowReadAt 204 (a - hdmCounters) n
    ((bytesOf n q.1.toNat, false), q.2)
  else if hdmLaunch ≤ a ∧ a + n ≤ hdmLaunch + 2 ^ 19 then ((s.rm.window.read (a - hdmLaunch) n, false), s)
  else ((zero, false), s)

/-- HOST_MEM_READ (R341, R344, R398). -/
def execHostMemRead (addr size : Nat) (s : State) : Result :=
  let q := s.hdmRead addr size
  .next (q.2.emit (.data 204 q.1.1 q.1.2))

/-- HOST_MEM_WRITE (R341, R344, R398). -/
def execHostMemWrite (addr : Nat) (data : List (BitVec 8)) (s : State) : Result := .next (s.hdmWrite addr data)

/-- Whether a write that a host link delivered has not been presented yet (R348, R407). -/
def State.writesWaiting (s : State) (source : Nat) : Bool :=
  s.rpl.arrivals.any fun x => x.source == source && match x.access with
    | .hdmWrite .. | .bar0Write .. | .bar2Write .. => true
    | _ => false

/-- CXLFLUSH (R347, R348): answered once every CXL.mem write that the link delivered before has been performed. -/
def execCxlflush (s : State) : Result :=
  if s.writesWaiting 204 then .next s
  else
    let q := s.hdmRead hdmFlush 8
    .next (q.2.emit (.data 204 q.1.1 q.1.2))

/-- PFLUSH (R347, R348): answered after every earlier posted write of the link; part of the identity block, which stays
readable (R398). -/
def execPflush (s : State) : Result := if s.writesWaiting 203 then .next s else .next (s.emit (.reply 203 0))

/-! ## Snoops (R350, R351) -/

/-- Whether a device request that came before a snoop waits at a slice for the snoop's line (R350). -/
def Slice.awaits (v : Slice) (line : Nat) : Bool :=
  v.atomHolds line || v.ingress.any fun q => q.line == line && q.cxl

/-- A snoop of a host physical line: done, or not yet when an atomic holds the line or an earlier device request waits for
it; behind an own request it waits in the miss-status entry (R350). -/
def State.snoop (s : State) (hpa : Nat) (k : SnoopKind) : Option State :=
  let line := lineOf (hostBase + hpa)
  let e := s.homeSlice line
  let v := s.slice e
  if v.missing line then
    let q : Req := ⟨s.nextId, 0, line, .snoop k, 0, 0, true, 0, 1⟩
    some { s.setSlice e { v with mshr := Cells.put v.mshr line (Cells.get [] v.mshr line ++ [q]) } with nextId := s.nextId + 1 }
  else if v.awaits line then none
  else some (s.serveSnoop line k)

/-- SNPCUR, SNPDATA and SNPINV (R350). -/
def execSnpcur (line : Nat) (s : State) : Result := .next ((s.snoop line .cur).getD s)
def execSnpdata (line : Nat) (s : State) : Result := .next ((s.snoop line .data).getD s)
def execSnpinv (line : Nat) (s : State) : Result := .next ((s.snoop line .inv).getD s)

/-! ## PCIe requests (R223, R345, R346, R355) -/

/-- A request taken off the list of those outstanding. -/
def State.dropPcie (s : State) (q : PcieReq) : State :=
  { s with links := { s.links with pcie := s.links.pcie.filter fun x => x.id != q.id } }

/-- An AtomicOp's entry is acknowledged once none of its requests is outstanding. -/
def State.ackAtomicOp (s : State) (q : PcieReq) : State :=
  if s.links.pcie.any fun x => x.kind == .atomic && x.item == q.item then s else s.post (.ack q.slot q.item 0)

/-- An engine's flush read that fails: its command stops (R232, R352). -/
def State.stopFlush (s : State) (u : EngineUnit) (t : Trap) : State :=
  match u with
  | .copy core chan =>
    match s.copyHead core chan with
    | some (cmd, _) => s.stopCopy core chan cmd t
    | none => s
  | .matrix core =>
    match s.matrixHead core with
    | some (cmd, c) => s.matrixStop core cmd c (.fault t)
    | none => s
  | .coll die group =>
    match s.runningColl die group with
    | some x => s.stopColl die x t
    | none => s

/-- What a PCIe read has brought for an engine's access (R345). -/
def State.fetchDone (s : State) (u : EngineUnit) (line : Nat) (d : StepData) : State :=
  { s with links := { s.links with fetched := s.links.fetched ++ [(u, line, d)] } }

/-- A request that fails with a code (R345, R352, R355): a load at its response, an AtomicOp or MCAST.LD on its lanes, a
FENCE on its lanes, an engine's access or command. The access had no effect on any lane before. -/
def State.failPcie (s : State) (q : PcieReq) (load : LoadResult) (code other : BitVec 8) : State :=
  let s1 := s.dropPcie q
  match q.kind with
  | .load => s1.post (.load q.slot q.item load)
  | .atomic =>
    match s1.entry? q.slot q.item, q.late with
    | some e, some l =>
      let va := ((e.items.find? fun i => l.lanes.any fun h => h.1 == i.lane).map (·.va)).getD 0
      (s1.lateFaults q.slot l.lanes { code := code, addr := va } l.pc q.sentAt).ackAtomicOp q
    | _, _ => s1
  | .mcast => s1.failEntry q.slot q.item other
  | .fence =>
    match q.late with
    | some l => s1.lateFaults q.slot l.lanes { code := other } l.pc q.sentAt
    | none => s1
  | .flush u => s1.stopFlush u { code := other }
  | .fetch u line => s1.fetchDone u line (.fault { code := other })

/-- A multicast's line come over PCIe: every target deck is written and the entry acknowledged (R216, R345). -/
def State.answerMcast (s : State) (slot id : Nat) (data : List Byte) : State :=
  match s.entry? slot id with
  | none => s
  | some e =>
    let targets := match e.op with
      | .mcast control => mcastTargets (coreOf slot) control
      | _ => []
    (s.writeTargets slot id targets (pieceOf data 0 128)).post (.ack slot id 0)

/-- A request answered: a load's or an engine's bytes, an AtomicOp's old value, a multicast's line, a flush read's end, which
for a FENCE lets no lease got before serve a later load (R215, R346). -/
def State.answerPcie (s : State) (q : PcieReq) (data : List Byte) : State :=
  let s1 := s.dropPcie q
  match q.kind with
  | .load => s1.post (.load q.slot q.item (.bytes data))
  | .atomic =>
    match s1.entry? q.slot q.item, q.late with
    | some e, some l =>
      let s2 := match e.items.find? fun i => l.lanes.any fun h => h.1 == i.lane with
        | some i =>
          if e.op.returns then s1.modCrew q.slot fun c => c.deliver i.lane i.dest (bytesOf (max 4 e.size) (natOf (data.take e.size)))
          else s1
        | none => s1
      s2.ackAtomicOp q
    | _, _ => s1
  | .mcast => s1.answerMcast q.slot q.item data
  | .fence => s1.pastLeases q.slot
  | .flush _ => s1
  | .fetch u line => s1.fetchDone u line (.bytes data)

/-- A request that comes back with an error status or is lost (R345, R355). -/
def State.rejectPcie (s : State) (q : PcieReq) : State := s.failPcie q .poison codeHostatom codePoison

/-- PCIE_COMPLETION (R345, R355). -/
def execPcieCompletion (id : Nat) (ok : Bool) (data : List Byte) (s : State) : Result :=
  match s.links.pcie.find? fun q => q.id == id with
  | none => .next s
  | some q => .next (if ok then s.answerPcie q data else s.rejectPcie q)

/-- COMPLETION_TIMEOUT (R345, R355): the upper bound of the range has passed since transmission. -/
def execCompletionTimeout (id : Nat) (s : State) : Result :=
  match s.links.pcie.find? fun q => q.id == id with
  | none => .next s
  | some q => if s.cycle < q.sentAt + s.links.timeout then .next s else .next (s.rejectPcie q)

/-! ## The stranded-line log (R353) -/

/-- An entry of the stranded-line log (R353 table 8; CHECK by R430). -/
def strandedEntry (line cycle : Nat) (valid : List Nat) (kind : Byte) (cxl : Bool) (data : List Byte) : List Byte :=
  bytesOf 8 (line - hostBase) ++ bytesOf 8 cycle ++ bytesOf 16 (bitMask valid)
    ++ bytesOf 4 (crc32c (bytesOf 8 line ++ data)).toNat ++ [kind, flagByte cxl] ++ bytesOf 26 0 ++ data ++ bytesOf 64 0

/-- An entry written, or counted in SLOST when the log is full (R343, R353). -/
def State.strand (s : State) (entry : List Byte) : State :=
  let x := s.cox
  if x.slogSize < 256 * (x.slogUsed + 1) then { s with links := { s.links with slost := min 0xFFFF (s.links.slost + 1) } }
  else
    let s1 := s.physWrite (x.slogBase + 256 * x.slogUsed) entry
    { s1 with
      cox := { s1.cox with slogUsed := x.slogUsed + 1 }
      links := { s1.links with scount := (s1.links.scount + 1) % 2 ^ 16 } }

/-- The dirty host-homed lines of a slice in ascending set and way, and those of its flush buffer (R351, R353). -/
def Slice.dirtyHost (v : Slice) : List (Nat × List Byte) :=
  (v.ways.held.filterMap fun w =>
    let m := v.line w.2
    if hostLine w.2 && m.present && m.dirty then some (w.2, m.data) else none) ++ v.flush

/-- A line dropped from its slice without a write back; its times stay. -/
def LineMeta.dropped (m : LineMeta) : LineMeta := { LineMeta.absent with wts := m.wts, rts := m.rts }

/-- Every host-homed line dropped, poisoned as it goes; the dirty ones logged, in ascending slice (R352, R353). -/
def State.strandLines (s : State) : State :=
  let s1 := ((s.slices.map fun e => e.2.dirtyHost).flatten).foldl (init := s) fun s l =>
    s.strand (strandedEntry l.1 s.cycle (upFrom 0 128) 0 true l.2)
  let held (l : Nat) : Bool := s.slices.any fun e => (e.2.line l).present || (Cells.find e.2.flush l).isSome
  { s1 with
    poison := s1.poison.filter fun l => !(hostLine l && held l)
    slices := s1.slices.map fun (e : Nat × Slice) =>
      (e.1, { e.2 with
        flush := []
        lines := e.2.lines.map fun (l : Nat × LineMeta) => (l.1, if hostLine l.1 then l.2.dropped else l.2) }) }

/-- Whether an entry is a store, as against an atomic or a command. -/
def EntryOp.stores : EntryOp → Bool
  | .store | .spill | .record => true
  | _ => false

/-- Whether an entry's acknowledgement is under way. -/
def State.ackPending (s : State) (id : Nat) : Bool :=
  s.msgs.any fun m => match m.2 with
    | .ack _ e _ => e == id
    | _ => false

/-- The store entries of a path to host memory that are not performed, with the slots of their crews. -/
def State.unperformed (s : State) (cxl : Bool) : List (Nat × Entry) :=
  let of (slot : Nat) (c : Crew) : List (Nat × Entry) :=
    (c.fifo.filter fun e => e.space == .global && hostLine e.line && e.cxl == cxl && e.op.stores && !s.ackPending e.id).map
      fun e => (slot, e)
  let live := (s.crews.map fun e => of e.1 e.2).flatten
  let saved := (s.rm.saved.map fun v => (v.crews.map fun w => of w.oldSlot w.crew).flatten).flatten
  (live ++ saved).foldl (init := []) fun m p =>
    let before (x : Nat × Entry) : Bool :=
      decide (s.homeSlice x.2.line < s.homeSlice p.2.line)
        || (s.homeSlice x.2.line == s.homeSlice p.2.line && decide (x.2.line ≤ p.2.line))
    m.takeWhile before ++ p :: m.dropWhile before

/-- Requests that a predicate holds of, gone from every slice and core. -/
def State.dropReqs (s : State) (gone : Req → Bool) : State :=
  let keep (l : List Req) : List Req := l.filter fun q => !gone q
  { s with
    slices := s.slices.map fun (v : Nat × Slice) =>
      (v.1, { v.2 with
        ingress := keep v.2.ingress
        mshr := (v.2.mshr.map fun (m : Nat × List Req) => (m.1, keep m.2)).filter fun m => !m.2.isEmpty
        serving := v.2.serving.filter fun x => !gone x.req })
    cores := s.cores.map fun (k : Nat × Core) =>
      (k.1, { k.2 with retry := k.2.retry.filter fun r => !gone r.req, sendq := keep k.2.sendq }) }

/-- An unperformed store logged as a partial line and acknowledged; its request is gone (R352). -/
def State.strandStore (s : State) (cxl : Bool) (p : Nat × Entry) : State :=
  let e := p.2
  let data := (upFrom 0 128).map fun i => ((e.bytes.find? fun b => b.1 == i).map (·.2)).getD 0
  let s1 := (s.strand (strandedEntry e.line s.cycle (e.bytes.map (·.1)) 1 cxl data)).dropReqs fun q => q.forEntry e.id
  (s1.modOwner p.1 e.id fun c => c.markSent e.id e.series e.seq).post (.ack p.1 e.id 0)

/-- Whether a request is for a line of host memory on a path. -/
def Req.onPath (q : Req) (cxl : Bool) : Bool := hostLine q.line && q.cxl == cxl

/-- The requests of a path to host memory that are outstanding at a slice or wait to be sent. -/
def State.pathReqs (s : State) (cxl : Bool) : List Req :=
  let here (l : List Req) : List Req := l.filter fun q => q.onPath cxl
  (s.slices.map fun v =>
      here v.2.ingress ++ (v.2.mshr.map fun m => here m.2).flatten ++ here (v.2.serving.map (·.req))).flatten
    ++ (s.cores.map fun k => here (k.2.retry.map (·.req)) ++ here k.2.sendq).flatten

/-- The atomics and multicasts of a path that no request carries yet, with the slots of their crews. -/
def State.unsentOps (s : State) (cxl : Bool) : List (Nat × Entry) :=
  let of (slot : Nat) (c : Crew) : List (Nat × Entry) :=
    (c.fifo.filter fun e => e.space == .global && hostLine e.line && e.cxl == cxl && !e.op.stores && !e.sent && match e.op with
      | .cctl _ => false
      | _ => true).map fun e => (slot, e)
  (s.crews.map fun e => of e.1 e.2).flatten
    ++ (s.rm.saved.map fun v => (v.crews.map fun w => of w.oldSlot w.crew).flatten).flatten

/-- Every outstanding load, read and atomic of a lost path fails with LINKDOWN (R352). -/
def State.failPath (s : State) (cxl : Bool) : State :=
  let lists := if cxl then (s.slices.map fun v => (v.2.mcast.filter fun m => hostLine m.line).map (·.reqs)).flatten.flatten else []
  let s1 := (s.pathReqs cxl).foldl (fun s q => s.failReq q) (s.dropReqs fun q => q.onPath cxl)
  let s2 := (s1.unsentOps cxl).foldl (init := s1) fun s p =>
    (s.modOwner p.1 p.2.id fun c => c.markSent p.2.id p.2.series p.2.seq).failEntry p.1 p.2.id codeLinkdown
  if cxl then
    lists.foldl (init := { s2 with slices := s2.slices.map fun (v : Nat × Slice) =>
        (v.1, { v.2 with mcast := v.2.mcast.filter fun m => !hostLine m.line }) })
      fun s r => s.failEntry r.1 r.2.1 codeLinkdown
  else s2.links.pcie.foldl (fun s q => s.failPcie q .linkdown codeLinkdown codeLinkdown) s2

/-! ## Link loss and return (R343, R352, R354) -/

/-- A link's loss in the c of its stamp (R352, R396). -/
def State.loseLink (s : State) (cxl : Bool) : State :=
  let s1 := { s with links :=
    if cxl then { s.links with cup := false, cld := true } else { s.links with pup := false, pld := true } }
  let s2 := if cxl then s1.strandLines else s1
  let s3 := ((s2.unperformed cxl).foldl (fun s p => s.strandStore cxl p) s2).failPath cxl
  let s4 := s3.event 201 8 0xFF (bytesOf 8 (if cxl then 1 else 0))
  if cxl then s4 else s4.tdiFail

/-- Whether a link has a generation (R339 table 1). -/
def linkGen (cxl : Bool) (gen : Nat) : Bool := if cxl then gen == 2 || gen == 3 else gen == 4 || gen == 5 || gen == 6

/-- A link's training done (R339, R343, R354): it trains to no other generation than those of its table. -/
def State.gainLink (s : State) (cxl : Bool) (gen : Nat) (x8 : Bool) : State :=
  let w := if x8 then 1 else 0
  if !linkGen cxl gen then s
  else
    { s with links :=
      if cxl then { s.links with cup := true, cgen := gen, cwid := w } else { s.links with pup := true, pgen := gen, pwid := w } }

/-- A link event's log payload: up, generation, width (log 45). -/
def linkPayload (up : Bool) (gen : Nat) (x8 : Bool) : List Byte := [flagByte up, BitVec.ofNat 8 gen, flagByte x8]

/-- The source number of a host link (R388). -/
def linkSource (cxl : Bool) : Nat := if cxl then 204 else 203

/-- LINK_DOWN (R352, R412): in replay the Turnstiles ignore their links (R413). -/
def execLinkDown (cxl : Bool) (s : State) : Result :=
  let isDown := if cxl then !s.links.cup && s.links.cld else !s.links.pup && s.links.pld
  if s.replaying || isDown then .next s
  else .next ((s.logAppend (s.cycle - s.rpl.epoch) (linkSource cxl) 1 (linkPayload false 0 false)).loseLink cxl)

/-- LINK_UP (R339, R343, R354, R412). -/
def execLinkUp (cxl : Bool) (gen : Nat) (x8 : Bool) (s : State) : Result :=
  if s.replaying || !linkGen cxl gen then .next s
  else .next ((s.logAppend (s.cycle - s.rpl.epoch) (linkSource cxl) 1 (linkPayload true gen x8)).gainLink cxl gen x8)

/-- The upper bound of a completion timeout range by its code, in c; a code that names none keeps the range (R355). The
codes are those of PCI Express (log 59, PRESUMED). -/
def timeoutRange (old : Nat) : Nat → Nat
  | 0 => 135000000
  | 1 => 270000
  | 2 => 27000000
  | 5 => 148500000
  | 6 => 567000000
  | 9 => 2430000000
  | 10 => 9450000000
  | 13 => 35100000000
  | 14 => 172800000000
  | _ => old

/-- Device Control 2 written: AtomicOp Requester Enable and the completion timeout range (R355, R397; log 59). -/
def State.setDeviceControl2 (s : State) (value : BitVec 16) : State :=
  s.frozenWrite fun s => { s with links := { s.links with
    atomicEnable := value.getLsbD 6, timeout := timeoutRange s.links.timeout (field value.toNat 0 4) } }

/-- Another register of PCIe configuration space written: it holds the value, and a lock freezes it (R397; log 59). -/
def State.setConfig (s : State) (reg : Nat) (value : BitVec 64) : State :=
  s.frozenWrite fun s => { s with links := { s.links with config := Cells.put s.links.config reg value } }

/-- LINKSTAT written: a latch written 1 clears when its link is up (R343, R354). -/
def State.clearLatches (s : State) (value : BitVec 64) : State :=
  { s with links := { s.links with
    pld := s.links.pld && !(value.getLsbD 0 && s.links.pup)
    cld := s.links.cld && !(value.getLsbD 1 && s.links.cup) } }

/-- LINKSTAT_CLEAR (R343, R354). -/
def execLinkstatClear (value : BitVec 64) (s : State) : Result := .next (s.clearLatches value)

end Sys2Proof.Machine
end

