-- ==== Sys2Proof/Machine/Arrivals.lean ====
section
/-! DEFINITION. What the host reads and writes through its BARs (R341 to R343, R384, R398, R409, R426), and arrivals:
their admission, presentation and replay (R407, R409, R412, R413, R416). -/

namespace Sys2Proof.Machine

/-! ## BAR 0 (R341) -/

/-- Bases of the blocks of BAR 0. -/
def barRing : Nat := 0x100000
def barCox : Nat := 0x200000
def barReplay : Nat := 0x300000
def barSampler : Nat := 0x400000

/-- A flag as a number at a bit. -/
def bitAt (b : Bool) (n : Nat) : Nat := if b then 2 ^ n else 0

/-- IDENT (R342 table 12). -/
def State.ident (s : State) : Nat := bitAt s.boot.rverify 32 + s.boot.stage.toNat * 2 ^ 24 + bitAt s.boot.recov 16 + 0x0070

/-- LINKSTAT (R343 table 4). -/
def State.linkstat (s : State) : Nat :=
  let x := s.links
  x.slost * 2 ^ 32 + x.scount * 2 ^ 16 + x.pgen % 16 * 2 ^ 12 + x.cgen % 16 * 2 ^ 8 + x.pwid % 4 * 2 ^ 6 + x.cwid % 4 * 2 ^ 4
    + bitAt x.cup 3 + bitAt x.pup 2 + bitAt x.cld 1 + bitAt x.pld 0

/-- QCFG (R327 table 5). -/
def Queue.qcfg (v : Queue) : Nat := bitAt v.path 9 + bitAt v.en 8 + v.ctx * 16 + v.prio

/-- A Ringmaster register by offset in its block (R327, R328, R337, R367); KICK reads 0. -/
def State.readRing (s : State) (off : Nat) : Option Nat :=
  if 0x1000 ≤ off ∧ off < 0x1800 then
    match off % 32 with
    | 0 => some (s.queue ((off - 0x1000) / 32)).qcfg
    | 8 => some 0
    | _ => none
  else if 0x3000 ≤ off ∧ off < 0x3200 then
    let x := s.context ((off - 0x3000) / 32)
    match off % 32 with
    | 0 => some (x.pool + x.shift)
    | 8 => some x.pcrews
    | 16 => some x.slice
    | _ => none
  else if 0x3200 ≤ off ∧ off < 0x3300 then
    let x := s.context ((off - 0x3200) / 16)
    match off % 16 with
    | 0 => some x.trans.toNat
    | 8 => some (x.img * 2 ^ 16)
    | _ => none
  else if 0x5000 ≤ off ∧ off < 0x5400 then
    let g := Cells.get (0, 0) s.rm.graphs ((off - 0x5000) / 16)
    match off % 16 with
    | 0 => some g.1
    | 8 => some (g.2 * 2 ^ 56)
    | _ => none
  else none

/-- A Coxswain register by offset in its block (R384 table 3). -/
def State.readCox (s : State) (off : Nat) : Option Nat :=
  match off with
  | 0x00 => some 0
  | 0x08 => some (s.cox.evlost * 2 ^ 48 + s.cox.drops * 2 ^ 32 + s.cox.hostq.length * 2 ^ 24)
  | 0x10 => some s.cox.head
  | 0x18 => some s.cox.tail
  | _ => none

/-- A register of the Turnstile and replay block by offset (R409 table 2). -/
def State.readReplay (s : State) (off : Nat) : Option Nat :=
  let r := s.rpl
  match off with
  | 0x00 => some r.rplctl
  | 0x08 => some (r.base * 2 ^ 30)
  | 0x10 => some (bitAt r.diverge 2 + bitAt r.full 1 + bitAt r.active 0)
  | 0x18 => some (r.head % 2 ^ 34)
  | 0x20 => some r.dcycle
  | 0x28 => some r.xmode
  | 0x30 => some r.stopcyc
  | 0x38 => some (r.cause * 16 + bitAt r.frozen 0)
  | 0x40 => some 0
  | 0x48 => some (r.scanCrc.toNat * 2 ^ 32 + bitAt r.scanBusy 7 + r.scanCode)
  | 0x50 => some r.epoch
  | 0x58 => some (BitVec.ofInt 64 r.sysoff).toNat
  | 0x60 => some 0
  | _ => none

/-- A register of the telemetry block by offset (R426 table 3). -/
def State.readSampler (s : State) (off : Nat) : Option Nat :=
  let f := s.fleet
  match off with
  | 0x00 => some f.smpBase
  | 0x08 => some f.smpHead
  | 0x10 => some f.smpDrop
  | 0x18 => some (bitAt f.smpActive 0)
  | _ => none

/-- A register of BAR 0 by offset; none where no block assigns it (R341). PFLUSH reads 0 (R348). -/
def State.readBar0 (s : State) (off : Nat) : Option Nat :=
  if off < 0x1000 then
    match off with
    | 0x00 => some s.ident
    | 0x08 => some s.linkstat
    | 0x10 => some 0
    | _ => none
  else if barRing ≤ off ∧ off < barRing + 0x10000 then s.readRing (off - barRing)
  else if barCox ≤ off ∧ off < barCox + 0x100000 then s.readCox (off - barCox)
  else if barReplay ≤ off ∧ off < barReplay + 0x100000 then s.readReplay (off - barReplay)
  else if barSampler ≤ off ∧ off < barSampler + 0x100000 then s.readSampler (off - barSampler)
  else none

/-- The state a meaning answers. -/
def stateOf (s : State) : Result → State
  | .next t => t
  | _ => s

/-- IDENT written (R342, R393). -/
def State.writeIdent (s : State) (value : BitVec 64) : State :=
  if value.getLsbD 33 then s.warmReset 
  else if value.getLsbD 32 && !s.boot.rverify then stateOf s (execRverify s)
  else s

/-- A graph slot's word written (R337). -/
def State.writeGraph (s : State) (g : Nat) (second : Bool) (value : BitVec 64) : State :=
  let v := Cells.get (0, 0) s.rm.graphs g
  let v1 := if second then (v.1, field value.toNat 56 6) else (field value.toNat 6 50 * 64, v.2)
  { s with rm := { s.rm with graphs := Cells.put s.rm.graphs g v1 } }

/-- A Ringmaster register written. -/
def State.writeRing (s : State) (off : Nat) (value : BitVec 64) : Option State :=
  if 0x1000 ≤ off ∧ off < 0x1800 then
    let q := (off - 0x1000) / 32
    match off % 32 with
    | 0 => some (stateOf s (execQcfgWrite q value s))
    | 8 => some (s.kick q value)
    | _ => none
  else if 0x3000 ≤ off ∧ off < 0x3200 then
    if off % 32 < 24 ∧ off % 8 = 0 then some (stateOf s (execContextRegisterWrite ((off - 0x3000) / 32) (off % 32) value s))
    else none
  else if 0x3200 ≤ off ∧ off < 0x3300 then
    if off % 8 = 0 then some (stateOf s (execContextTransWrite ((off - 0x3200) / 16) (off % 16) value s)) else none
  else if 0x5000 ≤ off ∧ off < 0x5400 then
    if off % 8 = 0 then some (s.frozenWrite fun s => s.writeGraph ((off - 0x5000) / 16) (off % 16 == 8) value) else none
  else none

/-- A Coxswain register written: HSTAT and EVHEAD are read only (R384). -/
def State.writeCox (s : State) (off : Nat) (value : BitVec 64) : Option State :=
  match off with
  | 0x00 => some (s.hcall value)
  | 0x08 | 0x10 => some s
  | 0x18 => some { s with cox := { s.cox with tail := field value.toNat 0 32 } }
  | _ => none

/-- SCANCMD written (R409, R417, R420). -/
def State.scanCommand (s : State) (value : BitVec 64) : State :=
  let haddr := field value.toNat 12 44 * 4096
  if s.boot.tdi != .unlocked then s.scanRefuse 6
  else
    match field value.toNat 0 2 with
    | 1 => stateOf s (execScanOut haddr s)
    | 2 => stateOf s (execScanIn haddr s)
    | 3 => stateOf s (execRelease s)
    | _ => s

/-- A register of the Turnstile and replay block written (R409). -/
def State.writeReplay (s : State) (off : Nat) (value : BitVec 64) : Option State :=
  match off with
  | 0x00 => some (s.frozenWrite fun s => s.setRplctl value)
  | 0x08 => some (s.frozenWrite fun s => { s with rpl := { s.rpl with base := field value.toNat 30 22 } })
  | 0x10 => some { s with rpl := { s.rpl with
      diverge := s.rpl.diverge && !value.getLsbD 2, full := s.rpl.full && !value.getLsbD 1 } }
  | 0x18 | 0x20 | 0x38 | 0x48 | 0x50 => some s
  | 0x28 => some (s.setXmode value)
  | 0x30 => some (s.frozenWrite fun s => s.setStopcyc value)
  | 0x40 => some (s.scanCommand value)
  | 0x58 => some { s with rpl := { s.rpl with sysoff := value.toInt } }
  | 0x60 => some (s.startSync value)
  | _ => none

/-- A register of BAR 0 written; none where no block assigns the offset (R8, R341). -/
def State.writeBar0 (s : State) (off : Nat) (value : BitVec 64) : Option State :=
  if off < 0x1000 then
    match off with
    | 0x00 => some (s.writeIdent value)
    | 0x08 => some (s.clearLatches value)
    | 0x10 => some s
    | _ => none
  else if barRing ≤ off ∧ off < barRing + 0x10000 then s.writeRing (off - barRing) value
  else if barCox ≤ off ∧ off < barCox + 0x100000 then s.writeCox (off - barCox) value
  else if barReplay ≤ off ∧ off < barReplay + 0x100000 then s.writeReplay (off - barReplay) value
  else if barSampler ≤ off ∧ off < barSampler + 0x100000 then (s.readSampler (off - barSampler)).map fun _ => s
  else none

/-! ## Access control (R391, R393, R397 to R399) -/

/-- The registers of BAR 0 that a lock freezes (R397, R420). -/
def frozenOffset (off : Nat) : Bool :=
  let r := off - barRing
  (decide (barRing ≤ off) && ((decide (0x1000 ≤ r) && decide (r < 0x1800) && r % 32 == 0)
      || (decide (0x3000 ≤ r) && decide (r < 0x3300)) || (decide (0x5000 ≤ r) && decide (r < 0x5400))))
    || off == barReplay || off == barReplay + 0x08 || off == barReplay + 0x30

/-- Whether an offset of BAR 0 answers in the present boot state: all of them once boot is complete, the identity
block alone before, and after a lock-step mismatch (R391). -/
def State.answers (s : State) (off : Nat) : Bool := (s.boot.stage == 0 && !s.boot.lockstep) || decide (off < 0x1000)

/-- How an access to a BAR outside or inside the identity block is treated (R398, R399). -/
inductive Grant where
  | serve
  | drop
  | unsupported
deriving DecidableEq, Repr

/-- The treatment of an access by its T bit, the TDI's state and whether it stays open to anyone. -/
def State.grant (s : State) (tee free : Bool) : Grant :=
  match s.boot.tdi, tee with
  | .unlocked, _ | .run, true => .serve
  | .locked, true | .error, true => .unsupported
  | _, false => if free then .serve else .drop

/-- A write to BAR 0 (R341, R397 to R399). A write to a frozen register counts as such whatever its T bit. -/
def State.hostWriteReg (s : State) (off : Nat) (value : BitVec 64) (tee : Bool) : State :=
  if !s.answers off || s.boot.lockstep then s
  else
    let apply (s : State) : State := (s.writeBar0 off value).getD (s.dropped 203 off)
    if off = 0 ∧ s.boot.tdi = .locked ∧ tee then s
    else
      match s.grant tee (decide (0 < off) && decide (off < 0x1000)) with
      | .serve => apply s
      | .drop => if frozenOffset off || off == barReplay + 0x40 then apply s else s.dropped 203 off
      | .unsupported => (if frozenOffset off || off == barReplay + 0x40 then apply s else s).emit (.unsupported 203)

/-- A read of BAR 0: the value, or none for UR (R341, R398, R399). -/
def State.hostReadReg (s : State) (off : Nat) (tee : Bool) : Option (BitVec 64) × State :=
  if !s.answers off then (none, s)
  else
    match s.grant tee (decide (off < 0x1000)) with
    | .serve =>
      match s.readBar0 off with
      | some v => (some (BitVec.ofNat 64 v), s)
      | none => (some 0, s.dropped 203 off)
    | .drop => (some 0, s.dropped 203 off)
    | .unsupported => (none, s)

/-- REGISTER_WRITE (R7, R8, R397, R398): a host write without the T bit to a register of BAR 0. -/
def execRegisterWrite (off : Nat) (value : BitVec 64) (s : State) : Result := .next (s.hostWriteReg off value false)

/-- Size of the staging buffer that BAR 2 shows in recovery mode (R393). -/
def stagingSize : Nat := 2 ^ 26

/-- Bytes placed in the staging buffer, which reads zero where nothing was written. -/
def placeBytes : List Byte → Nat → List Byte → List Byte
  | l, 0, new => new ++ l.drop new.length
  | [], n + 1, new => 0 :: placeBytes [] n new
  | b :: t, n + 1, new => b :: placeBytes t n new

/-- A write to BAR 2: the counter window, or the staging buffer in recovery mode (R95, R393, R398). -/
def State.writeBar2 (s : State) (off : Nat) (value : BitVec 64) (tee : Bool) : State :=
  if s.boot.recov then
    if off + 8 ≤ stagingSize then
      { s with links := { s.links with staging := placeBytes s.links.staging off (bytesOf 8 value.toNat) } }
    else s.dropped 203 off
  else if !s.answers 0x1000 then s
  else
    match s.grant tee false with
    | .serve => s.windowWriteAt 203 off 8 value
    | .drop => s.dropped 203 off
    | .unsupported => s.emit (.unsupported 203)

/-- A read of BAR 2. -/
def State.readBar2 (s : State) (off : Nat) (tee : Bool) : Option (BitVec 64) × State :=
  if s.boot.recov then
    if off + 8 ≤ stagingSize then (some (BitVec.ofNat 64 (natOf ((s.links.staging.drop off).take 8))), s)
    else (some 0, s.dropped 203 off)
  else if !s.answers 0x1000 then (none, s)
  else
    match s.grant tee false with
    | .serve =>
      let q := s.windowReadAt 203 off 8
      (some q.1, q.2)
    | .drop => (some 0, s.dropped 203 off)
    | .unsupported => (none, s)

/-! ## Arrivals (R407, R409) -/

/-- Whether an access is to the Turnstile and replay block, but for the XMODE write that is an arrival (R409). -/
def replayBlock : Access → Bool
  | .bar0Read off _ => decide (barReplay ≤ off) && decide (off < barReplay + 0x100000)
  | .bar0Write off _ _ => decide (barReplay ≤ off) && decide (off < barReplay + 0x100000) && off != barReplay + 0x28
  | _ => false

/-- Whether the boot pair serves an access while the package is frozen (R416). -/
def bootServed (a : Access) : Bool :=
  replayBlock a || match a with
    | .bar0Read off _ | .bar0Write off _ _ => decide (off < 0x1000)
    | _ => false

/-- A completion for a read, by the value or UR; the boot pair's own stand outside the digests. -/
def State.complete (s : State) (source : Nat) (aside : Bool) (v : Option (BitVec 64)) : State :=
  let e : Egress := match v with
    | some x => .reply source x
    | none => .unsupported source
  if aside then s.emitAside e else s.emit e

/-- The home of a counter here that another module names (R96): only counters of system scope travel. -/
def State.peerHome (s : State) (handle : DWord) : Option HomeRef :=
  if handleScope handle = 5 then s.packageHome handle else none

/-- A peer's add to a counter homed here, and the answer (R87, R96): an overflow counter's waits its turn. -/
def State.peerAdded (s : State) (handle : BitVec 64) (inc : BitVec 32) : State :=
  match s.peerHome handle with
  | none => s.emit (.peerReply codeCscope.toNat)
  | some r =>
    if (s.home r).stale handle then s.emit (.peerReply codeCstale.toNat)
    else
      let q := s.unitAdd .peer r handle inc.toNat 0
      if overflowAt r (handleIndex handle) then q.2 else q.2.emit (.peerReply (if q.1 then codeCovf.toNat else 0))

/-- Another operation of a peer on a counter homed here (R87, R96). -/
def State.peerAsked (s : State) (op : PeerOp) (handle : BitVec 64) (id : Nat) : State :=
  match s.peerHome handle with
  | none => s.emit (.peerAnswer id codeCscope.toNat 0 0)
  | some r =>
    if overflowAt r (handleIndex handle) then s.takeLate r (.peer op handle id) else s.servePeerOp r op handle id

/-- An access presented to the package; none while a snoop waits (R350, R407). -/
def State.serve (s : State) (source : Nat) (a : Access) : Option State :=
  match a with
  | .bar0Read off tee =>
    let q := s.hostReadReg off tee
    some (q.2.complete source (replayBlock a) q.1)
  | .bar0Write off value tee => some (s.hostWriteReg off value tee)
  | .bar2Read off tee =>
    let q := s.readBar2 off tee
    some (q.2.complete source false q.1)
  | .bar2Write off value tee => some (s.writeBar2 off value tee)
  | .hdmRead addr size => if s.answers 0x1000 then some (stateOf s (execHostMemRead addr size s)) else some (s.emit (.unsupported source))
  | .hdmWrite addr data => if s.answers 0x1000 then some (s.hdmWrite addr data) else some s
  | .snoopCur line => s.snoop line .cur
  | .snoopData line => s.snoop line .data
  | .snoopInv line => s.snoop line .inv
  | .completion id ok data => some (stateOf s (execPcieCompletion id ok data s))
  | .peerAdd handle inc => some (s.peerAdded handle inc)
  | .peerOp op handle id => some (s.peerAsked op handle id)
  | .deviceControl2 value => some (s.setDeviceControl2 value)
  | .configWrite reg value => some (s.setConfig reg value)
  | .peerCollective group seq rank kind block data =>
    some { s with cox := { s.cox with remotePosts := s.cox.remotePosts ++ [⟨group, seq, rank, kind, block, data⟩] } }
  | .portState port state peer => some (stateOf s (execPortStateChange port state peer s))
  | .sync t1 => some (stateOf s (execSync t1 s))
  | .dreq t4 => some (stateOf s (execDreq t4 s))
  | .raiseSvn svn => some (stateOf s (execFusedMinimumRaise svn s))

/-- The c in which an arrival is admitted: the first that its source and the log's order have free (R407, R411). -/
def State.admission (s : State) (source : Nat) : Nat :=
  let c := max s.cycle s.rpl.stamped.1
  if s.rpl.stamped.1 < c ∨ s.rpl.stamped.2 < source then c else c + 1

/-- Whether the log can take a record of a payload, or need not (R412). -/
def State.logRoom (s : State) (payload : List Byte) : Bool :=
  !s.recording || !s.rpl.fullact || decide (s.rpl.head + 16 + (payload.length + 15) / 16 * 16 ≤ logRegion)

/-- An arrival admitted: stamped, queued, and logged in record mode unless the boot pair serves it (R407, R412). -/
def State.takeIn (s : State) (source : Nat) (a : Access) : State :=
  let at' := s.admission source
  let s1 := if replayBlock a then s else s.logAppend (at' - s.rpl.epoch) source 0 (accessPayload a)
  { s1 with rpl := { s1.rpl with arrivals := s1.rpl.arrivals ++ [⟨source, a, at'⟩], stamped := (at', source) } }

/-- ARRIVAL_ADMIT (R407, R409, R412, R413, R416): nothing is admitted while the package is frozen or its clock
stands, but the boot pair serves its blocks; in replay the links are ignored; a full log may freeze the package. -/
def execArrivalAdmit (source : Nat) (access : Access) (s : State) : Result :=
  if s.rpl.frozen || s.fleet.clockStopped || s.boot.lockstep then
    .next (if bootServed access then (s.serve source access).getD s else s)
  else if s.replaying && !replayBlock access then .next s
  else if !replayBlock access && !s.logRoom (accessPayload access) then .next s.logFull
  else .next (s.takeIn source access)

/-- Cycles from admission to presentation (R407); a write to the replay block that is no arrival takes effect one later
(R409). -/
def presentDelay (a : Access) : Nat :=
  match a with
  | .bar0Write .. => if replayBlock a then 33 else 32
  | _ => 32

/-- The arrival to present: the oldest, once due; while frozen the boot pair's oldest, at once (R407, R409, R416). -/
def State.nextArrival (s : State) : Option Arrival :=
  if s.rpl.frozen then s.rpl.arrivals.find? fun a => replayBlock a.access
  else
    match s.rpl.arrivals with
    | [] => none
    | a :: _ => if s.fleet.clockStopped || decide (s.cycle < a.cycle + presentDelay a.access) then none else some a

/-- ARRIVAL_PRESENT (R407). -/
def execArrivalPresent (s : State) : Result :=
  match s.nextArrival with
  | none => .next s
  | some a =>
    .next (({ s with rpl := { s.rpl with arrivals := s.rpl.arrivals.erase a } }.serve a.source a.access).getD s)

/-- Whether a record of the log is one (R411): its source and its check. -/
def State.logValid (s : State) (r : LogView) : Bool :=
  decide (203 ≤ r.source) && decide (r.source ≤ 221)
    && s.mem.read (s.rpl.base * 2 ^ 30 + s.rpl.head) r.size == logRecord r.cycle r.source r.kind r.payload

/-- A replayed record's effect (R411, R413). -/
def State.replayRecord (s : State) (r : LogView) : Option State :=
  match r.kind with
  | 0 =>
    match accessOf r.payload with
    | some a => s.serve r.source a
    | none => some s
  | 1 =>
    let cxl := r.source == 204
    if blk r.payload 0 1 = 1 then some (s.gainLink cxl (blk r.payload 1 1) (blk r.payload 2 1 == 1)) else some (s.loseLink cxl)
  | _ => some s

/-- LOG_RECORD_PRESENT (R413): the record at HEAD, once due. -/
def execLogRecordPresent (s : State) : Result :=
  let r := s.logAt s.rpl.head
  if !s.replaying || s.rpl.frozen || decide (logRegion ≤ s.rpl.head) || !s.logValid r
    || (r.kind != 2 && decide (s.cycle < s.rpl.epoch + r.cycle + 32)) then .next s
  else
    .next (({ s with rpl := { s.rpl with head := s.rpl.head + r.size } }.replayRecord r).getD s)

end Sys2Proof.Machine
end

