-- ==== Sys2Proof/Machine/Dispatch.lean ====
section
/-! DEFINITION. The dispatch of an instruction or other step to its meaning: one arm per constructor. -/

namespace Sys2Proof.Machine

def exec (i : Instr) (s : State) : Host.Outcome State Fault Refusal :=
  match i with
  | .addI32 g d a b => Sys2Proof.Machine.execAddI32 g d a b s
  | .subI32 g d a b => Sys2Proof.Machine.execSubI32 g d a b s
  | .addN32 g d a b => Sys2Proof.Machine.execAddN32 g d a b s
  | .subN32 g d a b => Sys2Proof.Machine.execSubN32 g d a b s
  | .and32 g d a b => Sys2Proof.Machine.execAnd32 g d a b s
  | .or32 g d a b => Sys2Proof.Machine.execOr32 g d a b s
  | .xor32 g d a b => Sys2Proof.Machine.execXor32 g d a b s
  | .andn g d a b => Sys2Proof.Machine.execAndn g d a b s
  | .shl32 g d a b => Sys2Proof.Machine.execShl32 g d a b s
  | .shr32 g d a b => Sys2Proof.Machine.execShr32 g d a b s
  | .sha32 g d a b => Sys2Proof.Machine.execSha32 g d a b s
  | .rot32 g d a b => Sys2Proof.Machine.execRot32 g d a b s
  | .min32 g d a b => Sys2Proof.Machine.execMin32 g d a b s
  | .max32 g d a b => Sys2Proof.Machine.execMax32 g d a b s
  | .minu32 g d a b => Sys2Proof.Machine.execMinu32 g d a b s
  | .maxu32 g d a b => Sys2Proof.Machine.execMaxu32 g d a b s
  | .addImm g d a m => Sys2Proof.Machine.execAddImm g d a m s
  | .addI64 g d a b => Sys2Proof.Machine.execAddI64 g d a b s
  | .subI64 g d a b => Sys2Proof.Machine.execSubI64 g d a b s
  | .addN64 g d a b => Sys2Proof.Machine.execAddN64 g d a b s
  | .subN64 g d a b => Sys2Proof.Machine.execSubN64 g d a b s
  | .and64 g d a b => Sys2Proof.Machine.execAnd64 g d a b s
  | .or64 g d a b => Sys2Proof.Machine.execOr64 g d a b s
  | .xor64 g d a b => Sys2Proof.Machine.execXor64 g d a b s
  | .shl64 g d a b => Sys2Proof.Machine.execShl64 g d a b s
  | .shr64 g d a b => Sys2Proof.Machine.execShr64 g d a b s
  | .sha64 g d a b => Sys2Proof.Machine.execSha64 g d a b s
  | .min64 g d a b => Sys2Proof.Machine.execMin64 g d a b s
  | .max64 g d a b => Sys2Proof.Machine.execMax64 g d a b s
  | .minu64 g d a b => Sys2Proof.Machine.execMinu64 g d a b s
  | .maxu64 g d a b => Sys2Proof.Machine.execMaxu64 g d a b s
  | .mullo64 g d a b => Sys2Proof.Machine.execMullo64 g d a b s
  | .rot64 g d a b => Sys2Proof.Machine.execRot64 g d a b s
  | .mov g x y => Sys2Proof.Machine.execMov g x y s
  | .clz g x y => Sys2Proof.Machine.execClz g x y s
  | .popc g x y => Sys2Proof.Machine.execPopc g x y s
  | .brev g x y => Sys2Proof.Machine.execBrev g x y s
  | .abs g x y => Sys2Proof.Machine.execAbs g x y s
  | .shl32Imm g x y m => Sys2Proof.Machine.execShl32Imm g x y m s
  | .shr32Imm g x y m => Sys2Proof.Machine.execShr32Imm g x y m s
  | .sha32Imm g x y m => Sys2Proof.Machine.execSha32Imm g x y m s
  | .rot32Imm g x y m => Sys2Proof.Machine.execRot32Imm g x y m s
  | .mov64 g x y => Sys2Proof.Machine.execMov64 g x y s
  | .shl64Imm g x y m => Sys2Proof.Machine.execShl64Imm g x y m s
  | .shr64Imm g x y m => Sys2Proof.Machine.execShr64Imm g x y m s
  | .sha64Imm g x y m => Sys2Proof.Machine.execSha64Imm g x y m s
  | .rot64Imm g x y m => Sys2Proof.Machine.execRot64Imm g x y m s
  | .mullo g d a b => Sys2Proof.Machine.execMullo g d a b s
  | .mulhi g d a b => Sys2Proof.Machine.execMulhi g d a b s
  | .mulhu g d a b => Sys2Proof.Machine.execMulhu g d a b s
  | .mad g d a b => Sys2Proof.Machine.execMad g d a b s
  | .madWide g d a b => Sys2Proof.Machine.execMadWide g d a b s
  | .lea g d a b => Sys2Proof.Machine.execLea g d a b s
  | .bfx g d a b => Sys2Proof.Machine.execBfx g d a b s
  | .bfi g d a b => Sys2Proof.Machine.execBfi g d a b s
  | .sel g d a b n => Sys2Proof.Machine.execSel g d a b n s
  | .div g d a b => Sys2Proof.Machine.execDiv g d a b s
  | .divu g d a b => Sys2Proof.Machine.execDivu g d a b s
  | .rem g d a b => Sys2Proof.Machine.execRem g d a b s
  | .remu g d a b => Sys2Proof.Machine.execRemu g d a b s
  | .div64 g d a b => Sys2Proof.Machine.execDiv64 g d a b s
  | .divu64 g d a b => Sys2Proof.Machine.execDivu64 g d a b s
  | .rem64 g d a b => Sys2Proof.Machine.execRem64 g d a b s
  | .remu64 g d a b => Sys2Proof.Machine.execRemu64 g d a b s
  | .icmpReg g x y c w p => Sys2Proof.Machine.execIcmpReg g x y c w p s
  | .icmpImm g x y c w m => Sys2Proof.Machine.execIcmpImm g x y c w m s
  | .movi g d m => Sys2Proof.Machine.execMovi g d m s
  | .movhi g d m => Sys2Proof.Machine.execMovhi g d m s
  | .pand g d a b => Sys2Proof.Machine.execPand g d a b s
  | .por g d a b => Sys2Proof.Machine.execPor g d a b s
  | .pxor g d a b => Sys2Proof.Machine.execPxor g d a b s
  | .pnot g d a => Sys2Proof.Machine.execPnot g d a s
  | .pmov g d a => Sys2Proof.Machine.execPmov g d a s
  | .voteAny g x y => Sys2Proof.Machine.execVoteAny g x y s
  | .voteAll g x y => Sys2Proof.Machine.execVoteAll g x y s
  | .ballot g x y => Sys2Proof.Machine.execBallot g x y s
  | .elect g x => Sys2Proof.Machine.execElect g x s
  | .shflIdx g x y k => Sys2Proof.Machine.execShflIdx g x y k s
  | .shflUp g x y k => Sys2Proof.Machine.execShflUp g x y k s
  | .shflDown g x y k => Sys2Proof.Machine.execShflDown g x y k s
  | .shflXor g x y k => Sys2Proof.Machine.execShflXor g x y k s
  | .shflVar g x y => Sys2Proof.Machine.execShflVar g x y s
  | .fred g x y t o => Sys2Proof.Machine.execFred g x y t o s
  | .faddF32 g d a b => Sys2Proof.Machine.execFaddF32 g d a b s
  | .fsubF32 g d a b => Sys2Proof.Machine.execFsubF32 g d a b s
  | .fmulF32 g d a b => Sys2Proof.Machine.execFmulF32 g d a b s
  | .ffmaF32 g d a b => Sys2Proof.Machine.execFfmaF32 g d a b s
  | .fminF32 g d a b => Sys2Proof.Machine.execFminF32 g d a b s
  | .fmaxF32 g d a b => Sys2Proof.Machine.execFmaxF32 g d a b s
  | .faddF64 g d a b => Sys2Proof.Machine.execFaddF64 g d a b s
  | .fsubF64 g d a b => Sys2Proof.Machine.execFsubF64 g d a b s
  | .fmulF64 g d a b => Sys2Proof.Machine.execFmulF64 g d a b s
  | .ffmaF64 g d a b => Sys2Proof.Machine.execFfmaF64 g d a b s
  | .fminF64 g d a b => Sys2Proof.Machine.execFminF64 g d a b s
  | .fmaxF64 g d a b => Sys2Proof.Machine.execFmaxF64 g d a b s
  | .faddF16 g d a b => Sys2Proof.Machine.execFaddF16 g d a b s
  | .fsubF16 g d a b => Sys2Proof.Machine.execFsubF16 g d a b s
  | .fmulF16 g d a b => Sys2Proof.Machine.execFmulF16 g d a b s
  | .ffmaF16 g d a b => Sys2Proof.Machine.execFfmaF16 g d a b s
  | .fminF16 g d a b => Sys2Proof.Machine.execFminF16 g d a b s
  | .fmaxF16 g d a b => Sys2Proof.Machine.execFmaxF16 g d a b s
  | .faddBf16 g d a b => Sys2Proof.Machine.execFaddBf16 g d a b s
  | .fsubBf16 g d a b => Sys2Proof.Machine.execFsubBf16 g d a b s
  | .fmulBf16 g d a b => Sys2Proof.Machine.execFmulBf16 g d a b s
  | .ffmaBf16 g d a b => Sys2Proof.Machine.execFfmaBf16 g d a b s
  | .fminBf16 g d a b => Sys2Proof.Machine.execFminBf16 g d a b s
  | .fmaxBf16 g d a b => Sys2Proof.Machine.execFmaxBf16 g d a b s
  | .fcmp g x y p c t => Sys2Proof.Machine.execFcmp g x y p c t s
  | .fdivF32 g d a b => Sys2Proof.Machine.execFdivF32 g d a b s
  | .fsqrtF32 g d a => Sys2Proof.Machine.execFsqrtF32 g d a s
  | .frcpF32 g d a => Sys2Proof.Machine.execFrcpF32 g d a s
  | .frsq g d a => Sys2Proof.Machine.execFrsq g d a s
  | .fex2 g d a => Sys2Proof.Machine.execFex2 g d a s
  | .flg2 g d a => Sys2Proof.Machine.execFlg2 g d a s
  | .froundF32 g d a => Sys2Proof.Machine.execFroundF32 g d a s
  | .fclassF32 g d a => Sys2Proof.Machine.execFclassF32 g d a s
  | .fdivF64 g d a b => Sys2Proof.Machine.execFdivF64 g d a b s
  | .fsqrtF64 g d a => Sys2Proof.Machine.execFsqrtF64 g d a s
  | .frcpF64 g d a => Sys2Proof.Machine.execFrcpF64 g d a s
  | .froundF64 g d a => Sys2Proof.Machine.execFroundF64 g d a s
  | .fclassF64 g d a => Sys2Proof.Machine.execFclassF64 g d a s
  | .fclassF16 g d a => Sys2Proof.Machine.execFclassF16 g d a s
  | .fclassBf16 g d a => Sys2Proof.Machine.execFclassBf16 g d a s
  | .fcvt g x y t sat => Sys2Proof.Machine.execFcvt g x y t sat s
  | .sxpack g x y f => Sys2Proof.Machine.execSxpack g x y f s
  | .sxunpack g x y f t => Sys2Proof.Machine.execSxunpack g x y f t s
  | .bra g m => Sys2Proof.Machine.execBra g m s
  | .call g m => Sys2Proof.Machine.execCall g m s
  | .brx g x => Sys2Proof.Machine.execBrx g x s
  | .callx g x => Sys2Proof.Machine.execCallx g x s
  | .ret g => Sys2Proof.Machine.execRet g s
  | .exit g => Sys2Proof.Machine.execExit g s
  | .yield g => Sys2Proof.Machine.execYield g s
  | .trap g c => Sys2Proof.Machine.execTrap g c s
  | .bkpt g c => Sys2Proof.Machine.execBkpt g c s
  | .eret g => Sys2Proof.Machine.execEret g s
  | .launch g y => Sys2Proof.Machine.execLaunch g y s
  | .ldN8 g d b o => Sys2Proof.Machine.execLdN8 g d b o s
  | .ldI8 g d b o => Sys2Proof.Machine.execLdI8 g d b o s
  | .ldN16 g d b o => Sys2Proof.Machine.execLdN16 g d b o s
  | .ldI16 g d b o => Sys2Proof.Machine.execLdI16 g d b o s
  | .ld32 g d b o => Sys2Proof.Machine.execLd32 g d b o s
  | .ld64 g d b o => Sys2Proof.Machine.execLd64 g d b o s
  | .ld128 g d b o => Sys2Proof.Machine.execLd128 g d b o s
  | .st8 g d b o => Sys2Proof.Machine.execSt8 g d b o s
  | .st16 g d b o => Sys2Proof.Machine.execSt16 g d b o s
  | .st32 g d b o => Sys2Proof.Machine.execSt32 g d b o s
  | .st64 g d b o => Sys2Proof.Machine.execSt64 g d b o s
  | .st128 g d b o => Sys2Proof.Machine.execSt128 g d b o s
  | .ldk g x y w o => Sys2Proof.Machine.execLdk g x y w o s
  | .stk g x y w o => Sys2Proof.Machine.execStk g x y w o s
  | .atomAdd g x y w r => Sys2Proof.Machine.execAtomAdd g x y w r s
  | .atomMin g x y w r => Sys2Proof.Machine.execAtomMin g x y w r s
  | .atomMax g x y w r => Sys2Proof.Machine.execAtomMax g x y w r s
  | .atomMinu g x y w r => Sys2Proof.Machine.execAtomMinu g x y w r s
  | .atomMaxu g x y w r => Sys2Proof.Machine.execAtomMaxu g x y w r s
  | .atomAnd g x y w r => Sys2Proof.Machine.execAtomAnd g x y w r s
  | .atomOr g x y w r => Sys2Proof.Machine.execAtomOr g x y w r s
  | .atomXor g x y w r => Sys2Proof.Machine.execAtomXor g x y w r s
  | .atomXchg g x y w r => Sys2Proof.Machine.execAtomXchg g x y w r s
  | .atomCas g x y w r => Sys2Proof.Machine.execAtomCas g x y w r s
  | .atomFadd g x y r => Sys2Proof.Machine.execAtomFadd g x y r s
  | .scadd g x y t => Sys2Proof.Machine.execScadd g x y t s
  | .binapp g x y => Sys2Proof.Machine.execBinapp g x y s
  | .mcastLd g x y => Sys2Proof.Machine.execMcastLd g x y s
  | .prefetch g y l => Sys2Proof.Machine.execPrefetch g y l s
  | .cctlIinv g y => Sys2Proof.Machine.execCctlIinv g y s
  | .cctlL1inv g y => Sys2Proof.Machine.execCctlL1inv g y s
  | .cctlL2wb g y => Sys2Proof.Machine.execCctlL2wb g y s
  | .cctlL2inv g y => Sys2Proof.Machine.execCctlL2inv g y s
  | .fence g sat => Sys2Proof.Machine.execFence g sat s
  | .rput g x y m => Sys2Proof.Machine.execRput g x y m s
  | .calloc g x sat => Sys2Proof.Machine.execCalloc g x sat s
  | .cfree g y => Sys2Proof.Machine.execCfree g y s
  | .cread g x y => Sys2Proof.Machine.execCread g x y s
  | .ctest g x y p => Sys2Proof.Machine.execCtest g x y p s
  | .caddReg g x y => Sys2Proof.Machine.execCaddReg g x y s
  | .caddImm g y m => Sys2Proof.Machine.execCaddImm g y m s
  | .caddrReg g x y => Sys2Proof.Machine.execCaddrReg g x y s
  | .caddrImm g x y m => Sys2Proof.Machine.execCaddrImm g x y m s
  | .cwait g x y => Sys2Proof.Machine.execCwait g x y s
  | .cwaitTo g x y p => Sys2Proof.Machine.execCwaitTo g x y p s
  | .waite g c k => Sys2Proof.Machine.execWaite g c k s
  | .xcopy g y => Sys2Proof.Machine.execXcopy g y s
  | .xcopyK g => Sys2Proof.Machine.execXcopyK g s
  | .mxcmd g y => Sys2Proof.Machine.execMxcmd g y s
  | .mxcmdK g => Sys2Proof.Machine.execMxcmdK g s
  | .mxtab g y t => Sys2Proof.Machine.execMxtab g y t s
  | .accld g x y => Sys2Proof.Machine.execAccld g x y s
  | .accst g x y => Sys2Proof.Machine.execAccst g x y s
  | .obres g y r => Sys2Proof.Machine.execObres g y r s
  | .obrel g r => Sys2Proof.Machine.execObrel g r s
  | .collAllreduce g y => Sys2Proof.Machine.execCollAllreduce g y s
  | .collReducescatter g y => Sys2Proof.Machine.execCollReducescatter g y s
  | .collAllgather g y => Sys2Proof.Machine.execCollAllgather g y s
  | .collGather g y => Sys2Proof.Machine.execCollGather g y s
  | .collScatter g y => Sys2Proof.Machine.execCollScatter g y s
  | .collAlltoall g y => Sys2Proof.Machine.execCollAlltoall g y s
  | .atomr g x y r => Sys2Proof.Machine.execAtomr g x y r s
  | .sseed n m => Sys2Proof.Machine.execSseed n m s
  | .sgen d sat n => Sys2Proof.Machine.execSgen d sat n s
  | .sgenk d sat n => Sys2Proof.Machine.execSgenk d sat n s
  | .slen l => Sys2Proof.Machine.execSlen l s
  | .sand d a b => Sys2Proof.Machine.execSand d a b s
  | .sxnor d a b => Sys2Proof.Machine.execSxnor d a b s
  | .sor d a b => Sys2Proof.Machine.execSor d a b s
  | .ssub d a b => Sys2Proof.Machine.execSsub d a b s
  | .smin d a b => Sys2Proof.Machine.execSmin d a b s
  | .smax d a b => Sys2Proof.Machine.execSmax d a b s
  | .snot d a => Sys2Proof.Machine.execSnot d a s
  | .smux d a b sat => Sys2Proof.Machine.execSmux d a b sat s
  | .scnt a sat => Sys2Proof.Machine.execScnt a sat s
  | .sdot a b sat => Sys2Proof.Machine.execSdot a b sat s
  | .sregen d a n => Sys2Proof.Machine.execSregen d a n s
  | .stag a sat => Sys2Proof.Machine.execStag a sat s
  | .smov d a => Sys2Proof.Machine.execSmov d a s
  | .srot d a m => Sys2Proof.Machine.execSrot d a m s
  | .csrr g x n => Sys2Proof.Machine.execCsrr g x n s
  | .csrw g y n => Sys2Proof.Machine.execCsrw g y n s
  | .svc g y n => Sys2Proof.Machine.execSvc g y n s
  | .spillf g => Sys2Proof.Machine.execSpillf g s
  | .fillf g => Sys2Proof.Machine.execFillf g s
  | .tlbi g y => Sys2Proof.Machine.execTlbi g y s
  | .ctxsave g y => Sys2Proof.Machine.execCtxsave g y s
  | .ctxload g y => Sys2Proof.Machine.execCtxload g y s
  | .immx p => Sys2Proof.Machine.execImmx p s
  | .modx p v c sat r => Sys2Proof.Machine.execModx p v c sat r s
  | .sched p => Sys2Proof.Machine.execSched p s
  | .tgt l => Sys2Proof.Machine.execTgt l s
  | .converge j => Sys2Proof.Machine.execConverge j s
  | .undefinedHint k p => Sys2Proof.Machine.execUndefinedHint k p s
  | .instructionFetch slot => Sys2Proof.Machine.execInstructionFetch slot s
  | .progressCountExpiry sub => Sys2Proof.Machine.execProgressCountExpiry sub s
  | .progressIssueCountExpiry sub => Sys2Proof.Machine.execProgressIssueCountExpiry sub s
  | .issueBudgetExpiry sub => Sys2Proof.Machine.execIssueBudgetExpiry sub s
  | .mailboxDelivery id => Sys2Proof.Machine.execMailboxDelivery id s
  | .storeFifoSend slot => Sys2Proof.Machine.execStoreFifoSend slot s
  | .storeAck id => Sys2Proof.Machine.execStoreAck id s
  | .loadResponse id => Sys2Proof.Machine.execLoadResponse id s
  | .eretRecordReturn slot => Sys2Proof.Machine.execEretRecordReturn slot s
  | .launchRecordReturn slot => Sys2Proof.Machine.execLaunchRecordReturn slot s
  | .fillfReturn slot => Sys2Proof.Machine.execFillfReturn slot s
  | .postingEnd slot => Sys2Proof.Machine.execPostingEnd slot s
  | .ctxBlockReturn slot => Sys2Proof.Machine.execCtxBlockReturn slot s
  | .counterHomeAdd slot id => Sys2Proof.Machine.execCounterHomeAdd slot id s
  | .counterHomeAlloc slot id => Sys2Proof.Machine.execCounterHomeAlloc slot id s
  | .counterHomeFree slot id => Sys2Proof.Machine.execCounterHomeFree slot id s
  | .counterHomeRead slot id => Sys2Proof.Machine.execCounterHomeRead slot id s
  | .counterWaiterRegister slot id => Sys2Proof.Machine.execCounterWaiterRegister slot id s
  | .overflowCounterApply die => Sys2Proof.Machine.execOverflowCounterApply die s
  | .counterWake id => Sys2Proof.Machine.execCounterWake id s
  | .counterAnswer id => Sys2Proof.Machine.execCounterAnswer id s
  | .cwaitTimeout slot lane => Sys2Proof.Machine.execCwaitTimeout slot lane s
  | .pollerRecheck slot lane => Sys2Proof.Machine.execPollerRecheck slot lane s
  | .ltsTick => Sys2Proof.Machine.execLtsTick s
  | .pageWalk slot lane va kind => Sys2Proof.Machine.execPageWalk slot lane va kind s
  | .sliceRequest slice => Sys2Proof.Machine.execSliceRequest slice s
  | .lineFill slice line victim => Sys2Proof.Machine.execLineFill slice line victim s
  | .sliceAtomic slice => Sys2Proof.Machine.execSliceAtomic slice s
  | .atomrRoutine slice => Sys2Proof.Machine.execAtomrRoutine slice s
  | .deckRequest core => Sys2Proof.Machine.execDeckRequest core s
  | .multicastResponse slice => Sys2Proof.Machine.execMulticastResponse slice s
  | .relayBeat core => Sys2Proof.Machine.execRelayBeat core s
  | .nack core id => Sys2Proof.Machine.execNack core id s
  | .retryResend core id => Sys2Proof.Machine.execRetryResend core id s
  | .remapNack core id => Sys2Proof.Machine.execRemapNack core id s
  | .mapActivate die => Sys2Proof.Machine.execMapActivate die s
  | .sliceRetireComplete slice => Sys2Proof.Machine.execSliceRetireComplete slice s
  | .slicePowerDown slice => Sys2Proof.Machine.execSlicePowerDown slice s
  | .copyCommandStart core chan => Sys2Proof.Machine.execCopyCommandStart core chan s
  | .copyCommandComplete core chan => Sys2Proof.Machine.execCopyCommandComplete core chan s
  | .carouselItemStart core chan => Sys2Proof.Machine.execCarouselItemStart core chan s
  | .carouselItemDone core chan => Sys2Proof.Machine.execCarouselItemDone core chan s
  | .mxtabLoad core => Sys2Proof.Machine.execMxtabLoad core s
  | .mxcmdStart core => Sys2Proof.Machine.execMxcmdStart core s
  | .mxcmdComplete core => Sys2Proof.Machine.execMxcmdComplete core s
  | .matrixSplitStop core tile kdone => Sys2Proof.Machine.execMatrixSplitStop core tile kdone s
  | .engineSplitStop core => Sys2Proof.Machine.execEngineSplitStop core s
  | .collectiveStart group seq => Sys2Proof.Machine.execCollectiveStart group seq s
  | .collectiveComplete die group => Sys2Proof.Machine.execCollectiveComplete die group s
  | .collectiveStallTimeout die group => Sys2Proof.Machine.execCollectiveStallTimeout die group s
  | .streamOpStart core => Sys2Proof.Machine.execStreamOpStart core s
  | .launchRecordCheck => Sys2Proof.Machine.execLaunchRecordCheck s
  | .gridStart serial => Sys2Proof.Machine.execGridStart serial s
  | .gridDependenceStale serial => Sys2Proof.Machine.execGridDependenceStale serial s
  | .teamDispatch => Sys2Proof.Machine.execTeamDispatch s
  | .teamRestore => Sys2Proof.Machine.execTeamRestore s
  | .teamPark serial team => Sys2Proof.Machine.execTeamPark serial team s
  | .crewRelease slot => Sys2Proof.Machine.execCrewRelease slot s
  | .gridRetire serial => Sys2Proof.Machine.execGridRetire serial s
  | .sliceExpiry ctx => Sys2Proof.Machine.execSliceExpiry ctx s
  | .preemptCore core => Sys2Proof.Machine.execPreemptCore core s
  | .crewSave slot => Sys2Proof.Machine.execCrewSave slot s
  | .imageComplete ctx => Sys2Proof.Machine.execImageComplete ctx s
  | .coreContextClear core => Sys2Proof.Machine.execCoreContextClear core s
  | .clusterPowerGate cluster => Sys2Proof.Machine.execClusterPowerGate cluster s
  | .qcfgWrite q value => Sys2Proof.Machine.execQcfgWrite q value s
  | .contextRegisterWrite ctx off value => Sys2Proof.Machine.execContextRegisterWrite ctx off value s
  | .contextTransWrite ctx off value => Sys2Proof.Machine.execContextTransWrite ctx off value s
  | .kick q value => Sys2Proof.Machine.execKick q value s
  | .kickEnqueue q => Sys2Proof.Machine.execKickEnqueue q s
  | .launchWindowTrigger q wslot record => Sys2Proof.Machine.execLaunchWindowTrigger q wslot record s
  | .registerWrite off value => Sys2Proof.Machine.execRegisterWrite off value s
  | .counterWindowReadValue die index => Sys2Proof.Machine.execCounterWindowReadValue die index s
  | .counterWindowReadStatus die index => Sys2Proof.Machine.execCounterWindowReadStatus die index s
  | .counterWindowAdd die index value => Sys2Proof.Machine.execCounterWindowAdd die index value s
  | .hostMemRead addr size => Sys2Proof.Machine.execHostMemRead addr size s
  | .hostMemWrite addr data => Sys2Proof.Machine.execHostMemWrite addr data s
  | .snpcur line => Sys2Proof.Machine.execSnpcur line s
  | .snpdata line => Sys2Proof.Machine.execSnpdata line s
  | .snpinv line => Sys2Proof.Machine.execSnpinv line s
  | .pcieCompletion id ok data => Sys2Proof.Machine.execPcieCompletion id ok data s
  | .completionTimeout id => Sys2Proof.Machine.execCompletionTimeout id s
  | .pflush => Sys2Proof.Machine.execPflush s
  | .cxlflush => Sys2Proof.Machine.execCxlflush s
  | .linkDown cxl => Sys2Proof.Machine.execLinkDown cxl s
  | .linkstatClear value => Sys2Proof.Machine.execLinkstatClear value s
  | .wrst => Sys2Proof.Machine.execWrst s
  | .rverify => Sys2Proof.Machine.execRverify s
  | .resetRelease slotA slotB => Sys2Proof.Machine.execResetRelease slotA slotB s
  | .lockstepMismatch => Sys2Proof.Machine.execLockstepMismatch s
  | .epoch => Sys2Proof.Machine.execEpoch s
  | .spdmRequest request => Sys2Proof.Machine.execSpdmRequest request s
  | .lockInterfaceRequest nonce => Sys2Proof.Machine.execLockInterfaceRequest nonce s
  | .startInterfaceRequest nonce => Sys2Proof.Machine.execStartInterfaceRequest nonce s
  | .stopInterfaceRequest => Sys2Proof.Machine.execStopInterfaceRequest s
  | .getDeviceInterfaceReport => Sys2Proof.Machine.execGetDeviceInterfaceReport s
  | .ideFailure stream => Sys2Proof.Machine.execIdeFailure stream s
  | .flr => Sys2Proof.Machine.execFlr s
  | .arrivalAdmit source access => Sys2Proof.Machine.execArrivalAdmit source access s
  | .arrivalPresent => Sys2Proof.Machine.execArrivalPresent s
  | .logRecordPresent => Sys2Proof.Machine.execLogRecordPresent s
  | .egressDigestCheck source => Sys2Proof.Machine.execEgressDigestCheck source s
  | .freeze => Sys2Proof.Machine.execFreeze s
  | .xmodeWrite value => Sys2Proof.Machine.execXmodeWrite value s
  | .rplctlWrite value => Sys2Proof.Machine.execRplctlWrite value s
  | .scanOut haddr => Sys2Proof.Machine.execScanOut haddr s
  | .scanIn haddr => Sys2Proof.Machine.execScanIn haddr s
  | .release => Sys2Proof.Machine.execRelease s
  | .scanComplete => Sys2Proof.Machine.execScanComplete s
  | .synccmd value => Sys2Proof.Machine.execSynccmd value s
  | .sync t1 => Sys2Proof.Machine.execSync t1 s
  | .dreq t4 => Sys2Proof.Machine.execDreq t4 s
  | .samplePoint => Sys2Proof.Machine.execSamplePoint s
  | .powerWindow meanWatts => Sys2Proof.Machine.execPowerWindow meanWatts s
  | .thermalStop temps => Sys2Proof.Machine.execThermalStop temps s
  | .thermalRestart temps => Sys2Proof.Machine.execThermalRestart temps s
  | .thermtrip => Sys2Proof.Machine.execThermtrip s
  | .flitCrcResend port => Sys2Proof.Machine.execFlitCrcResend port s
  | .portStateChange port state peer => Sys2Proof.Machine.execPortStateChange port state peer s
  | .counterNotification id => Sys2Proof.Machine.execCounterNotification id s
  | .info => Sys2Proof.Machine.execInfo s
  | .setmod => Sys2Proof.Machine.execSetmod s
  | .nop => Sys2Proof.Machine.execNop s
  | .ping => Sys2Proof.Machine.execPing s
  | .arena => Sys2Proof.Machine.execArena s
  | .alloc => Sys2Proof.Machine.execAlloc s
  | .free => Sys2Proof.Machine.execFree s
  | .aquery => Sys2Proof.Machine.execAquery s
  | .areset => Sys2Proof.Machine.execAreset s
  | .slog => Sys2Proof.Machine.execSlog s
  | .svcCalloc => Sys2Proof.Machine.execSvcCalloc s
  | .svcCfree => Sys2Proof.Machine.execSvcCfree s
  | .cnotify => Sys2Proof.Machine.execCnotify s
  | .ccancel => Sys2Proof.Machine.execCcancel s
  | .ovfpages => Sys2Proof.Machine.execOvfpages s
  | .cinfo => Sys2Proof.Machine.execCinfo s
  | .evring => Sys2Proof.Machine.execEvring s
  | .evpost => Sys2Proof.Machine.execEvpost s
  | .trapfwd => Sys2Proof.Machine.execTrapfwd s
  | .evflush => Sys2Proof.Machine.execEvflush s
  | .evvec => Sys2Proof.Machine.execEvvec s
  | .evmask => Sys2Proof.Machine.execEvmask s
  | .fltans => Sys2Proof.Machine.execFltans s
  | .dbgatt => Sys2Proof.Machine.execDbgatt s
  | .dbgdet => Sys2Proof.Machine.execDbgdet s
  | .dbgres => Sys2Proof.Machine.execDbgres s
  | .ctxkill => Sys2Proof.Machine.execCtxkill s
  | .tlbinv => Sys2Proof.Machine.execTlbinv s
  | .rtninst => Sys2Proof.Machine.execRtninst s
  | .rtndel => Sys2Proof.Machine.execRtndel s
  | .grpdef => Sys2Proof.Machine.execGrpdef s
  | .grpdel => Sys2Proof.Machine.execGrpdel s
  | .grpcancel => Sys2Proof.Machine.execGrpcancel s
  | .rport => Sys2Proof.Machine.execRport s
  | .mapset => Sys2Proof.Machine.execMapset s
  | .slretire => Sys2Proof.Machine.execSlretire s
  | .rasread => Sys2Proof.Machine.execRasread s
  | .rasclr => Sys2Proof.Machine.execRasclr s
  | .smpstart => Sys2Proof.Machine.execSmpstart s
  | .smpstop => Sys2Proof.Machine.execSmpstop s
  | .pwrcap => Sys2Proof.Machine.execPwrcap s
  | .therm => Sys2Proof.Machine.execTherm s
  | .rplcfg => Sys2Proof.Machine.execRplcfg s
  | .stopset => Sys2Proof.Machine.execStopset s
  | .attmeas => Sys2Proof.Machine.execAttmeas s
  | .attsign => Sys2Proof.Machine.execAttsign s
  | .tdireport => Sys2Proof.Machine.execTdireport s
  | .fwstage => Sys2Proof.Machine.execFwstage s
  | .undefinedWord w => Sys2Proof.Machine.execUndefinedWord w s
  | .linkUp cxl gen x8 => Sys2Proof.Machine.execLinkUp cxl gen x8 s
  | .perstAssert => Sys2Proof.Machine.execPerstAssert s
  | .powerLoss => Sys2Proof.Machine.execPowerLoss s
  | .hcall value => Sys2Proof.Machine.execHcall value s
  | .badcall => Sys2Proof.Machine.execBadcall s
  | .fusedMinimumRaise svn => Sys2Proof.Machine.execFusedMinimumRaise svn s
  | .lpddrRefresh mdie => Sys2Proof.Machine.execLpddrRefresh mdie s
  | .softError site corrected => Sys2Proof.Machine.execSoftError site corrected s

end Sys2Proof.Machine
end

