-- ==== Sys2Proof/Machine/Sched.lean ====
section
/-! DEFINITION. When a step of the table may happen (R391, R399, R415, R437), and the order the model tries the
package's own steps in when its agenda names none (log 1): the units' steps first, then the issue of the crew
whose waiting period began earliest (R43). -/

namespace Sys2Proof.Machine

/-! ## When a step may happen -/

/-- Steps of the board, the boot pair and the management port, which need no running package. -/
def outsideStep : Instr → Bool
  | .resetRelease _ _ | .perstAssert | .powerLoss | .lockstepMismatch | .thermtrip | .thermalStop _ | .thermalRestart _
  | .powerWindow _ | .fusedMinimumRaise _ | .spdmRequest _ | .lockInterfaceRequest _ | .startInterfaceRequest _
  | .stopInterfaceRequest | .getDeviceInterfaceReport | .ideFailure _ | .flr | .arrivalAdmit _ _ | .arrivalPresent
  | .wrst | .rverify | .linkstatClear _ | .pflush | .rplctlWrite _ | .scanOut _ | .scanIn _ | .release
  | .scanComplete => true
  | .registerWrite off _ =>
    decide (off < 0x1000) || (decide (barReplay ≤ off) && decide (off < barReplay + 0x100000) && off != barReplay + 0x28)
  | _ => false

/-- Steps of the host's other accesses, of the links and of the package's clockwork, which no TDISP error stops. -/
def hostStep : Instr → Bool
  | .qcfgWrite _ _ | .contextRegisterWrite _ _ _ | .contextTransWrite _ _ _ | .kick _ _ | .launchWindowTrigger _ _ _
  | .registerWrite _ _ | .counterWindowReadValue _ _ | .counterWindowReadStatus _ _ | .counterWindowAdd _ _ _
  | .hostMemRead _ _ | .hostMemWrite _ _ | .snpcur _ | .snpdata _ | .snpinv _ | .cxlflush | .hcall _ | .xmodeWrite _
  | .synccmd _ | .sync _ | .dreq _ | .flitCrcResend _ | .portStateChange _ _ _ | .softError _ _ | .lpddrRefresh _
  | .freeze | .epoch | .logRecordPresent | .egressDigestCheck _ => true
  | _ => false

/-- The loss and return of a host link, stamped by a Turnstile whose clock runs (R352, R416). -/
def linkStep : Instr → Bool
  | .linkDown _ | .linkUp _ _ _ => true
  | _ => false

/-- Whether a step is a word of the instruction set, which only a crew's issue runs. -/
def wordStep (i : Instr) : Bool :=
  (encodeNat i).isSome || match i with
    | .undefinedWord _ | .undefinedHint _ _ => true
    | _ => false

/-- Whether a step other than an issue may happen in the present state: board and boot pair always; a frozen or
stopped package does nothing else (R415, R416, R437); links; then, once boot is complete (R391), the host and the
clockwork, and, outside ERROR (R399), everything. -/
def State.allows (s : State) (i : Instr) : Bool :=
  if wordStep i then false
  else if outsideStep i then true
  else if s.rpl.frozen || s.fleet.clockStopped then false
  else if linkStep i then true
  else if s.boot.stage != 0 then false
  else hostStep i || s.boot.tdi != .error

/-- What a halted package still takes after a lock-step mismatch (R391): reset, and reads of the identity block. -/
def haltStep : Instr → Bool
  | .perstAssert | .powerLoss | .thermtrip | .arrivalAdmit _ _ | .pflush => true
  | _ => false

/-! ## The package's own steps, in the model's order (log 1) -/

/-- The steps of a crew's slot. -/
def crewSteps (slot : Nat) (c : Crew) : List (State → Result) :=
  [execStoreFifoSend slot, execEretRecordReturn slot, execLaunchRecordReturn slot, execFillfReturn slot,
    execPostingEnd slot, execCtxBlockReturn slot]
    ++ ((c.ctrOps.map fun o => [execCounterHomeAdd slot o.id, execCounterHomeAlloc slot o.id, execCounterHomeFree slot o.id,
      execCounterHomeRead slot o.id, execCounterWaiterRegister slot o.id]).flatten)
    ++ (((c.lanesWith fun t => match t.st with
        | .waitCounter _ => true
        | _ => false).map fun l => [execCwaitTimeout slot l, execPollerRecheck slot l]).flatten)
    ++ [execCrewSave slot, execCrewRelease slot]

/-- The steps of a core. -/
def coreSteps (n : Nat) (k : Core) : List (State → Result) :=
  [execDeckRequest n, execRelayBeat n, execStreamOpStart n]
    ++ ((k.retry.map fun r => [execRetryResend n r.req.id, execRemapNack n r.req.id]).flatten)
    ++ (((upFrom 0 4).map fun c => [execCopyCommandComplete n c, execCarouselItemDone n c, execCarouselItemStart n c,
      execCopyCommandStart n c]).flatten)
    ++ [execMxtabLoad n, execMxcmdComplete n, execMxcmdStart n, execEngineSplitStop n, execPreemptCore n,
      execCoreContextClear n]
    ++ (((upFrom (4 * n) 4).map fun j => [execIssueBudgetExpiry j, execProgressCountExpiry j, execProgressIssueCountExpiry j]).flatten)

/-- The steps of a slice. -/
def sliceSteps (n : Nat) (v : Slice) : List (State → Result) :=
  [execSliceAtomic n, execAtomrRoutine n, execMulticastResponse n]
    ++ (v.mshr.map fun m => execLineFill n m.1 none)
    ++ [execSliceRequest n, execSliceRetireComplete n, execSlicePowerDown n]

/-- The steps of a C-die's shared units. -/
def dieSteps (n : Nat) (d : Die) : List (State → Result) :=
  [execOverflowCounterApply n, execMapActivate n]
    ++ ((d.collq.map fun x => [execCollectiveComplete n x.group, execCollectiveStallTimeout n x.group,
      execCollectiveStart x.group x.seq]).flatten)

/-- The steps that a message under way asks for. -/
def msgStep (id : Nat) : Msg → State → Result
  | .load .. | .atomic .. => execLoadResponse id
  | .ack .. => execStoreAck id
  | .mailbox .. => execMailboxDelivery id
  | .wake .. => execCounterWake id
  | .answer .. => execCounterAnswer id
  | .carouselWake .. | .dependenceWake .. => fun s => .next s

/-- The step of a call by its number (R386). -/
def callStep (n : Nat) : State → Result :=
  (([execInfo, execSetmod, execNop, execPing, execArena, execAlloc, execFree, execAquery, execAreset, execSlog,
    execSvcCalloc, execSvcCfree, execCnotify, execCcancel, execOvfpages, execCinfo, execEvring, execEvpost, execTrapfwd,
    execEvflush, execEvvec, execEvmask, execFltans, execDbgatt]
    ++ [execDbgdet, execDbgres, execCtxkill, execTlbinv, execRtninst, execRtndel, execGrpdef, execGrpdel, execGrpcancel,
      execRport, execMapset, execSlretire, execRasread, execRasclr, execSmpstart, execSmpstop, execPwrcap, execTherm,
      execRplcfg, execStopset, execAttmeas, execAttsign, execTdireport, execFwstage]).getD n execBadcall)

/-- The steps of the Ringmaster and the Coxswain. -/
def State.unitSteps (s : State) : List (State → Result) :=
  (s.rm.queues.map fun q => execKickEnqueue q.1)
    ++ [execLaunchRecordCheck]
    ++ ((s.rm.grids.map fun g => [execGridStart g.serial, execGridDependenceStale g.serial, execGridRetire g.serial]).flatten)
    ++ [execTeamRestore, execTeamDispatch]
    ++ (s.crews.map fun e => execTeamPark e.2.grid.toNat e.2.team)
    ++ ((s.rm.contexts.map fun x => [execSliceExpiry x.1, execImageComplete x.1]).flatten)
    ++ (s.cox.notes.map fun n => execCounterNotification n.id)
    ++ (match s.nextCall with
      | some c => [callStep c.number]
      | none => [])

/-- The steps of the Turnstiles, the replay block, the sampler and the clocks. -/
def State.clockSteps (s : State) : List (State → Result) :=
  [execFreeze, execEpoch]
    ++ (if s.rpl.active then (upFrom 203 19).map execEgressDigestCheck else [])
    ++ [execLogRecordPresent, execArrivalPresent, execScanComplete]
    ++ (if s.ticks < s.cycle / 256 then [execLtsTick] else [])
    ++ [execSamplePoint]
    ++ (s.links.pcie.map fun q => execCompletionTimeout q.id)
    ++ (s.clusters.map fun c => execClusterPowerGate c.1)

/-- Every step of the package that its own state asks for, in the model's order. -/
def State.ownSteps (s : State) : List (State → Result) :=
  s.clockSteps
    ++ (s.msgs.map fun m => msgStep m.1 m.2)
    ++ ((s.slices.map fun v => sliceSteps v.1 v.2).flatten)
    ++ ((s.cores.map fun k => coreSteps k.1 k.2).flatten)
    ++ ((s.dies.map fun d => dieSteps d.1 d.2).flatten)
    ++ ((s.crews.map fun c => crewSteps c.1 c.2).flatten)
    ++ s.unitSteps

/-- What a frozen or stopped package, or one that is not booted, still does of itself: the boot stages past the second go
on, and a verification under way ends (R391, R393). -/
def State.stillSteps (s : State) : List (State → Result) :=
  [execScanComplete, execArrivalPresent]
    ++ (if 0x83 ≤ s.boot.stage.toNat ∧ s.boot.stage.toNat ≤ 0x86 then [execResetRelease [] []] else [])
    ++ (if s.boot.rverify then [execRverify] else [])

/-- The first of some steps that changes the state. -/
def State.firstStep (s : State) : List (State → Result) → Option State
  | [] => none
  | f :: t =>
    match f s with
    | .next s1 => if s1 = s then State.firstStep s t else some s1
    | _ => State.firstStep s t

/-! ## The choice of a crew (R43) -/

/-- Whether a crew's next word is ready to issue. -/
def State.ready (s : State) (slot : Nat) : Bool :=
  match s.issueView slot with
  | .held _ => false
  | _ => true

/-- The ready crew that the model's own choice issues: of those in turn, the one whose waiting period began earliest
(R43; log 1). -/
def State.earliest (s : State) : Option Nat := earliestOf (s.crews.filter fun e => s.ready e.1)

/-- The first crew whose presentation changes the state without issuing a word: a fetch's fault, or a line or
translation fetched. -/
def State.heldChange (s : State) : Option State :=
  s.crews.findSome? fun e =>
    match s.issueView e.1 with
    | .held t => if t = s then none else some t
    | _ => none

end Sys2Proof.Machine
end

