-- ==== Sys2Proof/Machine/Step.lean ====
section
/-! DEFINITION. One step of the package: the next move of the agenda, or the model's own choice among the steps
the state asks for (log 1); and the placing of a word where a step fetches it (log 46). -/

namespace Sys2Proof.Machine

/-- What goes with every step: the lines that walkers read used at their homes (R377), the slice timers over the cycles
that passed (R333), the images of credited entries (R307), the egress digests (R414), the events whose c has come (R388). -/
def State.settle (s : State) (before : Nat) : State :=
  ((((s.useWalks).tickTimers (s.cycle - before)).syncImages).digestEgress).drainEvents

/-- A step's outcome with what goes with it. -/
def settled (before : Nat) : Result → Result
  | .next s => .next (s.settle before)
  | r => r

/-- The crew in a slot issues its next word, if nothing holds it (R42, R440). -/
def State.issue (s : State) (slot : Nat) : Result :=
  match s.issueView slot with
  | .held t => .next t
  | .word i t => exec i t
  | .undefined w t => execUndefinedWord w t

/-- A move named from outside: an issue, or a step that the present state allows. -/
def State.move (s : State) : Move → Result
  | .issue slot => s.issue slot
  | .event i => if s.allows i then exec i s else .next s

/-- Time passes while nothing else happens: not before reset release, nor while the clock stands. -/
def State.idle (s : State) : State :=
  if s.boot.stage == 0x81 || s.rpl.frozen || s.fleet.clockStopped then s else { s with cycle := s.cycle + 1 }

/-- The model's own choice of a step (log 1). -/
def State.choose (s : State) : Result :=
  if !s.running then
    match s.firstStep (if s.boot.tdi == .error then s.stillSteps ++ s.clockSteps else s.stillSteps) with
    | some t => .next t
    | none => .next s.idle
  else
    match s.firstStep s.ownSteps with
    | some t => .next t
    | none =>
      match s.heldChange with
      | some t => .next t
      | none =>
        match s.earliest with
        | some slot => s.issue slot
        | none => .next s.idle

/-- Whether a halted package takes a move: after THERMTRIP only the loss of power (R437), after a lock-step mismatch
a reset and the identity block (R391). -/
def State.halted (s : State) (m : Option Move) : Option Fault :=
  let takes (f : Instr → Bool) : Bool := match m with
    | some (.event i) => f i
    | _ => false
  if s.boot.thermtrip && !(takes fun i => match i with
    | .powerLoss => true
    | _ => false) then some .thermtripHalt
  else if s.boot.lockstep && !takes haltStep then some .lockstepHalt
  else none

/-- One step of the package. -/
def step (s : State) : Host.Outcome State Fault Refusal :=
  match s.halted s.agenda.head? with
  | some f => .fault f
  | none =>
    match s.agenda with
    | m :: rest => settled s.cycle ({ s with agenda := rest }.refresh.move m)
    | [] => settled s.cycle s.refresh.choose

/-! ## Placing a word (log 46) -/

/-- Where withFetchWord puts the code: the base of the second GiB, mapped to itself. -/
def probeBase : Nat := 0x40000000

/-- The first two GiB of virtual addresses mapped to themselves with every permission, from a level-3 table at 0
and a level-2 table at 1 MiB; then the word. -/
def probeMemory (m : Memory) (bytes : List Byte) : Memory :=
  (((m.write 0 (bytesOf 8 0x100001)).write 0x100000 (bytesOf 8 0x1F)).write 0x100008 (bytesOf 8 0x4000001F)).write probeBase bytes

/-- A thread that runs from the code base, its trap record in mapped memory. -/
def probeThread : Thread := newThread 0 0x50000040

/-- A crew whose lane 0 runs and whose other lanes have exited. -/
def probeCrew : Crew where
  grid := 0
  team := 0
  crew := 0
  nCrew := 1
  nTeam := 1
  depth := 0
  ctx := 0
  cluster := false
  ldet := false
  cb := BitVec.ofNat 64 probeBase
  trapv := some 0x1000
  deckBase := 0
  deckSize := 0x80000
  nStreams := 8
  area := 0
  threads := probeThread :: List.replicate 63 Thread.gone
  kregs := []
  utags := BitVec.allOnes 128
  ctrs := CtrHome.reset
  issued := [0, 0, 0]
  done := [0, 0, 0]
  efault := none
  lost := 0
  fifo := []
  loads := []
  ctrOps := []
  steps := []
  lts := 0
  slen := 1024
  streams := List.replicate 8 Stream.reset
  scopyLen := 1024
  scopy := List.replicate 8 (0, true)
  watch := [0, 0, 0, 0]
  join := none
  pcieWrites := false
  cmdTime := [0, 0, 0]
  early := []
  period := none
  startAt := 0
  badLanes := []
  fetched := none

/-- The state with an instruction of nbits bits w where step fetches its next instruction: a booted package, a crew
of context 0 in slot 0 of core 0 whose code the word is, and its issue as the next move. -/
def State.withFetchWord (s : State) (nbits w : Nat) : State :=
  { s with
    mem := probeMemory s.mem (bytesOfWord (BitVec.ofNat 32 (w % 2 ^ nbits)))
    crews := Cells.put s.crews 0 probeCrew
    cores := Cells.put s.cores 0 { s.core 0 with ctx := some 0, last := some 0, placed := [(0, 0, 0x80000)] }
    boot := { s.boot with stage := 0 }
    agenda := [.issue 0] }

end Sys2Proof.Machine
end

