-- ==== Sys2Proof/Safety.lean ====
section
/-! DEFINITION. The terms the claims use: what a safe run keeps (canonical memories, R6), when a crew runs a word
(R36), and what a word that writes registers, predicates or flags may change and must leave alone. -/

namespace Sys2Proof.Machine

/-! ## What every step keeps -/

/-- The memories of the package and of the host are in canonical form: addresses rise strictly and no listed byte is
the zero that an unlisted address reads as. -/
def State.Inv (s : State) : Prop := Memory.wf s.mem ∧ Memory.wf s.hostMem

/-! ## A crew's word (R36) -/

/-- The run of crew `c`, resident in the issuing slot, is about to execute a word: its lanes are lanes of the crew, in
rising order. -/
structure State.Runs (s : State) (c : Crew) : Prop where
  crew : s.crew? s.cur.slot = some c
  lanes : ∀ l ∈ s.cur.lanes, l < c.threads.length
  rising : s.cur.lanes.Pairwise (· < ·)

/-- No thread of the run has an IMMX pending (R135). -/
def State.Plain (s : State) (c : Crew) : Prop := ∀ l ∈ s.cur.lanes, (c.thread l).hints.immx = none

/-- A pending IMMX of the run, if any, has payload bits [21:16] zero (R135). -/
def State.Plain16 (s : State) (c : Crew) : Prop :=
  ∀ l ∈ s.cur.lanes, ∀ p, (c.thread l).hints.immx = some p → p.extractLsb' 16 6 = 0

/-- The active lanes of the run: those whose guard is true, in the run's order (R130). -/
def State.activeLanes (s : State) (c : Crew) (g : Guard) : List Nat :=
  s.cur.lanes.filter fun l => (c.thread l).guard g

/-- The state differs from what it was in the issuing crew, the cycle and the count of free values only; every byte of
every space reads as before. -/
structure OnlyCrew (s t : State) (c' : Crew) : Prop where
  after : t.crew? s.cur.slot = some c'
  others : ∀ k, k ≠ s.cur.slot → t.crew? k = s.crew? k
  rest : t = { s with crews := t.crews, cycle := t.cycle, fresh := t.fresh }
  bytes : ∀ sp a, t.byteAt sp a = s.byteAt sp a
  time : s.cycle ≤ t.cycle

/-- The crew differs from what it was in its threads, %k registers and storage tags only; threads outside the run are
as they were. -/
structure OnlyRun (s : State) (c c' : Crew) : Prop where
  rest : c' = { c with threads := c'.threads, kregs := c'.kregs, utags := c'.utags }
  lanes : c'.threads.length = c.threads.length
  outside : ∀ l, l ∉ s.cur.lanes → c'.thread l = c.thread l

/-- The registers of a thread after a result for field d: 32 bits, or 64 bits in an even-odd pair; %g0 reads 0, a 64-bit
result for field 0 is discarded, every other register is as it was (R56, R57). -/
def RegsAfter (t t' : Thread) (d : Reg) (wide : Bool) (v : DWord) : Prop :=
  ∀ e, t'.get e =
    if e = 0 then 0
    else if e = t.entry d.toNat ∧ ¬(wide = true ∧ d = 0) then v.setWidth 32
    else if e = t.entry (d.toNat + 1) ∧ wide = true ∧ d ≠ 0 then v.extractLsb' 32 32
    else t.get e

/-- The %k registers after a result for field d, computed once, from the lowest active lane: a 32-bit result clears bits
[63:32]; %k0 reads 0; every other %k register is as it was (R56, R58, R59). -/
def KregsAfter (c c' : Crew) (act : List Nat) (d : Reg) (wide : Bool) (v : Nat → DWord) : Prop :=
  ∀ k, c'.kreg k =
    match act.head? with
    | none => c.kreg k
    | some l =>
      if k = 0 then 0
      else if 48 ≤ d.toNat ∧ k = d.toNat - 48 then (if wide then v l else ((v l).setWidth 32).setWidth 64)
      else c.kreg k

/-- `i` executes as a word of one result: the value `v` of each active lane goes to that lane's register field d, or, for
a %k destination, the lowest active lane's value goes to it. Every run thread's PC advances by 4 and its hints are consumed
(R36, R132); predicates, flags, special registers, other registers, other threads, other crews and every byte of memory are
as they were. -/
def WritesRegister (i : Instr) (g : Guard) (d : Reg) (wide : Bool) (v : Nat → DWord) (s : State) (c : Crew) : Prop :=
  ∃ t c', exec i s = .next t ∧ OnlyCrew s t c' ∧ OnlyRun s c c' ∧
    KregsAfter c c' (s.activeLanes c g) d wide v ∧
    ∀ l ∈ s.cur.lanes,
      c'.thread l = { c.thread l with pc := (c.thread l).pc + 4, hints := {}, regs := (c'.thread l).regs } ∧
      if (c.thread l).guard g = true ∧ d.toNat < 48 then RegsAfter (c.thread l) (c'.thread l) d wide (v l)
      else (c'.thread l).regs = (c.thread l).regs

/-- The lanes whose flags a floating-point word sets: each active lane; for a %k destination of a word that is not issued
uniformly, the active lanes of the one stroke that runs, the stroke of the lowest (R38, R59, R63; log 11). -/
def State.computing (s : State) (c : Crew) (g : Guard) (d : Reg) (uniform : Bool) : List Nat :=
  if uniform = true ∨ d.toNat < 48 then s.activeLanes c g
  else (s.activeLanes c g).filter fun l => l / 16 = (s.activeLanes c g).headD 0 / 16

/-- As WritesRegister, and the flags that lane's computation raises are ORed into the %FPFLAGS of each flagged lane (R63). -/
def WritesFloat (i : Instr) (g : Guard) (d : Reg) (wide : Bool) (v : Nat → DWord × Nat) (flagged : List Nat)
    (s : State) (c : Crew) : Prop :=
  ∃ t c', exec i s = .next t ∧ OnlyCrew s t c' ∧ OnlyRun s c c' ∧
    KregsAfter c c' (s.activeLanes c g) d wide (fun l => (v l).1) ∧
    ∀ l ∈ s.cur.lanes,
      c'.thread l = { c.thread l with
        pc := (c.thread l).pc + 4, hints := {}, regs := (c'.thread l).regs, fpflags := (c'.thread l).fpflags } ∧
      ((c'.thread l).fpflags =
        if l ∈ flagged then
          (c.thread l).fpflags ||| BitVec.ofNat 32 (v l).2
        else (c.thread l).fpflags) ∧
      if (c.thread l).guard g = true ∧ d.toNat < 48 then RegsAfter (c.thread l) (c'.thread l) d wide (v l).1
      else (c'.thread l).regs = (c.thread l).regs

/-- `i` executes as a word that writes predicate p of each active lane, and sets the flags `f` in its %FPFLAGS; %p0 keeps
reading true, every other predicate and all else is as it was (R56, R63). -/
def WritesPredicate (i : Instr) (g : Guard) (p : BitVec 3) (v : Nat → Bool) (f : Nat → Nat) (s : State)
    (c : Crew) : Prop :=
  ∃ t c', exec i s = .next t ∧ OnlyCrew s t c' ∧ OnlyRun s c c' ∧ c'.kregs = c.kregs ∧ c'.utags = c.utags ∧
    ∀ l ∈ s.cur.lanes,
      c'.thread l = { c.thread l with
        pc := (c.thread l).pc + 4, hints := {}, preds := (c'.thread l).preds, fpflags := (c'.thread l).fpflags } ∧
      if (c.thread l).guard g = true then
        (c'.thread l).fpflags = (c.thread l).fpflags ||| BitVec.ofNat 32 (f l) ∧
        ∀ n < 8, (c'.thread l).pred n = if n = 0 then true else if n = p.toNat then v l else (c.thread l).pred n
      else (c'.thread l).preds = (c.thread l).preds ∧ (c'.thread l).fpflags = (c.thread l).fpflags

/-- `i` executes as a word that changes its run's threads only: each active lane's thread becomes `after` of what it was,
each other run thread goes on to the next word; registers apart from those `after` changes, %k registers, other threads,
other crews, every other unit and every byte of memory are as they were. -/
def ChangesThreads (i : Instr) (g : Guard) (after : Nat → Thread → Thread) (s : State) (c : Crew) : Prop :=
  ∃ t c', exec i s = .next t ∧ OnlyCrew s t c' ∧ OnlyRun s c c' ∧ c'.kregs = c.kregs ∧
    ∀ l ∈ s.cur.lanes, c'.thread l =
      if (c.thread l).guard g = true then after l (c.thread l)
      else { c.thread l with pc := (c.thread l).pc + 4, hints := {} }

/-- The state differs from what it was in the instruction caches and translation caches of cores and dies and in the count
of free values only (R127, R378). -/
structure CachesOnly (s t : State) : Prop where
  rest : t = { s with cores := t.cores, dies := t.dies, fresh := t.fresh }
  cores : ∀ n, t.core n = { s.core n with tlb := (t.core n).tlb, icache := (t.core n).icache }
  dies : ∀ n, t.die n = { s.die n with tlb := (t.die n).tlb, walks := (t.die n).walks }

/-- The state differs from what it was in the issuing crew, which is now `c'`, in instruction and translation caches, in the
cycle and the count of free values only; every other crew is as it was and every byte of every space reads as before. -/
structure CrewAndCaches (s t : State) (c' : Crew) : Prop where
  after : t.crew? s.cur.slot = some c'
  others : ∀ k, k ≠ s.cur.slot → t.crew? k = s.crew? k
  rest : t = { s with crews := t.crews, cores := t.cores, dies := t.dies, cycle := t.cycle, fresh := t.fresh }
  cores : ∀ n, t.core n = { s.core n with tlb := (t.core n).tlb, icache := (t.core n).icache }
  dies : ∀ n, t.die n = { s.die n with tlb := (t.die n).tlb, walks := (t.die n).walks }
  bytes : ∀ sp a, t.byteAt sp a = s.byteAt sp a
  time : s.cycle ≤ t.cycle

/-- The state differs from what it was in the issuing crew, which is now `c'`, in translation and instruction caches, in the
requests of cores and those that have reached slices, in messages under way, in the cycle and the counts of identifiers and free values; every other crew is as it was, and every
byte of every space reads as before: nothing is performed at issue. -/
structure AccessFrame (s t : State) (c' : Crew) : Prop where
  after : t.crew? s.cur.slot = some c'
  others : ∀ k, k ≠ s.cur.slot → t.crew? k = s.crew? k
  rest : t = { s with crews := t.crews, cores := t.cores, dies := t.dies, slices := t.slices, msgs := t.msgs, nextId := t.nextId, cycle := t.cycle, fresh := t.fresh }
  cores : ∀ n, t.core n =
    { s.core n with
      tlb := (t.core n).tlb, icache := (t.core n).icache, l1ways := (t.core n).l1ways, deckq := (t.core n).deckq
      unanswered := (t.core n).unanswered, sendq := (t.core n).sendq, retry := (t.core n).retry }
  dies : ∀ n, t.die n = { s.die n with tlb := (t.die n).tlb, walks := (t.die n).walks }
  slices : ∀ n, t.slice n = { s.slice n with ingress := (t.slice n).ingress }
  bytes : ∀ sp a, t.byteAt sp a = s.byteAt sp a
  time : s.cycle ≤ t.cycle

/-- Every run thread goes on to the next word, its hints consumed; the other threads are as they were (R36, R132). -/
structure RunGoesOn (s : State) (c c' : Crew) : Prop where
  lanes : ∀ l ∈ s.cur.lanes, c'.thread l = { c.thread l with pc := (c.thread l).pc + 4, hints := {} }
  outside : ∀ l, l ∉ s.cur.lanes → c'.thread l = c.thread l
  length : c'.threads.length = c.threads.length

/-- The state differs from what it was in the issuing crew, which is now `c'`, in the issue state of subcores, in the cycle
and the counts of identifiers and free values only. -/
structure IssueFrame (s t : State) (c' : Crew) : Prop where
  after : t.crew? s.cur.slot = some c'
  others : ∀ k, k ≠ s.cur.slot → t.crew? k = s.crew? k
  rest : t = { s with crews := t.crews, cores := t.cores, nextId := t.nextId, cycle := t.cycle, fresh := t.fresh }
  cores : ∀ n, t.core n = { s.core n with subcores := (t.core n).subcores }
  bytes : ∀ sp a, t.byteAt sp a = s.byteAt sp a
  time : s.cycle ≤ t.cycle

/-- What the step `p` of a word begun in `s` is (R231, R440): its kind, lanes, PC and cycle, and the entries older than it. -/
def StepBegun (p : Pending) (kind : StepKind) (act : List Nat) (pc : Word) (s : State) (c : Crew) : Prop :=
  p.kind = kind ∧ p.lanes = act ∧ p.pc = pc ∧ p.cycle = s.cycle ∧ p.older = c.fifo.map (·.id) ∧ p.id = s.nextId

/-- `i` begins a completion step of the crew for the lanes `act` (R440): they stand outside the PC table until it ends, the
other run threads go on; the crew's loads `reads` belong to the step. Nothing is performed. -/
def BeginsStep (i : Instr) (kind : StepKind) (act : List Nat) (pc : Word) (s : State) (c : Crew)
    (reads : Pending → List Load → Prop) : Prop :=
  ∃ t c' p l, exec i s = .next t ∧ AccessFrame s t c' ∧
    c' = { c with threads := c'.threads, steps := c.steps ++ [p], loads := c.loads ++ l, lts := c'.lts } ∧
    StepBegun p kind act pc s c ∧ reads p l ∧
    (∀ l, l ∉ s.cur.lanes → c'.thread l = c.thread l) ∧
    ∀ l ∈ s.cur.lanes, c'.thread l =
      if l ∈ act then { c.thread l with outside := true } else { c.thread l with pc := (c.thread l).pc + 4, hints := {} }

/-- One lane's part of a step's read of n bytes at `a`, which lands at `q`, with the bytes that the crew's own FIFO holds of
them (R211, R440). -/
def StepRead (c : Crew) (p : Pending) (l : List Load) (k : Nat) (a : DWord) (n : Nat) (q : Place) : Prop :=
  k ∈ p.due ∧ ∃ ld ∈ l, ∃ x ∈ ld.lanes, ld.space = q.space ∧ ld.line = lineOf q.addr ∧ x.lane = k ∧ x.va = a ∧ x.addr = q.addr ∧
    x.size = n ∧ x.fwd = forwardBytes c.fifo q.space q.addr n ∧ x.dest = .step p.id

/-- The reads of step `p` for the lanes `act`, lane k reading n bytes at `a k` (R208, R440): a lane whose access passes its
checks, in a state that differs from `s` in this crew and in caches only, reads as part of one of the loads `l`; any other
lane holds its fault; there is no other load. -/
def StepReads (s : State) (c : Crew) (n : Nat) (act : List Nat) (a : Nat → DWord) (p : Pending) (l : List Load) : Prop :=
  (∀ k ∈ act, ∃ c1 u, CachesOnly { s.setCrew s.cur.slot c1 with nextId := s.nextId + 1 } u ∧ c1 = { c with threads := c1.threads, steps := c1.steps } ∧
    match (u.check s.cur.slot c (a k) n .read).1 with
    | .ok q => StepRead c p l k (a k) n q
    | .error f => (k, .fault f) ∈ p.got) ∧
  ∀ ld ∈ l, ∀ x ∈ ld.lanes, x.lane ∈ p.due ∧ x.lane ∈ act ∧ x.dest = .step p.id

/-- `i` joins the queue of the core's stream engine (R259): the operation holds what it read at issue, the crew becomes
`note` with every run thread gone on, nothing else changes. -/
def JoinsStreams (i : Instr) (note : Crew) (vals : List DWord) (dests : List (Nat × Nat)) (s : State) (c : Crew) : Prop :=
  let core := coreOf s.cur.slot
  ∃ t c', exec i s = .next t ∧ t.crew? s.cur.slot = some c' ∧ c' = { note with threads := c'.threads } ∧ RunGoesOn s c c' ∧
    (∀ k, k ≠ s.cur.slot → t.crew? k = s.crew? k) ∧ (∀ n, n ≠ core → t.core n = s.core n) ∧
    t.core core = { s.core core with
      streamq := (s.core core).streamq ++
        [⟨s.cur.slot, i, s.cur.lanes, c.lanesWith (fun t => t.st == .exited), vals, dests⟩] } ∧
    t = { s with crews := t.crews, cores := t.cores, cycle := t.cycle, fresh := t.fresh } ∧ s.cycle ≤ t.cycle

/-! ## Steps of the other agents -/

/-- `i` takes a next state, of which `p` holds. -/
def Answers (i : Instr) (s : State) (p : State → Prop) : Prop := ∃ t, exec i s = .next t ∧ p t

/-- Every crew but those of the slots in `l` is as it was. -/
def CrewsApart (s t : State) (l : List Nat) : Prop := ∀ k, k ∉ l → t.crew? k = s.crew? k

/-- The state differs from what it was in its crews only, and there in the crew of one slot. -/
def OneCrew (s t : State) (slot : Nat) (c' : Crew) : Prop :=
  t.crew? slot = some c' ∧ CrewsApart s t [slot] ∧ t = { s with crews := t.crews }

/-- The state differs from what it was in one core, which is now `k`. -/
def OneCore (s t : State) (core : Nat) (k : Core) : Prop :=
  t.core core = k ∧ (∀ n, n ≠ core → t.core n = s.core n) ∧ t = { s with cores := t.cores }

/-- The state differs from what it was in one slice, which is now `v`. -/
def OneSlice (s t : State) (slice : Nat) (v : Slice) : Prop :=
  t.slice slice = v ∧ (∀ n, n ≠ slice → t.slice n = s.slice n) ∧ t = { s with slices := t.slices }

/-- What an operation `o` on a live counter `i` of a home with contents `h` does there, with the crew's logical time `lts`, when
it neither saturates nor meets a waiter: the new contents and the message sent (R76 to R84). -/
def CounterEffect (slot : Nat) (o : CtrOp) (h : CtrHome) (room lts : Nat) (h' : CtrHome) (m : Option Msg) : Prop :=
  let i := handleIndex o.handle
  let k := h.ctr i
  let added := fun (v : Word) => h.setCtr i { k with value := k.value + v.toNat, lts := max k.lts lts }
  match o.kind with
  | .alloc _ => False
  | .free => h' = h.setCtr i { k with live := false } ∧ m = some (.answer slot o.id (.ok 0 0))
  | .read => h' = h ∧ m = some (.answer slot o.id (.ok k.value k.lts))
  | .test => h' = h ∧ m = some (.answer slot o.id (if o.threshold.toNat ≤ k.value then .ok 1 k.lts else .ok 0 0))
  | .add v => h' = added v ∧ m = some (.answer slot o.id (.ok 0 0))
  | .addr v => h' = added v ∧ m = some (.answer slot o.id (.ok k.value 0))
  | .wait =>
    if o.threshold.toNat ≤ k.value then h' = h ∧ m = some (.wake o.id k.lts false)
    else h.waiters.length < room ∧ m = none ∧
      h' = { h with waiters := h.waiters ++ [⟨i, o.handle, o.threshold.toNat, .lanes o.id⟩] }

/-- `i` is the event by which a home takes an operation of a kind. -/
def TakesKind (i : Instr) (k : CtrKind) (slot id : Nat) : Prop :=
  match k with
  | .alloc _ => i = .counterHomeAlloc slot id
  | .free => i = .counterHomeFree slot id
  | .read | .test => i = .counterHomeRead slot id
  | .add _ | .addr _ => i = .counterHomeAdd slot id
  | .wait => i = .counterWaiterRegister slot id

/-- The operation `o` of crew `c` may leave it for its home (R79, R82, R229): the earlier ones of its word have been taken, and
an add waits for the stores, and for the loads and atomics before it. -/
def Leaves (c : Crew) (o : CtrOp) : Prop :=
  c.ctrOps.find? (fun p => p.id == o.id) = some o ∧ o.taken = false ∧
  (∀ p ∈ c.ctrOps, p.cycle = o.cycle → p.id < o.id → p.taken = true) ∧
  ((∃ v, o.kind = .add v ∨ o.kind = .addr v) → c.fifo = [] ∧ ∀ l ∈ c.loads, l.id ∉ o.older)

/-- A saved crew holds what the crew held: registers, predicates, PCs, window state and hints of every thread, %k registers,
counters, tickets, logical time and streams, whose parity a restore writes anew (R271, R370). -/
def Crew.regsAs (c' c : Crew) : Prop :=
  c'.threads.length = c.threads.length ∧
  (∀ l, (c'.thread l).regs = (c.thread l).regs ∧ (c'.thread l).preds = (c.thread l).preds ∧ (c'.thread l).pc = (c.thread l).pc ∧
    (c'.thread l).lo = (c.thread l).lo ∧ (c'.thread l).depth = (c.thread l).depth ∧ (c'.thread l).trap = (c.thread l).trap ∧
    (c'.thread l).hints = (c.thread l).hints ∧ (c'.thread l).spillb = (c.thread l).spillb) ∧
  c'.kregs = c.kregs ∧ c'.ctrs = c.ctrs ∧ c'.issued = c.issued ∧ c'.done = c.done ∧ c'.lts = c.lts ∧
  c'.streams = c.streams.map fun v => { v with bad := [] }

/-! ## Lines at their home -/

/-- The state differs from what it was in which lines the slices and the memory-side caches hold only: every line keeps its
times, and where no slice held a dirty host line the host's memory is as it was. -/
structure LinesMove (s t : State) : Prop where
  rest : t = { s with slices := t.slices, dies := t.dies, hostMem := t.hostMem }
  slices : ∀ n, t.slice n = { s.slice n with lines := (t.slice n).lines, copies := (t.slice n).copies, ways := (t.slice n).ways }
  dies : ∀ n, t.die n = { s.die n with llc := (t.die n).llc, llcDirty := (t.die n).llcDirty }
  times : ∀ n l, ((t.slice n).line l).wts = ((s.slice n).line l).wts ∧ ((t.slice n).line l).rts = ((s.slice n).line l).rts
  host : (∀ n l, hostBase ≤ l → ((s.slice n).line l).dirty = false) →
    t.hostMem = s.hostMem ∧ ∀ n l, hostBase ≤ l → ((t.slice n).line l).dirty = false

/-! ## Service calls -/

/-- The oldest call `c` is a host post of number `n` whose block of 64 bytes, `b`, lies unpoisoned in LPDDR-5X outside the
overflow pages, names no completion handle and has a proper header, while the interface is unlocked (R380 to R382, R384). -/
structure Posted (s : State) (n : Nat) (c : Call) (b : List Byte) : Prop where
  next : s.nextCall = some c
  number : c.number = n
  host : c.device = none
  aligned : c.block.toNat % 64 = 0
  inside : c.block.toNat + 64 ≤ dramSize
  granted : s.inOverflow c.block.toNat = false
  clean : ∀ l ∈ s.poison, l + 128 ≤ c.block.toNat ∨ c.block.toNat + 64 ≤ l
  bytes : s.mem.read c.block.toNat 64 = b
  handle : blk b 0 8 = 0
  header : blk b 13 3 = 0
  context : blk b 12 1 < 16
  unlocked : s.boot.tdi = .unlocked

/-- A call whose block lies at `a` has ended with a code and an offset (R382): from the state `u` of its effect, its results and
its STATUS stand in the block; every other byte of LPDDR-5X, every other line's times, the host's memory where no slice held a
dirty host line, and the rest of the state but for the lines that caches hold are as in `u`. -/
structure CallDone (a code off : Nat) (results : List (Nat × List Byte)) (u t : State) : Prop where
  stored : ∀ r ∈ (8, bytesOf 4 (2 ^ 31 + off * 256 + code)) :: results, ∀ k, k < r.2.length →
    t.mem.byte (a + r.1 + k) = r.2.getD k 0
  others : ∀ x, (∀ r ∈ (8, bytesOf 4 (2 ^ 31 + off * 256 + code)) :: results, x < a + r.1 ∨ a + r.1 + r.2.length ≤ x) →
    t.mem.byte x = u.mem.byte x
  lines : ∀ n l, l ≠ a / 128 * 128 →
    ((t.slice n).line l).wts = ((u.slice n).line l).wts ∧ ((t.slice n).line l).rts = ((u.slice n).line l).rts
  dies : ∀ n, t.die n = { u.die n with llc := (t.die n).llc, llcDirty := (t.die n).llcDirty }
  host : (∀ n l, hostBase ≤ l → ((u.slice n).line l).dirty = false) → t.hostMem = u.hostMem
  rest : t = { u with mem := t.mem, hostMem := t.hostMem, slices := t.slices, dies := t.dies }

end Sys2Proof.Machine
end

