-- ==== Sys2Proof/Certificates/Slice0/Obligations.lean ====
section
/-! DEFINITION. The statements for the provers, from the numbered rules of the spec. A statement about a word is over
every state in which a resident crew's run executes it (State.Runs): its lanes, guard, operands and hints are arbitrary. -/

open Sys2Proof Sys2Proof.Machine

/-! ## Integer words (R168 to R175) -/

/-- R168 table 1, majors 0x01: each active lane's d takes the operation's value, computed on exact integers and narrowed
at the end; a pending MODX with SAT clamps ADD and SUB to the range of their type. -/
def Claim.IntegerWordsOf32Bits : Prop :=
  ∀ (s : State) (c : Crew) (g : Guard) (d a b : Reg), s.Runs c → s.Plain c →
    let x := fun l => c.read32 (c.thread l) a
    let y := fun l => c.read32 (c.thread l) b
    let sat := fun l => (c.thread l).sat
    let n := fun l => (y l).toNat % 32
    let out := fun (i : Instr) (v : Nat → Word) => WritesRegister i g d false (fun l => (v l).setWidth 64) s c
    out (.addI32 g d a b) (fun l =>
      let v := (x l).toInt + (y l).toInt
      BitVec.ofInt 32 (if sat l then max (-2147483648) (min 2147483647 v) else v)) ∧
    out (.subI32 g d a b) (fun l =>
      let v := (x l).toInt - (y l).toInt
      BitVec.ofInt 32 (if sat l then max (-2147483648) (min 2147483647 v) else v)) ∧
    out (.addN32 g d a b) (fun l =>
      let v : Int := (x l).toNat + (y l).toNat
      BitVec.ofInt 32 (if sat l then min 4294967295 v else v)) ∧
    out (.subN32 g d a b) (fun l =>
      let v : Int := (x l).toNat - (y l).toNat
      BitVec.ofInt 32 (if sat l then max 0 v else v)) ∧
    out (.and32 g d a b) (fun l => x l &&& y l) ∧
    out (.or32 g d a b) (fun l => x l ||| y l) ∧
    out (.xor32 g d a b) (fun l => x l ^^^ y l) ∧
    out (.andn g d a b) (fun l => x l &&& ~~~(y l)) ∧
    out (.shl32 g d a b) (fun l => BitVec.ofNat 32 ((x l).toNat * 2 ^ n l)) ∧
    out (.shr32 g d a b) (fun l => BitVec.ofNat 32 ((x l).toNat / 2 ^ n l)) ∧
    out (.sha32 g d a b) (fun l => BitVec.ofInt 32 ((x l).toInt / 2 ^ n l)) ∧
    out (.rot32 g d a b) (fun l => x l >>> n l ||| x l <<< (32 - n l)) ∧
    out (.min32 g d a b) (fun l => BitVec.ofInt 32 (min (x l).toInt (y l).toInt)) ∧
    out (.max32 g d a b) (fun l => BitVec.ofInt 32 (max (x l).toInt (y l).toInt)) ∧
    out (.minu32 g d a b) (fun l => BitVec.ofNat 32 (min (x l).toNat (y l).toNat)) ∧
    out (.maxu32 g d a b) (fun l => BitVec.ofNat 32 (max (x l).toNat (y l).toNat))

/-- R168 table 1, major 0x03, on pairs and whole %k registers. -/
def Claim.IntegerWordsOf64Bits : Prop :=
  ∀ (s : State) (c : Crew) (g : Guard) (d a b : Reg), s.Runs c → s.Plain c →
    let x := fun l => c.read64 (c.thread l) a
    let y := fun l => c.read64 (c.thread l) b
    let sat := fun l => (c.thread l).sat
    let n := fun l => (y l).toNat % 64
    let out := fun (i : Instr) (v : Nat → DWord) => WritesRegister i g d true v s c
    out (.addI64 g d a b) (fun l =>
      let v := (x l).toInt + (y l).toInt
      BitVec.ofInt 64 (if sat l then max (-9223372036854775808) (min 9223372036854775807 v) else v)) ∧
    out (.subI64 g d a b) (fun l =>
      let v := (x l).toInt - (y l).toInt
      BitVec.ofInt 64 (if sat l then max (-9223372036854775808) (min 9223372036854775807 v) else v)) ∧
    out (.addN64 g d a b) (fun l =>
      let v : Int := (x l).toNat + (y l).toNat
      BitVec.ofInt 64 (if sat l then min 18446744073709551615 v else v)) ∧
    out (.subN64 g d a b) (fun l =>
      let v : Int := (x l).toNat - (y l).toNat
      BitVec.ofInt 64 (if sat l then max 0 v else v)) ∧
    out (.and64 g d a b) (fun l => x l &&& y l) ∧
    out (.or64 g d a b) (fun l => x l ||| y l) ∧
    out (.xor64 g d a b) (fun l => x l ^^^ y l) ∧
    out (.shl64 g d a b) (fun l => BitVec.ofNat 64 ((x l).toNat * 2 ^ n l)) ∧
    out (.shr64 g d a b) (fun l => BitVec.ofNat 64 ((x l).toNat / 2 ^ n l)) ∧
    out (.sha64 g d a b) (fun l => BitVec.ofInt 64 ((x l).toInt / 2 ^ n l)) ∧
    out (.rot64 g d a b) (fun l => x l >>> n l ||| x l <<< (64 - n l)) ∧
    out (.min64 g d a b) (fun l => BitVec.ofInt 64 (min (x l).toInt (y l).toInt)) ∧
    out (.max64 g d a b) (fun l => BitVec.ofInt 64 (max (x l).toInt (y l).toInt)) ∧
    out (.minu64 g d a b) (fun l => BitVec.ofNat 64 (min (x l).toNat (y l).toNat)) ∧
    out (.maxu64 g d a b) (fun l => BitVec.ofNat 64 (max (x l).toNat (y l).toNat)) ∧
    out (.mullo64 g d a b) (fun l => BitVec.ofNat 64 ((x l).toNat * (y l).toNat))

/-- `Claim.IntegerWordsOf32Bits` and `Claim.IntegerWordsOf64Bits` together; their docstrings name the rules and logs. -/
def Obligations.IntegerWords : Prop := Claim.IntegerWordsOf32Bits ∧ Claim.IntegerWordsOf64Bits

/-- R170 table 2: the one-source operations and the shifts by an immediate. -/
def Claim.OneSourceAndShiftWords : Prop :=
  ∀ (s : State) (c : Crew) (g : Guard) (d a : Reg) (m : BitVec 5) (k : BitVec 6), s.Runs c → s.Plain c →
    let x := fun l => c.read32 (c.thread l) a
    let y := fun l => c.read64 (c.thread l) a
    let out := fun (i : Instr) (v : Nat → Word) => WritesRegister i g d false (fun l => (v l).setWidth 64) s c
    let wide := fun (i : Instr) (v : Nat → DWord) => WritesRegister i g d true v s c
    out (.mov g d a) x ∧
    out (.clz g d a) (fun l => BitVec.ofNat 32 ((List.range 32).takeWhile fun j => !(x l).getLsbD (31 - j)).length) ∧
    out (.popc g d a) (fun l => BitVec.ofNat 32 ((List.range 32).countP fun j => (x l).getLsbD j)) ∧
    out (.brev g d a) (fun l => (x l).reverse) ∧
    out (.abs g d a) (fun l => BitVec.ofNat 32 (x l).toInt.natAbs) ∧
    out (.shl32Imm g d a m) (fun l => BitVec.ofNat 32 ((x l).toNat * 2 ^ m.toNat)) ∧
    out (.shr32Imm g d a m) (fun l => BitVec.ofNat 32 ((x l).toNat / 2 ^ m.toNat)) ∧
    out (.sha32Imm g d a m) (fun l => BitVec.ofInt 32 ((x l).toInt / 2 ^ m.toNat)) ∧
    out (.rot32Imm g d a m) (fun l => x l >>> m.toNat ||| x l <<< (32 - m.toNat)) ∧
    wide (.mov64 g d a) y ∧
    wide (.shl64Imm g d a k) (fun l => BitVec.ofNat 64 ((y l).toNat * 2 ^ k.toNat)) ∧
    wide (.shr64Imm g d a k) (fun l => BitVec.ofNat 64 ((y l).toNat / 2 ^ k.toNat)) ∧
    wide (.sha64Imm g d a k) (fun l => BitVec.ofInt 64 ((y l).toInt / 2 ^ k.toNat)) ∧
    wide (.rot64Imm g d a k) (fun l => y l >>> k.toNat ||| y l <<< (64 - k.toNat))

/-- R171 table 3: multiply, address, bit-field and select. -/
def Claim.MultiplyFieldAndSelectWords : Prop :=
  ∀ (s : State) (c : Crew) (g : Guard) (d a b : Reg) (n : BitVec 3), s.Runs c → s.Plain c →
    let x := fun l => c.read32 (c.thread l) a
    let y := fun l => c.read32 (c.thread l) b
    let z := fun l => c.read32 (c.thread l) d
    let pos := fun l => (y l).toNat % 32
    let len := fun l => min (if (y l).toNat / 256 % 32 = 0 then 32 else (y l).toNat / 256 % 32) (32 - pos l)
    let fld := fun l => (x l).toNat / 2 ^ pos l % 2 ^ len l
    let mask := fun l => BitVec.ofNat 32 (2 ^ len l - 1)
    let out := fun (i : Instr) (v : Nat → Word) => WritesRegister i g d false (fun l => (v l).setWidth 64) s c
    let wide := fun (i : Instr) (v : Nat → DWord) => WritesRegister i g d true v s c
    out (.mullo g d a b) (fun l => BitVec.ofNat 32 ((x l).toNat * (y l).toNat)) ∧
    out (.mulhi g d a b) (fun l => BitVec.ofInt 32 ((x l).toInt * (y l).toInt / 2 ^ 32)) ∧
    out (.mulhu g d a b) (fun l => BitVec.ofNat 32 ((x l).toNat * (y l).toNat / 2 ^ 32)) ∧
    out (.mad g d a b) (fun l => BitVec.ofNat 32 ((x l).toNat * (y l).toNat + (z l).toNat)) ∧
    wide (.madWide g d a b) (fun l =>
      BitVec.ofInt 64 ((x l).toInt * (y l).toInt + (c.read64 (c.thread l) d).toInt)) ∧
    wide (.lea g d a b) (fun l => BitVec.ofInt 64 ((c.read64 (c.thread l) a).toInt + (y l).toInt)) ∧
    out (.bfx g d a b) (fun l =>
      BitVec.ofInt 32 (if (y l).getLsbD 16 ∧ (fld l).testBit (len l - 1) then (fld l : Int) - 2 ^ len l else fld l)) ∧
    out (.bfi g d a b) (fun l => (z l &&& ~~~(mask l <<< pos l)) ||| ((x l &&& mask l) <<< pos l)) ∧
    out (.sel g d a b n) (fun l => if (c.thread l).pred n.toNat then x l else y l)

/-- `Claim.OneSourceAndShiftWords` and `Claim.MultiplyFieldAndSelectWords` together; their docstrings name the rules and logs. -/
def Obligations.ShiftMultiplyAndFieldWords : Prop := Claim.OneSourceAndShiftWords ∧ Claim.MultiplyFieldAndSelectWords

/-- R98 and R172: the divides, which never fault: a divisor of 0 gives an all-ones quotient and the dividend as remainder;
the most negative dividend by −1 gives itself and 0; else the quotient rounds toward zero. -/
def Claim.DivideWords : Prop :=
  ∀ (s : State) (c : Crew) (g : Guard) (d a b : Reg), s.Runs c → s.Plain c →
    let x := fun l => c.read32 (c.thread l) a
    let y := fun l => c.read32 (c.thread l) b
    let u := fun l => c.read64 (c.thread l) a
    let v := fun l => c.read64 (c.thread l) b
    let out := fun (i : Instr) (r : Nat → Int) =>
      WritesRegister i g d false (fun l => (BitVec.ofInt 32 (r l)).setWidth 64) s c
    let wide := fun (i : Instr) (r : Nat → Int) => WritesRegister i g d true (fun l => BitVec.ofInt 64 (r l)) s c
    out (.div g d a b) (fun l => if y l = 0 then -1 else (x l).toInt.tdiv (y l).toInt) ∧
    out (.divu g d a b) (fun l => if y l = 0 then -1 else (x l).toNat / (y l).toNat) ∧
    out (.rem g d a b) (fun l => if y l = 0 then (x l).toInt else (x l).toInt.tmod (y l).toInt) ∧
    out (.remu g d a b) (fun l => if y l = 0 then (x l).toNat else (x l).toNat % (y l).toNat) ∧
    wide (.div64 g d a b) (fun l => if v l = 0 then -1 else (u l).toInt.tdiv (v l).toInt) ∧
    wide (.divu64 g d a b) (fun l => if v l = 0 then -1 else (u l).toNat / (v l).toNat) ∧
    wide (.rem64 g d a b) (fun l => if v l = 0 then (u l).toInt else (u l).toInt.tmod (v l).toInt) ∧
    wide (.remu64 g d a b) (fun l => if v l = 0 then (u l).toNat else (u l).toNat % (v l).toNat)

/-- R154, R155, R169, R174: ADD with an immediate, MOVI and MOVHI, whose immediates are sign-extended, or widened to 32
bits by a pending IMMX. MOVHI writes the odd register of its pair, or the upper half of its %k register; field 0 discards. -/
def Claim.ImmediateWords : Prop :=
  ∀ (s : State) (c : Crew) (g : Guard) (d a : Reg) (i : BitVec 10) (j : BitVec 16), s.Runs c →
    let imm := fun l => match (c.thread l).hints.immx with
      | some p => p ++ i
      | none => i.signExtend 32
    let imm16 := fun l => match (c.thread l).hints.immx with
      | some p => p.setWidth 16 ++ j
      | none => j.signExtend 32
    let x := fun l => c.read32 (c.thread l) a
    WritesRegister (.addImm g d a i) g d false (fun l => (BitVec.ofInt 32 (
      let v := (x l).toInt + (imm l).toInt
      if (c.thread l).sat then max (-2147483648) (min 2147483647 v) else v)).setWidth 64) s c ∧
    (s.Plain16 c → WritesRegister (.movi g d j) g d false (fun l => (imm16 l).setWidth 64) s c) ∧
    (s.Plain16 c → 48 ≤ d.toNat →
      WritesRegister (.movhi g d j) g d true (fun l => imm16 l ++ (c.kreg (d.toNat - 48)).setWidth 32) s c) ∧
    (s.Plain16 c → d.toNat < 48 → d.toNat % 2 = 0 →
      WritesRegister (.movhi g d j) g (if d = 0 then 0 else d + 1) false (fun l => (imm16 l).setWidth 64) s c)

/-- `Claim.DivideWords` and `Claim.ImmediateWords` together; their docstrings name the rules and logs. -/
def Obligations.DivideAndImmediateWords : Prop := Claim.DivideWords ∧ Claim.ImmediateWords

/-- R173 and R175: the integer comparisons and the predicate operations; a write to %p0 is discarded. CC 0 to 7 are EQ,
NE, LT, GE, LTU, GEU, LE, GT; the 5-bit immediate is zero-extended for LTU and GEU. -/
def Claim.CompareAndPredicateWords : Prop :=
  ∀ (s : State) (c : Crew) (g : Guard) (x y : Reg) (cc : BitVec 3) (i : BitVec 5) (p a b : BitVec 3),
    s.Runs c → s.Plain c →
    let holds := fun (m n : Int) (m' n' : Nat) => match cc.toNat with
      | 0 => decide (m = n)
      | 1 => decide (m ≠ n)
      | 2 => decide (m < n)
      | 3 => decide (n ≤ m)
      | 4 => decide (m' < n')
      | 5 => decide (n' ≤ m')
      | 6 => decide (m ≤ n)
      | _ => decide (n < m)
    let x32 := fun l => c.read32 (c.thread l) x
    let y32 := fun l => c.read32 (c.thread l) y
    let x64 := fun l => c.read64 (c.thread l) x
    let y64 := fun l => c.read64 (c.thread l) y
    let q := fun (l : Nat) (n : BitVec 3) => (c.thread l).pred n.toNat
    let out := fun (j : Instr) (v : Nat → Bool) => WritesPredicate j g p v (fun _ => 0) s c
    out (.icmpReg g x y cc 0 p) (fun l => holds (x32 l).toInt (y32 l).toInt (x32 l).toNat (y32 l).toNat) ∧
    out (.icmpReg g x y cc 1 p) (fun l => holds (x64 l).toInt (y64 l).toInt (x64 l).toNat (y64 l).toNat) ∧
    out (.icmpImm g x p cc 0 i) (fun l => holds (x32 l).toInt i.toInt (x32 l).toNat i.toNat) ∧
    out (.icmpImm g x p cc 1 i) (fun l => holds (x64 l).toInt i.toInt (x64 l).toNat i.toNat) ∧
    out (.pand g p a b) (fun l => q l a && q l b) ∧
    out (.por g p a b) (fun l => q l a || q l b) ∧
    out (.pxor g p a b) (fun l => q l a != q l b) ∧
    out (.pnot g p a) (fun l => !q l a) ∧
    out (.pmov g p a) (fun l => q l a)

/-- R177 and R178: VOTE, BALLOT, ELECT and SHFL combine the active lanes of the run. -/
def Claim.CrewWords : Prop :=
  ∀ (s : State) (c : Crew) (g : Guard) (p q : BitVec 3) (d a k : Reg), s.Runs c → s.Plain c →
    let act := s.activeLanes c g
    let from_ := fun (src : Nat → Nat) (l : Nat) =>
      (c.read32 (c.thread (if src l ∈ act then src l else l)) a).setWidth 64
    WritesPredicate (.voteAny g p q) g p (fun _ => decide (∃ l ∈ act, (c.thread l).pred q.toNat = true)) (fun _ => 0) s c ∧
    WritesPredicate (.voteAll g p q) g p (fun _ => decide (∀ l ∈ act, (c.thread l).pred q.toNat = true)) (fun _ => 0) s c ∧
    WritesPredicate (.elect g p) g p (fun l => decide (act.head? = some l)) (fun _ => 0) s c ∧
    WritesRegister (.ballot g d q) g d true (fun _ =>
      BitVec.ofNat 64 (((List.range 64).map fun n => if n ∈ act ∧ (c.thread n).pred q.toNat = true then 2 ^ n else 0).sum)) s c ∧
    WritesRegister (.shflIdx g d a k) g d false (from_ fun _ => k.toNat) s c ∧
    WritesRegister (.shflUp g d a k) g d false (from_ fun l => if l < k.toNat then l else l - k.toNat) s c ∧
    WritesRegister (.shflDown g d a k) g d false (from_ fun l => if 63 < l + k.toNat then l else l + k.toNat) s c ∧
    WritesRegister (.shflXor g d a k) g d false (from_ fun l => l ^^^ k.toNat) s c ∧
    WritesRegister (.shflVar g d a) g d false (from_ fun l => (c.read32 (c.thread l) d).toNat % 64) s c

/-- `Claim.CompareAndPredicateWords` and `Claim.CrewWords` together; their docstrings name the rules and logs. -/
def Obligations.CompareAndCrewWords : Prop := Claim.CompareAndPredicateWords ∧ Claim.CrewWords

/-! ## Floating-point words (R180 to R184) -/

/-- R103, R180: FADD, FSUB, FMUL, FMIN and FMAX of the four formats: each active lane's d takes the operation on the
lane's operands, rounded once in the mode of a pending MODX, and the flags it raises are ORed into %FPFLAGS.
That a word with a %k destination sets the flags of the active lanes of its one stroke is deduced (log 11). -/
def Claim.FloatArithmeticWords : Prop :=
  ∀ (s : State) (c : Crew) (g : Guard) (d a b : Reg), s.Runs c → s.Plain c →
    let out := fun (i : Instr) (f : Fmt) (wide : Bool) (op : Nat → Nat → Nat → Nat × Nat) =>
      WritesFloat i g d wide (fun l =>
        let r := op (c.thread l).rm (c.readFp (c.thread l) f a) (c.readFp (c.thread l) f b)
        (BitVec.ofNat 64 r.1, r.2)) (s.computing c g d (c.uniformIssue s.cur.lanes i)) s c
    out (.faddF32 g d a b) fmt32 false fmt32.add ∧
    out (.fsubF32 g d a b) fmt32 false fmt32.sub ∧
    out (.fmulF32 g d a b) fmt32 false fmt32.mul ∧
    out (.fminF32 g d a b) fmt32 false (fun _ => fmt32.minmax false) ∧
    out (.fmaxF32 g d a b) fmt32 false (fun _ => fmt32.minmax true) ∧
    out (.faddF64 g d a b) fmt64 true fmt64.add ∧
    out (.fsubF64 g d a b) fmt64 true fmt64.sub ∧
    out (.fmulF64 g d a b) fmt64 true fmt64.mul ∧
    out (.fminF64 g d a b) fmt64 true (fun _ => fmt64.minmax false) ∧
    out (.fmaxF64 g d a b) fmt64 true (fun _ => fmt64.minmax true) ∧
    out (.faddF16 g d a b) fmt16 false fmt16.add ∧
    out (.fsubF16 g d a b) fmt16 false fmt16.sub ∧
    out (.fmulF16 g d a b) fmt16 false fmt16.mul ∧
    out (.fminF16 g d a b) fmt16 false (fun _ => fmt16.minmax false) ∧
    out (.fmaxF16 g d a b) fmt16 false (fun _ => fmt16.minmax true) ∧
    out (.faddBf16 g d a b) fmtB16 false fmtB16.add ∧
    out (.fsubBf16 g d a b) fmtB16 false fmtB16.sub ∧
    out (.fmulBf16 g d a b) fmtB16 false fmtB16.mul ∧
    out (.fminBf16 g d a b) fmtB16 false (fun _ => fmtB16.minmax false) ∧
    out (.fmaxBf16 g d a b) fmtB16 false (fun _ => fmtB16.minmax true)

/-- R136, R180: FFMA takes its addend from the register field C of a pending MODX whose CV is 1, else from d. In F64
a C that names the odd register of a pair is outside its class, so those states are not this statement's. The
flags of a %k destination are deduced (log 11). -/
def Claim.FusedMultiplyAddWords : Prop :=
  ∀ (s : State) (c : Crew) (g : Guard) (d a b : Reg), s.Runs c → s.Plain c →
    let addend := fun l => match (c.thread l).hints.modx with
      | some p => if p.getLsbD 9 then p.extractLsb' 3 6 else d
      | none => d
    let out := fun (i : Instr) (f : Fmt) (wide : Bool) =>
      WritesFloat i g d wide (fun l =>
        let t := c.thread l
        let r := f.fma t.rm (c.readFp t f a) (c.readFp t f b) (c.readFp t f (addend l))
        (BitVec.ofNat 64 r.1, r.2)) (s.computing c g d (c.uniformIssue s.cur.lanes i)) s c
    out (.ffmaF32 g d a b) fmt32 false ∧
    out (.ffmaF16 g d a b) fmt16 false ∧
    out (.ffmaBf16 g d a b) fmtB16 false ∧
    ((∀ l ∈ s.cur.lanes, ∀ p, (c.thread l).hints.modx = some p → p.getLsbD 9 = true →
        (p.extractLsb' 3 6).toNat < 48 → (p.extractLsb' 3 6).toNat % 2 = 0) →
      out (.ffmaF64 g d a b) fmt64 true)

/-- `Claim.FloatArithmeticWords` and `Claim.FusedMultiplyAddWords` together; their docstrings name the rules and logs. -/
def Obligations.FloatArithmetic : Prop := Claim.FloatArithmeticWords ∧ Claim.FusedMultiplyAddWords

/-- R181 and R106 to R108: the divide, the square root, the reciprocals, the special functions, FROUND and FCLASS.
The flags of a %k destination are deduced (log 11). -/
def Claim.FloatSpecialWords : Prop :=
  ∀ (s : State) (c : Crew) (g : Guard) (d a b : Reg), s.Runs c → s.Plain c →
    let two := fun (i : Instr) (f : Fmt) (wide : Bool) (op : Nat → Nat → Nat → Nat × Nat) =>
      WritesFloat i g d wide (fun l =>
        let r := op (c.thread l).rm (c.readFp (c.thread l) f a) (c.readFp (c.thread l) f b)
        (BitVec.ofNat 64 r.1, r.2)) (s.computing c g d (c.uniformIssue s.cur.lanes i)) s c
    let one := fun (i : Instr) (f : Fmt) (wide : Bool) (op : Nat → Nat → Nat × Nat) =>
      WritesFloat i g d wide (fun l =>
        let r := op (c.thread l).rm (c.readFp (c.thread l) f a)
        (BitVec.ofNat 64 r.1, r.2)) (s.computing c g d (c.uniformIssue s.cur.lanes i)) s c
    two (.fdivF32 g d a b) fmt32 false fmt32.div ∧
    two (.fdivF64 g d a b) fmt64 true fmt64.div ∧
    one (.fsqrtF32 g d a) fmt32 false fmt32.sqrt ∧
    one (.fsqrtF64 g d a) fmt64 true fmt64.sqrt ∧
    one (.frcpF32 g d a) fmt32 false fmt32.rcp ∧
    one (.frcpF64 g d a) fmt64 true fmt64.rcp ∧
    one (.frsq g d a) fmt32 false frsq ∧
    one (.fex2 g d a) fmt32 false fex2 ∧
    one (.flg2 g d a) fmt32 false flg2 ∧
    one (.froundF32 g d a) fmt32 false fmt32.toIntegral ∧
    one (.froundF64 g d a) fmt64 true fmt64.toIntegral ∧
    one (.fclassF32 g d a) fmt32 false (fun _ x => (fmt32.classify x, 0)) ∧
    one (.fclassF64 g d a) fmt64 false (fun _ x => (fmt64.classify x, 0)) ∧
    one (.fclassF16 g d a) fmt16 false (fun _ x => (fmt16.classify x, 0)) ∧
    one (.fclassBf16 g d a) fmtB16 false (fun _ x => (fmtB16.classify x, 0))

/-- R104, R179, R182 to R184: FCMP, FCVT, FRED, SXPACK and SXUNPACK. FRED's value and flags are the crew's and go to
every active lane; SXPACK reads every lane of its stroke, and its lane e takes word e of the block. The flags of
a %k destination are deduced (log 11). -/
def Claim.FloatCompareConvertAndPackWords : Prop :=
  ∀ (s : State) (c : Crew) (g : Guard) (d a : Reg) (p cc : BitVec 3) (ty op fm dt : BitVec 2) (dst from_ : BitVec 4),
    s.Runs c → s.Plain c →
    let act := s.activeLanes c g
    let f := fmtOfType ty
    WritesPredicate (.fcmp g d a p cc ty) g p
      (fun l => (f.compare cc.toNat (c.readFp (c.thread l) f d) (c.readFp (c.thread l) f a)).1)
      (fun l => (f.compare cc.toNat (c.readFp (c.thread l) f d) (c.readFp (c.thread l) f a)).2) s c ∧
    WritesFloat (.fcvt g d a dst from_) g d (decide (dst = 2 ∨ dst = 3 ∨ dst = 7))
      (fun l => cvtResult (c.thread l).rm (cvtType dst) (c.cvtSource (c.thread l) (cvtType from_) a))
      (s.computing c g d (c.uniformIssue s.cur.lanes (.fcvt g d a dst from_))) s c ∧
    (op = 0 → WritesFloat (.fred g d a ty op) g d (decide (ty = 1)) (fun _ =>
      let v := (List.range 64).map fun l => if l ∈ act then c.readFp (c.thread l) f a else f.signBit true
      let r := canonicalSum f ((act.head?.map fun l => (c.thread l).rm).getD 0) v
      (BitVec.ofNat 64 (if (f.val r.1).isNan then f.nan else r.1), r.2)) act s c) ∧
    (op = 1 ∨ op = 2 → WritesFloat (.fred g d a ty op) g d (decide (ty = 1)) (fun _ =>
      let v := (List.range 64).map fun l => if l ∈ act then some (c.readFp (c.thread l) f a) else none
      let r := canonicalMinmax f (decide (op = 2)) v
      (BitVec.ofNat 64 (if (f.val r.1).isNan then f.nan else r.1), r.2)) act s c) ∧
    WritesFloat (.sxpack g d a fm) g d false (fun l =>
      let blk := sxEncode (sxWidth fm.toNat)
        ((List.range 16).map fun e => (c.read32 (c.thread (l / 16 * 16 + e)) a).toNat)
      (BitVec.ofNat 64 (natOf ((blk.1.drop (4 * (l % 16))).take 4)), blk.2)) (s.computing c g d false) s c ∧
    WritesFloat (.sxunpack g d a fm dt) g d false (fun l =>
      let bytes := (List.range 16).flatMap fun e => bytesOf 4 (c.read32 (c.thread (l / 16 * 16 + e)) a).toNat
      let blk := bytes.take (sxSize (sxWidth fm.toNat))
      let r := (if dt = 0 then fmt32 else if dt = 1 then fmt16 else fmtB16).ofVal 0 (sxDecode (sxWidth fm.toNat) blk (l % 16))
      (BitVec.ofNat 64 r.1, r.2)) (s.computing c g d false) s c

/-- `Claim.FloatSpecialWords` and `Claim.FloatCompareConvertAndPackWords` together; their docstrings name the rules and logs. -/
def Obligations.FloatSpecialAndCompareWords : Prop := Claim.FloatSpecialWords ∧ Claim.FloatCompareConvertAndPackWords

/-- R101: a magnitude m at the scale 2^e, rounded to a multiple of 2^q: exact when q is at most e; else RTZ takes the
multiple below, RDN and RUP the one towards their infinity, RNE the nearest, a tie going to the even one. -/
def Claim.RoundingModes : Prop :=
  ∀ (neg : Bool) (m k : Nat) (e : Int),
    roundAt 0 neg m e e = (m, false) ∧
    (roundAt 1 neg m e (e + (k + 1 : Nat))).1 = m / 2 ^ (k + 1) ∧
    (roundAt 2 neg m e (e + (k + 1 : Nat))).1 = (if neg then (m + (2 ^ (k + 1) - 1)) / 2 ^ (k + 1) else m / 2 ^ (k + 1)) ∧
    (roundAt 3 neg m e (e + (k + 1 : Nat))).1 = (if neg then m / 2 ^ (k + 1) else (m + (2 ^ (k + 1) - 1)) / 2 ^ (k + 1)) ∧
    (let r := (roundAt 0 neg m e (e + (k + 1 : Nat))).1;
      2 * (r * 2 ^ (k + 1)) ≤ 2 * m + 2 ^ (k + 1) ∧ 2 * m ≤ 2 * (r * 2 ^ (k + 1)) + 2 ^ (k + 1) ∧
      (m % 2 ^ (k + 1) = 2 ^ k → r % 2 = 0)) ∧
    ∀ rm, ((roundAt rm neg m e (e + (k + 1 : Nat))).2 = true ↔ m % 2 ^ (k + 1) ≠ 0)

/-- R100, R102, R180, R181: a NaN operand gives the canonical NaN, and NV if one signals; infinities of opposite sign added,
0 × ∞, 0 / 0, ∞ / ∞ and the root of a negative number give the canonical NaN and NV; a finite nonzero number over 0
gives an infinity and DZ. In any format and mode. -/
def Claim.FloatInvalidOperations : Prop :=
  ∀ (f : Fmt) (rm a b : Nat) (p q : Bool) (m n : Nat) (e e' : Int),
    ((f.val a).isNan = true ∨ (f.val b).isNan = true →
      f.add rm a b = (f.nan, nvIf ((f.val a).snan || (f.val b).snan)) ∧
      f.sub rm a b = (f.nan, nvIf ((f.val a).snan || (f.val b).snan)) ∧
      f.mul rm a b = (f.nan, nvIf ((f.val a).snan || (f.val b).snan)) ∧
      f.div rm a b = (f.nan, nvIf ((f.val a).snan || (f.val b).snan))) ∧
    (f.val a = .inf p → f.val b = .inf (!p) → f.add rm a b = (f.nan, flagNV)) ∧
    (f.val a = .inf p → f.val b = .inf p → f.sub rm a b = (f.nan, flagNV)) ∧
    (f.val a = .inf p → f.val b = .fin q 0 e → f.mul rm a b = (f.nan, flagNV) ∧ f.mul rm b a = (f.nan, flagNV)) ∧
    (f.val a = .inf p → f.val b = .inf q → f.div rm a b = (f.nan, flagNV)) ∧
    (f.val a = .fin p 0 e → f.val b = .fin q 0 e' → f.div rm a b = (f.nan, flagNV)) ∧
    (f.val a = .fin p (m + 1) e → f.val b = .fin q 0 e' → f.div rm a b = (f.inf (p != q), flagDZ)) ∧
    (f.val a = .fin true (n + 1) e → f.sqrt rm a = (f.nan, flagNV)) ∧
    (f.val a = .inf true → f.sqrt rm a = (f.nan, flagNV))

/-- `Claim.RoundingModes` and `Claim.FloatInvalidOperations` together; their docstrings name the rules and logs. -/
def Obligations.FloatRoundingAndInvalid : Prop := Claim.RoundingModes ∧ Claim.FloatInvalidOperations

/-! ## Control flow and hints (R132 to R139, R185 to R203) -/

/-- R65, R185, R187, R189, R192, R194: BRA, CALL, RET, EXIT and YIELD. CALL moves the window down with the link in the new
%w15; RET with LO below D goes to the link and moves it up. In deterministic mode the exit of a crew's last thread, and a YIELD, are switch points
too, which change the subcore's choice of crew and nothing else. -/
def Claim.BranchCallAndExitWords : Prop :=
  ∀ (s : State) (c : Crew) (g : Guard) (i : BitVec 22), s.Runs c → s.Plain c →
    let act := s.activeLanes c g
    ChangesThreads (.bra g i) g (fun _ t => { t with pc := t.pc + i.signExtend 32 * 4, hints := {} }) s c ∧
    ((∀ l ∈ act, (c.thread l).trap = false ∧ (c.thread l).depth + 2 ≤ 5 + (c.thread l).lo ∧ (c.thread l).depth ≤ 1020) →
      ChangesThreads (.call g i) g (fun _ t =>
        let t1 := { t with depth := t.depth + 1 }
        { t1.put (t1.entry 31) (t.pc + 4) with pc := t.pc + i.signExtend 32 * 4, hints := {} }) s c) ∧
    ((∀ l ∈ act, (c.thread l).trap = false ∧ (c.thread l).lo < (c.thread l).depth ∧
        ((c.thread l).get ((c.thread l).entry 31)).toNat % 4 = 0) →
      ChangesThreads (.ret g) g (fun _ t =>
        { t with pc := t.get (t.entry 31), depth := t.depth - 1, hints := {} }) s c) ∧
    ((s.core (coreOf s.cur.slot)).ldet = false →
      ChangesThreads (.exit g) g (fun _ t => { t with st := .exited, hints := {} }) s c) ∧
    (∃ t c', exec (.exit g) s = .next t ∧ t.crew? s.cur.slot = some c' ∧ c' = { c with threads := c'.threads } ∧
      (∀ l ∈ act, c'.thread l = { c.thread l with st := .exited, hints := {} }) ∧
      t = { s with crews := t.crews, cores := t.cores, cycle := t.cycle, fresh := t.fresh } ∧
      ∀ n, t.core n = { s.core n with subcores := (t.core n).subcores }) ∧
    ∃ t c', exec (.yield g) s = .next t ∧ t.crew? s.cur.slot = some c' ∧ c' = { c with threads := c'.threads, period := none } ∧
      (∀ l ∈ s.cur.lanes, c'.thread l = { c.thread l with pc := (c.thread l).pc + 4, hints := {} }) ∧
      t = { s with crews := t.crews, cores := t.cores, cycle := t.cycle, fresh := t.fresh } ∧
      (∀ n, t.core n = { s.core n with subcores := (t.core n).subcores }) ∧
      ((s.core (coreOf s.cur.slot)).ldet = false → OnlyCrew s t c')

/-- R188: BRX and CALLX of a lane whose target passes its check: it lies at a multiple of 4 within the code range, is
executable, and the word there is a TGT hint with the right LAND bit. Only caches change beside the crew. -/
def Claim.IndirectBranchWords : Prop :=
  ∀ (s : State) (c : Crew) (g : Guard) (x : Reg) (l : Nat) (pc : Word), s.Runs c → s.Plain c →
    s.activeLanes c g = [l] →
    let target := c.read64 (c.thread l) x
    let others := fun c' : Crew => ∀ l' ∈ s.cur.lanes, l' ≠ l →
      c'.thread l' = { c.thread l' with pc := (c.thread l').pc + 4, hints := {} }
    ((s.landing s.cur.slot c target 0).1 = .ok pc →
      ∃ t c', exec (.brx g x) s = .next t ∧ CrewAndCaches s t c' ∧ OnlyRun s c c' ∧ c'.kregs = c.kregs ∧ others c' ∧
        c'.thread l = { c.thread l with pc := pc, hints := {} }) ∧
    ((s.landing s.cur.slot c target 1).1 = .ok pc → (c.thread l).trap = false →
      (c.thread l).depth + 2 ≤ 5 + (c.thread l).lo → (c.thread l).depth ≤ 1020 →
      ∃ t c', exec (.callx g x) s = .next t ∧ CrewAndCaches s t c' ∧ OnlyRun s c c' ∧ c'.kregs = c.kregs ∧ others c' ∧
        c'.thread l =
          let t1 := { c.thread l with depth := (c.thread l).depth + 1 }
          { t1.put (t1.entry 31) ((c.thread l).pc + 4) with pc := pc, hints := {} })

/-- R188: when a target passes its check. -/
def Claim.IndirectBranchTargets : Prop :=
  ∀ (s : State) (slot : Nat) (c : Crew) (t : DWord) (bit : Nat) (pc : Word),
    (s.landing slot c t bit).1 = .ok pc ↔
      t.toNat % 4 = 0 ∧ c.cb.toNat ≤ t.toNat ∧ t.toNat - c.cb.toNat ≤ 2 ^ 32 - 4 ∧ pc = (t - c.cb).setWidth 32 ∧
      ∃ pa, (s.codePlace slot c t.toNat).1 = .ok pa ∧
        landsAt ((s.codePlace slot c t.toNat).2.codeWord (coreOf slot) pa).1 bit = true

/-- `Claim.BranchCallAndExitWords` and `Claim.IndirectBranchWords` and `Claim.IndirectBranchTargets` together; their docstrings name the rules and logs. -/
def Obligations.BranchWords : Prop := Claim.BranchCallAndExitWords ∧ Claim.IndirectBranchWords ∧ Claim.IndirectBranchTargets

/-- R195, R198: TRAP and BKPT raise their codes, 0x17 and 0x16, with the user code C, on each active lane; RESUME is the
next word. A word that is no instruction raises UNDEF, 0x01, on every thread of the run (R131, R141). -/
def Claim.TrapWords : Prop :=
  ∀ (s : State) (c : Crew) (g : Guard) (k : BitVec 6) (w : BitVec 32), s.Runs c →
    let act := s.activeLanes c g
    let s1 := s.setCrew s.cur.slot (c.next (s.cur.lanes.filter fun l => !act.contains l))
    (s.Plain c → exec (.trap g k) s = .next
      ((s1.takeFaults s.cur.slot s.cycle (act.map fun l => (l, { code := 0x17, user := k, resume := 4 }))).spend 1)) ∧
    (s.Plain c → exec (.bkpt g k) s = .next
      ((s1.takeFaults s.cur.slot s.cycle (act.map fun l => (l, { code := 0x16, user := k, resume := 4 }))).spend 1)) ∧
    ∃ t, exec (.undefinedWord w) s = .next t ∧
      t.crews = (s.takeFaults s.cur.slot s.cycle (s.cur.lanes.map fun l => (l, { code := 0x01 }))).crews

/-- R132, R133: each hint adds its payload to what is pending in every thread of the run, which goes on; an
undefined hint adds nothing. IMMX, MODX, SCHED and CONVERGE need their kind not pending, TGT nothing pending.
What an IMMX does that is pending in a part of the run is deduced (log 14). -/
def Claim.HintWords : Prop :=
  ∀ (s : State) (c : Crew) (p : BitVec 22) (cp : BitVec 3) (v sat : BitVec 1) (f : BitVec 6) (rm q : BitVec 2)
    (k : BitVec 4), s.Runs c →
    let all := fun P : Hints → Prop => ∀ l ∈ s.cur.lanes, P (c.thread l).hints
    let adds := fun (i : Instr) (h : Hints → Hints) => ∃ t c', exec i s = .next t ∧ OnlyCrew s t c' ∧
      c' = { c with threads := c'.threads, join := c'.join } ∧ (∀ l, l ∉ s.cur.lanes → c'.thread l = c.thread l) ∧
      ∀ l ∈ s.cur.lanes, c'.thread l = { c.thread l with pc := (c.thread l).pc + 4, hints := h (c.thread l).hints }
    (all (fun h => h.immx = none) → adds (.immx p) fun h => { h with immx := some p }) ∧
    (all (fun h => h.modx = none) → cp.toNat < 5 →
      adds (.modx cp v f sat rm) fun h =>
        { h with modx := some (BitVec.ofNat 22 (cp.toNat * 1024 + v.toNat * 512 + f.toNat * 8 + sat.toNat * 4 + rm.toNat)) }) ∧
    (all (fun h => h.sched = none) → q ≠ 3 → adds (.sched q) fun h => { h with sched := some (q.setWidth 22) }) ∧
    (all (fun h => h = {}) → q ≠ 0 → adds (.tgt q) fun h => { h with tgt := some (q.setWidth 22) }) ∧
    (all (fun h => h.conv = none) → adds (.converge p) fun h => { h with conv := some p }) ∧
    adds (.undefinedHint k p) id

/-- `Claim.TrapWords` and `Claim.HintWords` together; their docstrings name the rules and logs. -/
def Obligations.TrapAndHintWords : Prop := Claim.TrapWords ∧ Claim.HintWords

/-- R196, R357, R359: a thread that is not in its handler takes a fault: the 64-byte record goes to the crew's store FIFO at
%SPILLB − 64, %TRAPINFO, %TRAPPC and %TRAPADDR are written, the hints are cleared, TRAP is set, the window moves down by
one frame, and the thread goes on at the trap vector. -/
def Obligations.TrapEntry : Prop :=
  ∀ (s : State) (slot lane : Nat) (c : Crew) (f : Trap) (pc : Word) (h : Hints) (issued : Nat) (p : Place) (v : Word),
    let th := c.thread lane
    s.crew? slot = some c → lane < c.threads.length → th.trap = false → s.replayable c.ctx false f = false →
    (f.code = 0x16 → (s.context c.ctx).debugger = false) → th.spillb.toNat % 64 = 0 →
    (s.check slot c (th.spillb - 64) 64 .write).1 = .ok p → c.trapv = some v →
    ∃ c' e, (s.takeFault slot lane f pc h issued).crew? slot = some c' ∧
      c' = { c with threads := c'.threads, fifo := c.fifo ++ [e] } ∧
      c'.thread lane = { th with
        trapinfo := f.ext ++ BitVec.ofNat 8 c.lost ++ f.src ++ f.user ++ f.code, trappc := pc, trapaddr := f.addr,
        hints := {}, outside := false, st := .runnable, trap := true, depth := th.depth + 1, pc := v } ∧
      (∀ l, l ≠ lane → c'.thread l = c.thread l) ∧
      e.op = .record ∧ e.space = p.space ∧ e.line = lineOf p.addr ∧
      e.bytes = mapFrom (fun i b => (i, b)) (p.addr % 128) (trapRecord f pc h c.lost issued) ∧
      (∀ k, k ≠ slot → (s.takeFault slot lane f pc h issued).crew? k = s.crew? k) ∧
      ∀ sp a, (s.takeFault slot lane f pc h issued).byteAt sp a = s.byteAt sp a

/-- R360: a fault in a handler, not replayable and with no debugger attached, ends the thread with an event of kind
2. The layout of the event's DATA is the model's (log 9). -/
def Claim.DoubleFault : Prop :=
  ∀ (s : State) (slot lane : Nat) (c : Crew) (f : Trap) (pc : Word) (h : Hints) (issued : Nat),
    s.crew? slot = some c → lane < c.threads.length → (c.thread lane).trap = true → s.replayable c.ctx true f = false →
    (s.context c.ctx).debugger = false →
    ∃ c' ev, (s.takeFault slot lane f pc h issued).crew? slot = some c' ∧
      c'.thread lane = { c.thread lane with st := .exited, hints := {}, outside := false } ∧
      (∀ l, l ≠ lane → c'.thread l = c.thread l) ∧
      (s.takeFault slot lane f pc h issued).cox.events = s.cox.events ++ [ev] ∧
      ev.source = coreOf slot ∧ ev.kind = 2 ∧ ev.ctx = c.ctx ∧
      ∀ sp a, (s.takeFault slot lane f pc h issued).byteAt sp a = s.byteAt sp a

/-- R363, R364: a replayable translation fault outside the handler blocks the lane at its PC with its hints kept,
and one report is open for it. The layout of the report's event is the model's (log 9), and so is the number of
the first report (log 6). -/
def Claim.ReplayableFault : Prop :=
  ∀ (s : State) (slot lane : Nat) (c : Crew) (f : Trap) (w : WalkFault) (pc : Word) (h : Hints) (issued : Nat),
    s.crew? slot = some c → lane < c.threads.length → (c.thread lane).trap = false → f.walk = some w → w.cause < 2 →
    (s.context c.ctx).replay = true →
    ∃ c' id, (s.takeFault slot lane f pc h issued).crew? slot = some c' ∧
      c'.thread lane = { c.thread lane with
        pc := pc, hints := h, outside := false, st := .replay ⟨f.code, f.addr, w.level, w.cause, id⟩ } ∧
      (∃ r ∈ (s.takeFault slot lane f pc h issued).cox.reports, r.id = id ∧ r.code = f.code ∧ r.answered = false) ∧
      ∀ sp a, (s.takeFault slot lane f pc h issued).byteAt sp a = s.byteAt sp a

/-- `Claim.DoubleFault` and `Claim.ReplayableFault` together; their docstrings name the rules and logs. -/
def Obligations.DoubleAndReplayableFaults : Prop := Claim.DoubleFault ∧ Claim.ReplayableFault

/-- R199, R202, R203, R440: ERET and LAUNCH begin a completion step, during which their threads stand outside the PC table and
their records, at SPILLB − 64 and at y, are read; SVC posts the run's one call to the device queue and goes on. -/
def Claim.ReturnLaunchAndServiceWords : Prop :=
  ∀ (s : State) (c : Crew) (g : Guard) (y : Reg) (n : BitVec 6) (l : Nat) (ls : List Nat), s.Runs c → s.Plain c →
    s.activeLanes c g = l :: ls →
    let act := s.activeLanes c g
    let a := c.read64 (c.thread l) y
    let begins := fun (i : Instr) (kind : StepKind) (at' : Nat → DWord) =>
      BeginsStep i kind act (c.thread l).pc s c (StepReads s c 64 act at')
    ((∀ l' ∈ act, (c.thread l').trap = true) → begins (.eret g) .eret fun k => (c.thread k).spillb - 64) ∧
    (ls = [] → l = 0 → c.crew = 0 → c.depth ≠ 10 → a.toNat % 64 = 0 → begins (.launch g y) (.launch a) fun _ => a) ∧
    (a.toNat % 64 = 0 → a.toNat < windowBase ∨ 2 ^ 56 ≤ a.toNat →
      ∃ t c', exec (.svc g y n) s = .next t ∧ t.crew? s.cur.slot = some c' ∧ c' = { c with threads := c'.threads } ∧
        (∀ l' ∈ s.cur.lanes, c'.thread l' = { c.thread l' with pc := (c.thread l').pc + 4, hints := {} }) ∧
        t.cox = { s.cox with deviceq := s.cox.deviceq ++ [⟨n.toNat, a, some (c.ctx, (s.context c.ctx).priv), s.nextId⟩] } ∧
        t = { s with crews := t.crews, cox := t.cox, nextId := s.nextId + 1, cycle := t.cycle, fresh := t.fresh })

/-- R65, R201: in a handler SPILLF stores the lowest frame the thread holds at SPILLB + 64 LO and raises LO; FILLF begins a
completion step that reads frame LO − 1, for which its lanes wait outside the PC table. -/
def Claim.SpillAndFillWords : Prop :=
  ∀ (s : State) (c : Crew) (g : Guard) (l : Nat) (ls : List Nat) (p : Place),
    s.Runs c → s.Plain c → s.activeLanes c g = l :: ls →
    let t0 := c.thread l
    (ls = [] → t0.trap = true → t0.lo < t0.depth → t0.spillb.toNat % 64 = 0 →
      let s1 := s.setCrew s.cur.slot (c.next (s.cur.lanes.filter fun k => !([l].contains k)))
      (s1.check s.cur.slot (c.next (s.cur.lanes.filter fun k => !([l].contains k))) (t0.spillb + BitVec.ofNat 64 (64 * t0.lo)) 64
        .write).1 = .ok p →
      ∃ t c' e, exec (.spillf g) s = .next t ∧ AccessFrame s t c' ∧
        c' = { c with threads := c'.threads, fifo := c.fifo ++ [e] } ∧
        (∀ k, k ∉ s.cur.lanes → c'.thread k = c.thread k) ∧
        (∀ k ∈ s.cur.lanes, c'.thread k =
          { c.thread k with pc := (c.thread k).pc + 4, hints := {}, lo := (c.thread k).lo + (if k = l then 1 else 0) }) ∧
        e.op = .spill ∧ e.space = p.space ∧ e.line = lineOf p.addr ∧ e.sent = false ∧
        ∀ j, Cells.find e.bytes j =
          if p.addr % 128 ≤ j ∧ j < p.addr % 128 + 64 then
            let i := j - p.addr % 128
            some (BitVec.ofNat 8 ((t0.get (16 + 16 * (t0.lo % 7) + i / 4)).toNat / 256 ^ (i % 4)))
          else none) ∧
    ((∀ k ∈ l :: ls, (c.thread k).trap = true ∧ (c.thread k).lo ≠ 0 ∧ (c.thread k).depth + 2 ≤ 5 + (c.thread k).lo ∧
        (c.thread k).spillb.toNat % 64 = 0) →
      BeginsStep (.fillf g) .fillf (l :: ls) t0.pc s c (StepReads s c 64 (l :: ls) fun k =>
        (c.thread k).spillb + BitVec.ofNat 64 (64 * ((c.thread k).lo - 1))))

/-- `Claim.ReturnLaunchAndServiceWords` and `Claim.SpillAndFillWords` together; their docstrings name the rules and logs. -/
def Obligations.ReturnLaunchServiceAndFrameWords : Prop := Claim.ReturnLaunchAndServiceWords ∧ Claim.SpillAndFillWords

/-! ## Special registers (R62, R204, R205, R368) -/

/-- R62, R204: CSRR writes the value of an assigned register to its destination, the privileged numbers from 0x200
in a privileged context only. %CYCLE passes by a free number of stall cycles (log 2). -/
def Claim.SpecialRegisterReads : Prop :=
  ∀ (s : State) (c : Crew) (g : Guard) (x : Reg), s.Runs c → s.Plain c →
    let slot := s.cur.slot
    let reads := fun (n : BitVec 10) (v : Nat → Nat) =>
      WritesRegister (.csrr g x n) g x false (fun l => BitVec.ofNat 64 (v l % 2 ^ 32)) s c
    let reads64 := fun (n : BitVec 10) (v : Nat → DWord) =>
      WritesRegister (.csrr g x n) g x (decide (48 ≤ x.toNat ∨ x.toNat % 2 = 0)) v s c
    reads 0x000 (fun l => 64 * c.crew + l) ∧ reads 0x001 (fun l => l) ∧ reads 0x002 (fun _ => c.crew) ∧
    reads 0x003 (fun _ => c.team) ∧ reads 0x004 (fun _ => c.grid.toNat) ∧
    reads 0x005 (fun _ => slot / 8 % 4 * 256 + slot / 32) ∧ reads 0x006 (fun _ => c.nCrew) ∧
    reads 0x007 (fun _ => c.nTeam) ∧ reads 0x008 (fun _ => c.depth) ∧ reads64 0x010 (fun _ => BitVec.ofNat 64 s.cycle) ∧
    reads 0x020 (fun _ => c.scopyLen) ∧ reads 0x021 (fun l => (c.thread l).fpflags.toNat) ∧
    reads 0x022 (fun _ => c.fifo.length) ∧ reads 0x030 (fun l => (c.thread l).trapinfo.toNat) ∧
    reads 0x031 (fun l => (c.thread l).trappc.toNat) ∧ reads64 0x032 (fun l => (c.thread l).trapaddr) ∧
    reads 0x040 (fun l => (if (c.thread l).trap then 2 ^ 31 else 0) + (if (c.thread l).limit then 2 ^ 30 else 0)
      + (c.thread l).lo % 1024 * 1024 + (c.thread l).depth % 1024) ∧
    reads64 0x041 (fun l => (c.thread l).spillb) ∧
    ((s.context c.ctx).priv = true →
      reads 0x200 (fun _ => c.ctx) ∧ reads64 0x201 (fun _ => (s.context c.ctx).trans) ∧
      reads64 0x210 (fun _ => c.watch.getD 0 0) ∧ reads64 0x211 (fun _ => c.watch.getD 1 0) ∧
      reads64 0x212 (fun _ => c.watch.getD 2 0) ∧ reads64 0x213 (fun _ => c.watch.getD 3 0))

/-- R205, R257, R368: CSRW writes %FPFLAGS and %SPILLB in each active lane, and %SLEN and the WATCH registers once, from the
lowest active lane; a write to a read-only register changes nothing but the PC and the hints. A changed %SLEN empties the
stream registers; the reserved bits of a WATCH register stay 0. -/
def Claim.SpecialRegisterWrites : Prop :=
  ∀ (s : State) (c : Crew) (g : Guard) (y : Reg) (l : Nat) (ls : List Nat), s.Runs c → s.Plain c →
    s.activeLanes c g = l :: ls →
    let v := fun (n : BitVec 10) (l : Nat) => c.csrSource (c.thread l) n y
    let writes := fun (n : BitVec 10) (after : Nat → Thread → Thread) (crew : Crew → Crew) =>
      ∃ t c', exec (.csrw g y n) s = .next t ∧ OnlyCrew s t c' ∧ c' = { crew c with threads := c'.threads } ∧
        (∀ l, l ∉ s.cur.lanes → c'.thread l = c.thread l) ∧
        ∀ l ∈ s.cur.lanes, c'.thread l =
          let t := if l ∈ s.activeLanes c g then after l (c.thread l) else c.thread l
          { t with pc := (c.thread l).pc + 4, hints := {} }
    let watch := fun (n : BitVec 10) (k : Nat) =>
      writes n (fun _ t => t) fun c => { c with watch := setAt c.watch k (v n l &&& 0x00FFFFFFFFFFFFFB) }
    writes 0x021 (fun l t => { t with fpflags := (v 0x021 l).setWidth 32 &&& 0x1F }) id ∧
    writes 0x041 (fun l t => { t with spillb := v 0x041 l }) id ∧
    (let n := (v 0x020 l).toNat % 2048
     writes 0x020 (fun _ t => t) fun c =>
      if (n = 128 ∨ n = 256 ∨ n = 512 ∨ n = 1024) ∧ n ≠ c.slen then
        { c with slen := n, scopyLen := n, streams := c.streams.map fun _ => Stream.reset, scopy := c.scopy.map fun _ => (0, true) }
      else c) ∧
    (∀ n : BitVec 10, n ∈ [0x000, 0x001, 0x002, 0x003, 0x004, 0x005, 0x006, 0x007, 0x008, 0x010, 0x022, 0x030, 0x031, 0x032, 0x040] →
      writes n (fun _ t => t) id) ∧
    ((s.context c.ctx).priv = true →
      watch 0x210 0 ∧ watch 0x211 1 ∧ watch 0x212 2 ∧ watch 0x213 3 ∧
      writes 0x200 (fun _ t => t) id ∧ writes 0x201 (fun _ t => t) id)

/-- R62, R131, R368: a special register from 0x200 in a context that is not privileged raises PRIV, 0x02, on every thread of
the run, whatever the guard. -/
def Claim.PrivilegedRegisters : Prop :=
  ∀ (s : State) (c : Crew) (g : Guard) (x : Reg) (n : BitVec 10), s.Runs c → s.Plain c →
    0x200 ≤ n.toNat → (s.context c.ctx).priv = false →
    ∃ t, exec (.csrr g x n) s = .next t ∧ exec (.csrw g x n) s = .next t ∧
      t = (s.takeFaults s.cur.slot s.cycle (s.cur.lanes.map fun l => (l, { code := 0x02 }))).spend 1

/-- `Claim.SpecialRegisterReads` and `Claim.SpecialRegisterWrites` and `Claim.PrivilegedRegisters` together; their docstrings name the rules and logs. -/
def Obligations.SpecialRegisters : Prop := Claim.SpecialRegisterReads ∧ Claim.SpecialRegisterWrites ∧ Claim.PrivilegedRegisters

/-! ## Memory words (R206 to R227). One active lane; its access passes the checks of R208 and no watchpoint covers it -/

/-- R209 to R212: a load of n bytes is recorded with the bytes the crew's own FIFO holds for it and the registers it
owes, and every run thread goes on. The address is y's pair plus the offset in units of the access size. That a
load into %k is made once, and what a quad of field 0 takes, are deduced (logs 38, 15). -/
def Claim.LoadWords : Prop :=
  ∀ (s : State) (c : Crew) (g : Guard) (d b x : Reg) (o : BitVec 7) (w : BitVec 1) (o8 : BitVec 8) (l : Nat) (p : Place),
    s.Runs c → s.activeLanes c g = [l] →
    let slot := s.cur.slot
    let t0 := c.thread l
    let loads := fun (i : Instr) (a : DWord) (n : Nat) (dest : Dest) =>
      (s.check slot c a n .read).1 = .ok p →
      ∃ t c' ld x, exec i s = .next t ∧ AccessFrame s t c' ∧
        c' = { c with threads := c'.threads, loads := c.loads ++ [ld], lts := c'.lts } ∧ RunGoesOn s c c' ∧
        ld.space = p.space ∧ ld.line = lineOf p.addr ∧ ld.lanes = [x] ∧ ld.pc = t0.pc ∧ ld.policy = t0.policy ∧
        x.lane = l ∧ x.va = a ∧ x.addr = p.addr ∧ x.size = n ∧ x.dest = dest ∧ x.takers = [(l, t0.hints)] ∧
        x.fwd = forwardBytes c.fifo p.space p.addr n ∧ x.watch = c.watched a n true false
    let addr := fun n => c.read64 t0 b + t0.offM o n
    loads (.ldN8 g d b o) (addr 1) 1 (.regs (t0.destEntries d 1) false) ∧
    loads (.ldI8 g d b o) (addr 1) 1 (.regs (t0.destEntries d 1) true) ∧
    loads (.ldN16 g d b o) (addr 2) 2 (.regs (t0.destEntries d 1) false) ∧
    loads (.ldI16 g d b o) (addr 2) 2 (.regs (t0.destEntries d 1) true) ∧
    loads (.ld32 g d b o) (addr 4) 4 (.regs (t0.destEntries d 1) false) ∧
    loads (.ld64 g d b o) (addr 8) 8 (.regs (t0.destEntries d 2) false) ∧
    loads (.ld128 g d b o) (addr 16) 16 (.regs (t0.destEntries d 4) false) ∧
    (s.Plain c →
      let n := if w = 1 then 8 else 4
      loads (.ldk g x b w o8) (c.read64 t0 b + o8.signExtend 64 * BitVec.ofNat 64 n) n (.kreg (x.toNat - 48) (decide (w = 1))))

/-- R206, R209 to R212: a store of n bytes joins the crew's store FIFO as one entry for its line, holding the bytes
of the data registers, lowest first, at their offsets; memory is as it was until the entry is performed. A quad
of field 0 storing zeros is deduced (log 15), and so is the word's wait for room in the FIFO (log 20). -/
def Claim.StoreWords : Prop :=
  ∀ (s : State) (c : Crew) (g : Guard) (d b x : Reg) (o : BitVec 7) (w : BitVec 1) (o8 : BitVec 8) (l : Nat) (p : Place),
    s.Runs c → s.activeLanes c g = [l] →
    let t0 := c.thread l
    let stores := fun (i : Instr) (a : DWord) (n : Nat) (v : Nat) =>
      (s.check s.cur.slot c a n .write).1 = .ok p → c.watched a n false true = false →
      ∃ t c' e, exec i s = .next t ∧ AccessFrame s t c' ∧ c' = { c with threads := c'.threads, fifo := c.fifo ++ [e] } ∧
        RunGoesOn s c c' ∧ e.op = .store ∧ e.space = p.space ∧ e.line = lineOf p.addr ∧ e.sent = false ∧
        ∀ j, Cells.find e.bytes j =
          if p.addr % 128 ≤ j ∧ j < p.addr % 128 + n then some (BitVec.ofNat 8 (v / 256 ^ (j - p.addr % 128))) else none
    let addr := fun n => c.read64 t0 b + t0.offM o n
    stores (.st8 g d b o) (addr 1) 1 (c.read32 t0 d).toNat ∧
    stores (.st16 g d b o) (addr 2) 2 (c.read32 t0 d).toNat ∧
    stores (.st32 g d b o) (addr 4) 4 (c.read32 t0 d).toNat ∧
    stores (.st64 g d b o) (addr 8) 8 (c.read64 t0 d).toNat ∧
    stores (.st128 g d b o) (addr 16) 16 (c.readQuad t0 d).toNat ∧
    (s.Plain c →
      let n := if w = 1 then 8 else 4
      stores (.stk g x b w o8) (c.read64 t0 b + o8.signExtend 64 * BitVec.ofNat 64 n) n (c.kreg (x.toNat - 48)).toNat)

/-- `Claim.LoadWords` and `Claim.StoreWords` together; their docstrings name the rules and logs. -/
def Obligations.LoadAndStoreWords : Prop := Claim.LoadWords ∧ Claim.StoreWords

/-- R206, R217 to R222, R225: the atomics of the slices and of the decks join the FIFO with their operation, their
operands and, where they return a value, the register it goes to. The quad of ATOM.CAS and the wait for room are
deduced (logs 15, 20). -/
def Obligations.AtomicWords : Prop :=
  ∀ (s : State) (c : Crew) (g : Guard) (x y : Reg) (w r : BitVec 1) (ty : BitVec 2) (rt : BitVec 6) (l : Nat) (u : Touch),
    s.Runs c → s.Plain c → s.activeLanes c g = [l] →
    let slot := s.cur.slot
    let t0 := c.thread l
    let a := c.read64 t0 y
    let joins := fun (i : Instr) (chk : Except Trap Touch × State) (n : Nat) (op : EntryOp) (v v2 : DWord) (dest : Dest) =>
      chk.1 = .ok u → c.watched u.va n true true = false →
      ∃ t c' e, exec i s = .next t ∧ AccessFrame s t c' ∧ c' = { c with threads := c'.threads, fifo := c.fifo ++ [e] } ∧
        RunGoesOn s c c' ∧ e.op = op ∧ e.space = u.place.space ∧ e.line = lineOf u.place.addr ∧ e.size = n ∧
        e.bytes = [] ∧ e.items = [⟨l, u.va, u.place.addr, v, v2, dest, t0.hints⟩]
    let n := if w = 1 then 8 else 4
    let one := if w = 1 then c.read64 t0 x else (c.read32 t0 x).setWidth 64
    let back := if r = 1 then Dest.regs (t0.destEntries x (if w = 1 then 2 else 1)) false else .discard
    let atom := fun (i : Instr) (k : Nat) =>
      joins i (s.checkAtom slot c l a n k) n (.atom (BitVec.ofNat 4 k) (decide (w = 1)) (decide (r = 1))) one 0 back
    let q := c.readQuad t0 x
    u.lane = l →
    atom (.atomAdd g x y w r) 0 ∧ atom (.atomMin g x y w r) 1 ∧ atom (.atomMax g x y w r) 2 ∧
    atom (.atomMinu g x y w r) 3 ∧ atom (.atomMaxu g x y w r) 4 ∧ atom (.atomAnd g x y w r) 5 ∧
    atom (.atomOr g x y w r) 6 ∧ atom (.atomXor g x y w r) 7 ∧ atom (.atomXchg g x y w r) 8 ∧
    joins (.atomCas g x y w r) (s.checkAtom slot c l a n 9) n (.atom 9 (decide (w = 1)) (decide (r = 1)))
      (if w = 1 then c.read64 t0 x else (c.read32 t0 x).setWidth 64)
      (if w = 1 then q.extractLsb' 64 64
       else if 48 ≤ x.toNat then (q.extractLsb' 64 32).setWidth 64 else (q.extractLsb' 32 32).setWidth 64) back ∧
    joins (.atomFadd g x y r) (s.checkAtom slot c l a 4 10) 4 (.atom 10 false (decide (r = 1)))
      ((c.read32 t0 x).setWidth 64) 0 (if r = 1 then .regs (t0.destEntries x 1) false else .discard) ∧
    joins (.scadd g x y ty) (s.checkDeck slot c l (c.read32 t0 y) (if 2 ≤ ty.toNat then 8 else 4))
      (if 2 ≤ ty.toNat then 8 else 4) (.scadd ty)
      (if 2 ≤ ty.toNat then c.read64 t0 x else (c.read32 t0 x).setWidth 64) 0 .discard ∧
    joins (.binapp g x y) (s.checkDeck slot c l (c.read32 t0 y) 8) 8 .binapp 0 0 (.regs (t0.destEntries x 1) false) ∧
    (u.place.addr < hostBase →
      joins (.atomr g x y rt) (s.checkGlobal slot c l (a &&& ~~~(0x7F : DWord)) 4 .atomic) 4 (.atomr rt.toNat)
        ((c.read32 t0 x).setWidth 64) (a &&& 0x7F) (.regs (t0.destEntries x 1) false))

/-- R213 to R216, R227, R284, R287: MCAST.LD, CCTL and RPUT join the FIFO; PREFETCH queues a request at the line's home slice,
which is refused by a full ingress queue and waits for a copy's room in the core; that a full queue refuses is the model's
reading (log 52). A FENCE
lets every run thread go on, and from die scope up takes the crew's logical time past every older lease. -/
def Obligations.CacheFenceAndMailboxWords : Prop :=
  ∀ (s : State) (c : Crew) (g : Guard) (x y : Reg) (lv : BitVec 2) (sc m : BitVec 3) (l : Nat) (p : Place) (u : Touch),
    s.Runs c → s.Plain c → s.activeLanes c g = [l] →
    let slot := s.cur.slot
    let t0 := c.thread l
    let a := c.read64 t0 y
    let joins := fun (i : Instr) (sp : Space) (op : EntryOp) (line : Nat) (items : List Item) =>
      ∃ t c' e, exec i s = .next t ∧ AccessFrame s t c' ∧ c' = { c with threads := c'.threads, fifo := c.fifo ++ [e] } ∧
        RunGoesOn s c c' ∧ e.op = op ∧ e.space = sp ∧ e.line = line ∧ e.bytes = [] ∧ e.items = items
    let cctl := fun (i : Instr) (k : Nat) =>
      (a.toNat < windowBase ∨ 2 ^ 56 ≤ a.toNat) → (s.check slot c a 1 .read).1 = .ok p →
        joins i .global (.cctl k) (lineOf p.addr) []
    ((s.checkMcast slot c l a (c.read64 t0 x)).1 = .ok u →
      joins (.mcastLd g x y) .global (.mcast (c.read64 t0 x)) (lineOf u.place.addr)
        [⟨u.lane, u.va, u.place.addr, 0, 0, .discard, t0.hints⟩]) ∧
    cctl (.cctlIinv g y) 0 ∧ cctl (.cctlL1inv g y) 1 ∧ cctl (.cctlL2wb g y) 2 ∧ cctl (.cctlL2inv g y) 3 ∧
    (a.toNat < 1024 * c.nTeam → a.toNat % 1024 < 64 * c.nCrew →
      joins (.rput g x y m) .mailbox (.rput m.toNat) a.toNat
        [⟨l, a, a.toNat, (c.read32 t0 x).setWidth 64, 0, .discard, t0.hints⟩]) ∧
    ((a.toNat < windowBase ∨ 2 ^ 56 ≤ a.toNat) → (s.check slot c a 1 .read).1 = .ok p →
      let k := s.core (coreOf slot)
      let home := s.homeSlice (lineOf p.addr)
      let e := s.slice home
      ∃ t c' r, exec (.prefetch g y lv) s = .next t ∧ AccessFrame s t c' ∧ c' = { c with threads := c'.threads } ∧
        RunGoesOn s c c' ∧ r.line = lineOf p.addr ∧ r.kind = .prefetch (coreOf slot) lv.toNat ∧ r.core = coreOf slot ∧
        r.policy = t0.policy ∧
        (k.unanswered.length < 32 → e.ingress.length < 32 →
          (t.slice home).ingress = e.ingress ++ [r] ∧ (t.core (coreOf slot)).unanswered = k.unanswered ++ [r]) ∧
        (k.unanswered.length < 32 → 32 ≤ e.ingress.length → ∃ x ∈ (t.core (coreOf slot)).retry, x.req = { r with attempt := 2 }) ∧
        (32 ≤ k.unanswered.length → (t.core (coreOf slot)).sendq = k.sendq ++ [r])) ∧
    (sc.toNat < 5 ∨ c.pcieWrites = false →
      ∃ t c', exec (.fence g sc) s = .next t ∧ OnlyCrew s t c' ∧ RunGoesOn s c c' ∧
        c' = { c with threads := c'.threads, lts := if 3 ≤ sc.toNat then max c.lts (s.largestLease (coreOf slot) + 1) else c.lts }) ∧
    (sc = 5 → c.pcieWrites = true →
      ∃ t c' q, exec (.fence g sc) s = .next t ∧ t.crew? slot = some c' ∧ RunGoesOn s c c' ∧
        c' = { c with threads := c'.threads, lts := max c.lts (s.largestLease (coreOf slot) + 1), pcieWrites := false } ∧
        q.slot = slot ∧ q.kind = .fence ∧
        t = { s with crews := t.crews, links := { s.links with pcie := s.links.pcie ++ [q] }, egress := s.egress ++ [.pcieFlush], nextId := s.nextId + 1, cycle := t.cycle, fresh := t.fresh })

/-- R208: the checks of an access of n bytes come in order: an address of 2^56 or above fails as a walk of level 3,
cause 4; then a misaligned one raises ALIGN, 0x03; then the window, the translation and the link decide. That a
cached translation whose permissions do not allow the access is walked again is deduced (log 16). -/
def Obligations.AccessChecks : Prop :=
  ∀ (s : State) (slot : Nat) (c : Crew) (a : DWord) (n : Nat) (kind : WalkKind),
    (2 ^ 56 ≤ a.toNat → (s.check slot c a n kind).1 =
      .error { code := walkCode kind, addr := a, ext := 0x34, walk := some ⟨3, 4⟩ }) ∧
    (a.toNat < 2 ^ 56 → a.toNat % n ≠ 0 → (s.check slot c a n kind).1 = .error { code := 0x03, addr := a }) ∧
    (a.toNat < windowBase → a.toNat % n = 0 → ∀ f, (s.translate (coreOf slot) c.ctx a.toNat kind).1 = .error f → f.cause < 16 →
      (s.check slot c a n kind).1 =
        .error { code := walkCode kind, addr := a, ext := BitVec.ofNat 8 (f.level * 16 + f.cause), walk := some f }) ∧
    (a.toNat < windowBase → a.toNat % n = 0 → ∀ pa hp, (s.translate (coreOf slot) c.ctx a.toNat kind).1 = .ok (pa, hp) →
      (s.check slot c a n kind).1 =
        if hostBase ≤ pa ∧ s.linkdown hp = true then .error { code := 0x13, addr := a } else .ok ⟨.global, pa, hp⟩) ∧
    (windowBase ≤ a.toNat → a.toNat < windowBase + 0x80000 → a.toNat % n = 0 →
      (s.check slot c a n kind).1 =
        if a.toNat - windowBase + n ≤ c.deckSize then .ok ⟨.deck (coreOf slot), c.deckBase + (a.toNat - windowBase), false⟩
        else .error { code := 0x1B, addr := a }) ∧
    CachesOnly s (s.check slot c a n kind).2

/-! ## Counters (R72 to R92, R228, R229). One active lane, no pending engine fault -/

/-- R76 to R85, R90: on a counter of the crew itself the effect is at once: CALLOC takes the lowest index that is not live
under the next generation, CFREE ends its life, CREAD and CTEST read it with acquire, an add that neither saturates nor
meets a waiter raises value and logical time, and a CWAIT or WAITE that is met goes on. -/
def Obligations.CrewCounterWords : Prop :=
  ∀ (s : State) (c : Crew) (g : Guard) (x y : Reg) (i8 : BitVec 8) (p : BitVec 3) (cl : BitVec 2) (kk : BitVec 7) (l : Nat),
    s.Runs c → s.Plain c → s.activeLanes c g = [l] → c.efault = none →
    let t0 := c.thread l
    let h := c.read64 t0 y
    let n := handleIndex h
    let k := c.ctrs.ctr n
    let next := fun (q : Nat) => { c.thread q with pc := (c.thread q).pc + 4, hints := {} }
    let acts := fun (i : Instr) (after : Crew → Prop) => ∃ t c', exec i s = .next t ∧ IssueFrame s t c' ∧
      (∀ q, q ∉ s.cur.lanes → c'.thread q = c.thread q) ∧ after c'
    let writes := fun (v : DWord) (ctrs : CtrHome) (lts : Nat) (c' : Crew) =>
      c' = { c with threads := c'.threads, kregs := c'.kregs, utags := c'.utags, ctrs := ctrs, lts := lts } ∧
      KregsAfter c c' [l] x true (fun _ => v) ∧
      ∀ q ∈ s.cur.lanes, c'.thread q = { next q with regs := (c'.thread q).regs } ∧
        if q = l ∧ x.toNat < 48 then RegsAfter (c.thread q) (c'.thread q) x true v
        else (c'.thread q).regs = (c.thread q).regs
    let goes := fun (ctrs : CtrHome) (lts : Nat) (f : Thread → Thread) (c' : Crew) =>
      c' = { c with threads := c'.threads, ctrs := ctrs, lts := lts } ∧
      ∀ q ∈ s.cur.lanes, c'.thread q = if q = l then f (next q) else next q
    let added := fun (v : Word) => c.ctrs.setCtr n { k with value := k.value + v.toNat, lts := max k.lts c.lts }
    let quiet := fun (v : Word) => k.value + v.toNat < 2 ^ 64 ∧ ∀ w ∈ c.ctrs.waiters, w.index = n → k.value + v.toNat < w.threshold
    (∀ m, m < 16 → (∀ j < m, (c.ctrs.ctr j).live = true) → (c.ctrs.ctr m).live = false → Cells.canonical Counter.reset c.ctrs.ctrs = true →
      let gen := if (c.ctrs.ctr m).gen = 0xFFFFFF then 1 else (c.ctrs.ctr m).gen + 1
      acts (.calloc g x 0) (writes (handleOf 0 0 m gen) (c.ctrs.setCtr m ⟨0, true, gen, 0, 0⟩) c.lts)) ∧
    (handleScope h = 0 → handleHome h = 0 → n < 16 → k.live = true → k.gen = handleGen h →
      ((∀ w ∈ c.ctrs.waiters, w.index ≠ n) →
        acts (.cfree g y) (goes (c.ctrs.setCtr n { k with live := false }) c.lts id)) ∧
      acts (.cread g x y) (writes (BitVec.ofNat 64 k.value) c.ctrs (max c.lts k.lts)) ∧
      (let met := decide ((c.read64 t0 x).toNat ≤ k.value)
       acts (.ctest g x y p) (goes c.ctrs (if met = true then max c.lts k.lts else c.lts) fun t => t.setPred p.toNat met)) ∧
      (quiet (c.read32 t0 x) → acts (.caddReg g x y) (goes (added (c.read32 t0 x)) c.lts id)) ∧
      (quiet (i8.setWidth 32) → acts (.caddImm g y i8) (goes (added (i8.setWidth 32)) c.lts id)) ∧
      (quiet (c.read32 t0 x) →
        acts (.caddrReg g x y) (writes (BitVec.ofNat 64 k.value) (added (c.read32 t0 x)) c.lts)) ∧
      (quiet (i8.setWidth 32) →
        acts (.caddrImm g x y i8) (writes (BitVec.ofNat 64 k.value) (added (i8.setWidth 32)) c.lts)) ∧
      ((c.read64 t0 x).toNat ≤ k.value →
        acts (.cwait g x y) (goes c.ctrs (max c.lts k.lts) fun t => { t with st := .runnable })) ∧
      ((c.read64 t0 x).toNat ≤ k.value →
        acts (.cwaitTo g x y p) (goes c.ctrs (max c.lts k.lts) fun t => { t with st := .runnable }.setPred p.toNat true))) ∧
    (let issued := c.issued.getD cl.toNat 0
     (issued ≤ kk.toNat ∨ issued - kk.toNat ≤ c.done.getD cl.toNat 0 →
      acts (.waite g cl kk) (goes c.ctrs (max c.lts (c.cmdTime.getD cl.toNat 0)) id)) ∧
     (kk.toNat < issued → c.done.getD cl.toNat 0 < issued - kk.toNat →
      acts (.waite g cl kk) fun c' => c' = { c with threads := c'.threads } ∧
        ∀ q ∈ s.cur.lanes, c'.thread q =
          if q = l then { c.thread q with st := .waitTicket cl.toNat kk.toNat issued } else next q))

/-- R77, R82, R84, R229, R441: on a counter of wider scope the operation is handed to its home with the crew's
logical time and the loads and atomics older than it, and the lane goes on; the lane of a CWAIT blocks there.
That a blocked lane keeps its PC at the word is deduced (log 18). -/
def Claim.CounterRequests : Prop :=
  ∀ (s : State) (c : Crew) (g : Guard) (x y : Reg) (i8 : BitVec 8) (p sc : BitVec 3) (l : Nat) (r : HomeRef),
    s.Runs c → s.Plain c → s.activeLanes c g = [l] → c.efault = none →
    let slot := s.cur.slot
    let t0 := c.thread l
    let h := c.read64 t0 y
    let next := fun (q : Nat) => { c.thread q with pc := (c.thread q).pc + 4, hints := {} }
    let back := if 48 ≤ x.toNat then Dest.kreg (x.toNat - 48) true else .regs (t0.destEntries x 2) false
    let asks := fun (i : Instr) (kind : CtrKind) (handle thr : DWord) (dest : Dest) (blocked : Option CounterWait) =>
      ∃ t c' o, exec i s = .next t ∧ IssueFrame s t c' ∧ t.nextId = s.nextId + 1 ∧
        c' = { c with threads := c'.threads, ctrOps := c.ctrOps ++ [o] } ∧
        (∀ q, q ∉ s.cur.lanes → c'.thread q = c.thread q) ∧
        (∀ q ∈ s.cur.lanes, c'.thread q =
          match blocked with
          | some w => if q = l then { c.thread q with st := .waitCounter w } else next q
          | none => next q) ∧
        o = ⟨s.nextId, kind, handle, thr, [l], dest, c.loads.map (·.id) ++ (c.fifo.filter fun e => e.op.unknown).map (·.id),
          false, c.lts, t0.pc, [(l, t0.hints)], s.cycle⟩
    (sc ≠ 0 → (sc = 2 → (s.cluster (clusterOf (coreOf slot))).owner = some c.ctx) →
      asks (.calloc g x sc) (.alloc sc.toNat) 0 0 back none) ∧
    (handleScope h ≠ 0 → s.reach slot c h = some r →
      asks (.cfree g y) .free h 0 .discard none ∧
      asks (.cread g x y) .read h 0 back none ∧
      asks (.ctest g x y p) .test h (c.read64 t0 x) (.pred p.toNat) none ∧
      asks (.caddReg g x y) (.add (c.read32 t0 x)) h 0 .discard none ∧
      asks (.caddImm g y i8) (.add (i8.setWidth 32)) h 0 .discard none ∧
      asks (.caddrReg g x y) (.addr (c.read32 t0 x)) h 0 back none ∧
      asks (.caddrImm g x y i8) (.addr (i8.setWidth 32)) h 0 back none ∧
      (c.sharedWait h (c.read64 t0 x) s.nextId = none →
        asks (.cwait g x y) .wait h (c.read64 t0 x) .discard (some ⟨h, c.read64 t0 x, none, none, none, s.nextId⟩)) ∧
      (let thr := c.read64 t0 x
       let time := ((c.readQuad t0 x).extractLsb' 64 32).toNat
       c.sharedWait h thr s.nextId = none →
        asks (.cwaitTo g x y p) .wait h thr .discard (some ⟨h, thr, some (s.cycle + max 1 time), some p, none, s.nextId⟩)))

/-- R92: a pending engine fault is raised on the lowest active lane of the next counter or ticket word, which that lane does
not execute; the record shows the count of lost faults, and both are cleared. -/
def Claim.PendingEngineFault : Prop :=
  ∀ (s : State) (c : Crew) (g : Guard) (x y : Reg) (i8 : BitVec 8) (p sc : BitVec 3) (cl : BitVec 2) (kk : BitVec 7) (l : Nat)
      (f : EngFault) (v : Word) (pl : Place),
    s.Runs c → s.Plain c → s.activeLanes c g = [l] → c.efault = some f → (s.context c.ctx).debugger = false →
    (c.thread l).trap = false → c.trapv = some v → (c.thread l).spillb.toNat % 64 = 0 →
    (let c1 := c.next (s.cur.lanes.filter fun q => !([l].contains q))
     ((s.setCrew s.cur.slot c1).check s.cur.slot c1 ((c.thread l).spillb - 64) 64 .write).1 = .ok pl) →
    ∀ i ∈ ([.calloc g x sc, .cfree g y, .cread g x y, .ctest g x y p, .caddReg g x y, .caddImm g y i8, .caddrReg g x y,
        .caddrImm g x y i8, .cwait g x y, .cwaitTo g x y p, .waite g cl kk] : List Instr),
      ∃ t c', exec i s = .next t ∧ t.crew? s.cur.slot = some c' ∧ c'.efault = none ∧ c'.lost = 0 ∧ c'.ctrs = c.ctrs ∧
        c'.ctrOps = c.ctrOps ∧
        c'.thread l = { c.thread l with
          trapinfo := f.ext ++ BitVec.ofNat 8 c.lost ++ (1 : BitVec 2) ++ (0 : BitVec 6) ++ f.code, trappc := (c.thread l).pc
          trapaddr := f.addr, hints := {}, outside := false, st := .runnable, trap := true, depth := (c.thread l).depth + 1
          pc := v }

/-- `Claim.CounterRequests` and `Claim.PendingEngineFault` together; their docstrings name the rules and logs. -/
def Obligations.CounterRequestWords : Prop := Claim.CounterRequests ∧ Claim.PendingEngineFault

/-! ## Engines (R230, R242, R250) -/

/-- R230, R235, R242, R245, R251: a posting word begins a completion step. Its block is the eight %k registers read at issue, or
64 bytes of the deck (32 for OBRES) read by its lowest lane, whose address faults DECKRANGE and ALIGN as R230 says. -/
def Claim.PostingWords : Prop :=
  ∀ (s : State) (c : Crew) (g : Guard) (y : Reg) (r : BitVec 5) (tb : BitVec 2) (l : Nat) (ls : List Nat),
    s.Runs c → s.Plain c → s.activeLanes c g = l :: ls →
    let off := (c.read32 (c.thread l) y).toNat
    let regs := ((upFrom 8 8).map fun k => bytesOf 8 (c.kreg k).toNat).flatten
    let noRead := fun (p : Pending) (ld : List Load) => p.due = [] ∧ p.got = [] ∧ ld = []
    let z := BitVec.ofNat 64 off
    let reads := fun (n : Nat) (p : Pending) (ld : List Load) =>
      (2 ^ 19 ≤ off → p.got = [(l, .fault { code := 0x1B, addr := z })] ∧ p.due = [] ∧ ld = []) ∧
      (off < 2 ^ 19 → off % n ≠ 0 → p.got = [(l, .fault { code := 0x03, addr := z })] ∧ p.due = [] ∧ ld = []) ∧
      (off < 2 ^ 19 → off % n = 0 → c.deckSize < off + n →
        p.got = [(l, .fault { code := 0x1B, addr := z })] ∧ p.due = [] ∧ ld = []) ∧
      (off < 2 ^ 19 → off % n = 0 → off + n ≤ c.deckSize → p.got = [] ∧ p.due = [l] ∧
        StepRead c p ld l (BitVec.ofNat 64 (windowBase + off)) n ⟨.deck (coreOf s.cur.slot), c.deckBase + off, false⟩)
    let begins := fun (i : Instr) (kind : PostKind) =>
      BeginsStep i (.post kind (some off) []) (l :: ls) (c.thread l).pc s c (reads (if kind = .obres r.toNat then 32 else 64))
    let beginsK := fun (i : Instr) (kind : PostKind) =>
      BeginsStep i (.post kind none regs) (l :: ls) (c.thread l).pc s c noRead
    begins (.xcopy g y) .xcopy ∧ beginsK (.xcopyK g) .xcopy ∧
    begins (.mxcmd g y) .mxcmd ∧ beginsK (.mxcmdK g) .mxcmd ∧
    beginsK (.mxtab g y tb) (.mxtab tb.toNat (c.read64 (c.thread l) y)) ∧
    begins (.obres g y r) (.obres r.toNat) ∧
    begins (.collAllreduce g y) (.coll 0) ∧ begins (.collReducescatter g y) (.coll 1) ∧
    begins (.collAllgather g y) (.coll 2) ∧ begins (.collGather g y) (.coll 3) ∧
    begins (.collScatter g y) (.coll 4) ∧ begins (.collAlltoall g y) (.coll 5)

/-- R242, R250: OBREL ends a live reservation record; ACCLD reads and ACCST writes one word of the accumulator store. -/
def Claim.RecordAndAccumulatorWords : Prop :=
  ∀ (s : State) (c : Crew) (g : Guard) (x y : Reg) (r : BitVec 5) (l : Nat), s.Runs c → s.Plain c →
    s.activeLanes c g = [l] →
    let core := coreOf s.cur.slot
    let i := (c.read32 (c.thread l) y).toNat
    let changes := fun (w : Instr) (after : Core → Core → Prop) => ∃ t c', exec w s = .next t ∧
      t.crew? s.cur.slot = some c' ∧ c' = { c with threads := c'.threads } ∧ RunGoesOn s c c' ∧
      (∀ k, k ≠ s.cur.slot → t.crew? k = s.crew? k) ∧ (∀ n, n ≠ core → t.core n = s.core n) ∧
      after (s.core core) (t.core core) ∧
      t = { s with crews := t.crews, cores := t.cores, cycle := t.cycle, fresh := t.fresh }
    ((s.core core).record? r.toNat ≠ none →
      changes (.obrel g r) fun k k' => k' = { k with records := k'.records } ∧
        ∀ n, k'.record? n = if n = r.toNat then none else k.record? n) ∧
    (i < 524288 → (s.core core).accBad i = false →
      WritesRegister (.accld g x y) g x false (fun _ => ((s.core core).accWord i).setWidth 64) s c) ∧
    (i < 524288 →
      changes (.accst g x y) fun k k' => k' = { k with acc := k'.acc } ∧
        ∀ a, k'.acc.byte a =
          if 4 * i ≤ a ∧ a < 4 * i + 4 then BitVec.ofNat 8 ((c.read32 (c.thread l) x).toNat / 256 ^ (a - 4 * i))
          else k.acc.byte a)

/-- `Claim.PostingWords` and `Claim.RecordAndAccumulatorWords` together; their docstrings name the rules and logs. -/
def Obligations.PostingAndRecordWords : Prop := Claim.PostingWords ∧ Claim.RecordAndAccumulatorWords

/-! ## Stochastic streams (R256 to R271) -/

/-- R259 to R270: a stream word whose registers are granted, whose sources hold a stream and whose tags pass its test joins
the core's queue; the subcore's copy gets the new tag, merged with the old one where lanes keep their bits. -/
def Claim.StreamWords : Prop :=
  ∀ (s : State) (c : Crew) (d a b q : BitVec 3) (n : BitVec 4) (m : BitVec 2) (k : BitVec 6), s.Runs c → s.Plain c →
    s.cur.lanes ≠ [] →
    let joins := fun (i : Instr) (note : Crew) (vals : List DWord) (dests : List (Nat × Nat)) =>
      JoinsStreams i note vals dests s c
    let granted := fun (r : BitVec 3) => r.toNat < c.nStreams
    let holds := fun (r : BitVec 3) => r.toNat < c.nStreams ∧ (c.sview r.toNat).2 = false
    let tag := fun (r : BitVec 3) => (c.sview r.toNat).1
    let full := ∀ l < c.threads.length, l ∈ s.cur.lanes ∨ (c.thread l).st = .exited
    let writes := fun (v : BitVec 16) (new : BitVec 16) (r : Crew) =>
      r = { c with scopy := setAt c.scopy d.toNat (new, false) } ∧
        ((c.threads.length = 64 ∧ full) → new = v) ∧ (c.threads.length = 64 → ¬full → new = tag d ||| v)
    let result := fun (i : Instr) (v : BitVec 16) (vals : List DWord) =>
      c.threads.length = 64 → ∃ new note, writes v new note ∧ joins i note vals []
    let gen := (1 : BitVec 16) <<< n.toNat
    let field := fun (r : BitVec 3) => 16 + r.setWidth 6
    let into := s.cur.lanes.map fun l => (l, (c.thread l).entry (field q).toNat)
    joins (.sseed n m) c [c.kreg 15, c.kreg 14] [] ∧
    (granted d → result (.sgen d q n) gen ((upFrom 0 64).map fun l => (c.read32 (c.thread l) (field q)).setWidth 64)) ∧
    (granted d → result (.sgenk d q n) gen [c.kreg (8 + q.toNat)]) ∧
    joins (.slen m)
      (if 128 * 2 ^ m.toNat = c.scopyLen then c
       else { c with scopyLen := 128 * 2 ^ m.toNat, scopy := c.scopy.map fun _ => (0, true) }) [] [] ∧
    (granted d → holds a → holds b →
      (tag a &&& tag b = 0 → result (.sand d a b) (tag a ||| tag b) [] ∧ result (.sxnor d a b) (tag a ||| tag b) []) ∧
      result (.sor d a b) (tag a ||| tag b) [] ∧
      (tag a = tag b → (∃ i, tag a = (1 : BitVec 16) <<< (i : Nat) ∧ i < 16) →
        result (.ssub d a b) (tag a) [] ∧ result (.smin d a b) (tag a) [] ∧ result (.smax d a b) (tag a) []) ∧
      (holds q → tag q &&& tag a = 0 → tag q &&& tag b = 0 →
        result (.smux d a b q) (tag a ||| tag b ||| tag q) [])) ∧
    (granted d → holds a →
      result (.snot d a) (tag a) [] ∧ result (.smov d a) (tag a) [] ∧ result (.srot d a k) (tag a) [] ∧
      result (.sregen d a n) gen []) ∧
    (holds a → joins (.scnt a q) c [] into) ∧
    (granted a → joins (.stag a q) c [] into) ∧
    (holds a → holds b → tag a &&& tag b = 0 → joins (.sdot a b q) c [] into)

/-- R261, R267: a register that is not granted or holds no stream raises SEMPTY, 0x11; overlapping tags where the operands
must be independent raise SCORR, 0x0F; operands of SSUB, SMIN and SMAX without one common generator raise SINDEP, 0x10. Every
thread of the run takes the fault and nothing is queued. -/
def Claim.StreamFaults : Prop :=
  ∀ (s : State) (c : Crew) (d a b : BitVec 3), s.Runs c → s.Plain c →
    let raises := fun (i : Instr) (code : BitVec 8) (addr : DWord) =>
      exec i s = .next ((s.takeFaults s.cur.slot s.cycle (s.cur.lanes.map fun l => (l, { code := code, addr := addr }))).spend 1)
    let tag := fun (r : BitVec 3) => (c.sview r.toNat).1
    let holds := fun (r : BitVec 3) => r.toNat < c.nStreams ∧ (c.sview r.toNat).2 = false
    let pair := BitVec.ofNat 64 ((tag a).toNat * 2 ^ 48 + (tag b).toNat * 2 ^ 32 + b.toNat * 16 + a.toNat)
    (c.nStreams ≤ d.toNat → ∀ i ∈ ([.sand d a b, .sxnor d a b, .sor d a b, .ssub d a b, .smin d a b, .smax d a b] : List Instr),
      raises i 0x11 (BitVec.ofNat 64 d.toNat)) ∧
    (d.toNat < c.nStreams → a.toNat < c.nStreams → (c.sview a.toNat).2 = true →
      ∀ i ∈ ([.snot d a, .smov d a, .scnt a d, .sregen d a 0] : List Instr), raises i 0x11 (BitVec.ofNat 64 a.toNat)) ∧
    (d.toNat < c.nStreams → holds a → holds b →
      (tag a &&& tag b ≠ 0 → ∀ i ∈ ([.sand d a b, .sxnor d a b, .sdot a b d] : List Instr), raises i 0x0F pair) ∧
      (tag a ≠ tag b → ∀ i ∈ ([.ssub d a b, .smin d a b, .smax d a b] : List Instr), raises i 0x10 pair))

/-- R256, R259, R260, R263 to R270: the engine starts the oldest operation of a core's queue: lanes of the run and exited
lanes of the destination get the result in their first %SLEN bits, the other lanes keep theirs; SCNT, STAG and SDOT
write the register each active lane named. -/
def Claim.StreamOperations : Prop :=
  ∀ (s : State) (core slot : Nat) (c : Crew) (lanes exited : List Nat) (vals : List DWord) (dests : List (Nat × Nat))
      (rest : List StreamOp) (d a b q : BitVec 3) (n : BitVec 4) (m : BitVec 2) (k : BitVec 6),
    s.crew? slot = some c → d.toNat < c.streams.length →
    let starts := fun (i : Instr) (after : State → Crew → Prop) =>
      (s.core core).streamq = ⟨slot, i, lanes, exited, vals, dests⟩ :: rest →
      ∃ t c', exec (.streamOpStart core) s = .next t ∧ t.crew? slot = some c' ∧ (t.core core).streamq = rest ∧
        (∀ j, j ≠ slot → t.crew? j = s.crew? j) ∧ (∀ sp x, t.byteAt sp x = s.byteAt sp x) ∧ after t c'
    let mask := BitVec.ofNat 1024 (2 ^ c.slen - 1)
    let bits := fun (r : BitVec 3) (l : Nat) => (c.stream r.toNat).lane l
    let results := fun (v : Nat → BitVec 1024) (_ : State) (c' : Crew) =>
      c' = { c with streams := c'.streams } ∧ (c'.stream d.toNat).empty = false ∧
      (∀ l, (c'.stream d.toNat).lane l = if l ∈ lanes ++ exited then v l &&& mask else bits d l) ∧
      ∀ j, j ≠ d.toNat → c'.stream j = c.stream j
    let logic := fun (i : Instr) (v : Nat → BitVec 1024) => starts i (results v)
    let counts := fun (i : Instr) (v : Nat → Word) => dests.Pairwise (fun x y => x.1 ≠ y.1) →
      (∀ e ∈ dests, e.1 < c.threads.length ∧ e.2 ≠ 0) →
      starts i fun _ c' => ∀ e ∈ dests, (c'.thread e.1).get e.2 = v e.1
    let draws := fun (i : Instr) (thr : Nat → Nat) => starts i fun t c' =>
      let r := ((s.core core).gen n.toNat).draw c.slen thr
      (t.core core).gen n.toNat = r.2 ∧ results (fun l => r.1.getD l 0) t c'
    logic (.sand d a b) (fun l => bits a l &&& bits b l) ∧
    logic (.sxnor d a b) (fun l => ~~~(bits a l ^^^ bits b l)) ∧
    logic (.sor d a b) (fun l => bits a l ||| bits b l) ∧
    logic (.ssub d a b) (fun l => bits a l ^^^ bits b l) ∧
    logic (.smin d a b) (fun l => bits a l &&& bits b l) ∧
    logic (.smax d a b) (fun l => bits a l ||| bits b l) ∧
    logic (.snot d a) (fun l => ~~~(bits a l)) ∧
    logic (.smux d a b q) (fun l => (bits q l &&& bits b l) ||| (~~~(bits q l) &&& bits a l)) ∧
    logic (.smov d a) (fun l => bits a l) ∧
    logic (.srot d a k) (fun l =>
      let v := (bits a l).toNat % 2 ^ c.slen
      BitVec.ofNat 1024 (v / 2 ^ k.toNat + v % 2 ^ k.toNat * 2 ^ (c.slen - k.toNat))) ∧
    draws (.sgen d q n) (fun l => (vals.getD l 0).toNat) ∧
    draws (.sgenk d q n) (fun _ => (vals.getD 0 0).toNat) ∧
    draws (.sregen d a n) (fun l => popcount ((bits a l).toNat % 2 ^ c.slen) c.slen * 65536 / c.slen) ∧
    starts (.sseed n m) (fun t c' => c' = c ∧ (t.core core).gen n.toNat =
      ⟨if m = 0 then .xs else if m = 1 then .vdc else .ramp, vals.getD 0 0, (vals.getD 1 0).toNat % 65536,
        (upFrom 0 64).map (xsSeed (vals.getD 0 0))⟩) ∧
    starts (.slen m) (fun _ c' => c' =
      if 128 * 2 ^ m.toNat = c.slen then c else { c with slen := 128 * 2 ^ m.toNat, streams := c.streams.map fun _ => Stream.reset }) ∧
    counts (.scnt a q) (fun l => BitVec.ofNat 32 (popcount ((bits a l).toNat % 2 ^ c.slen) c.slen)) ∧
    counts (.stag a q) (fun _ => (c.stream a.toNat).tag.setWidth 32 ||| (if (c.stream a.toNat).empty = true then 0x10000 else 0)) ∧
    counts (.sdot a b q) (fun _ => BitVec.ofNat 32
      ((upFrom 0 64).foldl (fun m l => m + popcount ((bits a l &&& bits b l).toNat % 2 ^ c.slen) c.slen) 0))

/-- `Claim.StreamWords` and `Claim.StreamFaults` and `Claim.StreamOperations` together; their docstrings name the rules and logs. -/
def Obligations.StreamWordsAndOperations : Prop := Claim.StreamWords ∧ Claim.StreamFaults ∧ Claim.StreamOperations

/-! ## Privileged words (R367, R373, R379) -/

/-- R367, R373, R379: TLBI removes the named translations from every core's and die's cache at once, and the crew waits for
the accesses made with them; CTXSAVE and CTXLOAD begin the read of their block. Outside privileged execution each raises
PRIV, 0x02, on every thread of the run. -/
def Obligations.PrivilegedWords : Prop :=
  ∀ (s : State) (c : Crew) (g : Guard) (y : Reg) (l : Nat) (ls : List Nat), s.Runs c → s.Plain c →
    s.activeLanes c g = l :: ls →
    let v := c.read64 (c.thread l) y
    ((s.context c.ctx).priv = true →
      (∃ t c', exec (.tlbi g y) s = .next t ∧ t.crew? s.cur.slot = some c' ∧ RunGoesOn s c c' ∧
        c' = { c with threads := c'.threads, steps := c.steps ++ [⟨s.nextId, .tlbi, [], (c.thread l).pc, s.cycle, s.translated v, [], []⟩] } ∧
        (∀ k, k ≠ s.cur.slot → t.crew? k = s.crew? k) ∧
        (∀ n, t.core n = { s.core n with tlb := (s.core n).tlb.drop v }) ∧
        (∀ n, t.die n = { s.die n with tlb := (s.die n).tlb.drop v }) ∧
        t = { s with crews := t.crews, cores := t.cores, dies := t.dies, nextId := s.nextId + 1, cycle := t.cycle, fresh := t.fresh }) ∧
      (v.toNat % 64 = 0 →
        BeginsStep (.ctxsave g y) (.ctxsave v) (l :: ls) (c.thread l).pc s c (StepReads s c 64 [l] fun _ => v) ∧
        BeginsStep (.ctxload g y) (.ctxload v) (l :: ls) (c.thread l).pc s c (StepReads s c 64 [l] fun _ => v))) ∧
    ((s.context c.ctx).priv = false →
      ∃ t, exec (.tlbi g y) s = .next t ∧ exec (.ctxsave g y) s = .next t ∧ exec (.ctxload g y) s = .next t ∧
        t = (s.takeFaults s.cur.slot s.cycle (s.cur.lanes.map fun l => (l, { code := 0x02 }))).spend 1)

/-! ## Runs, fetch and progress (R36, R44 to R49, R127, R131, R279, R377) -/

/-- R36, R127, R131, R185: the head run is every thread of the table at the lowest PC; its word is read through the
instruction caches at CB + PC and held for the issue. A misaligned address raises FETCHALIGN, 0x04. A walk
leaves everything but the translation caches and the list of the lines that its walkers have read as it was. The level and cause that R185 leaves open are free (log
12). -/
def Claim.FetchSteps : Prop :=
  ∀ (s : State) (slot : Nat) (c : Crew) (l : Nat), s.crew? slot = some c →
    let stands := fun (k : Nat) => (c.thread k).st = .runnable ∧ (c.thread k).outside = false
    let pc := (c.thread l).pc
    let a := (c.cb.toNat + pc.toNat) % 2 ^ 64
    ((s.sub (slot / 8)).forced = none → l < c.threads.length → stands l →
        (∀ k, k < c.threads.length → stands k → pc.toNat ≤ (c.thread k).pc.toNat) →
      (a % 4 ≠ 0 → ∃ lanes : List Nat,
        lanes.Pairwise (· < ·) ∧ (∀ k, k ∈ lanes ↔ k < c.threads.length ∧ stands k ∧ (c.thread k).pc = pc) ∧
        exec (.instructionFetch slot) s =
          .next (s.takeFaults slot s.cycle (lanes.map fun k => (k, { code := 0x04, addr := BitVec.ofNat 64 a })))) ∧
      (∀ pa s1, a % 4 = 0 → s.codePlace slot c a = (.ok pa, s1) → pa % 4 = 0 →
        Cells.find (s.core (coreOf slot)).icache (lineOf pa) = none →
        Answers (.instructionFetch slot) s fun t =>
          t.crew? slot = some { c with
            fetched := some (BitVec.ofNat 64 a, BitVec.ofNat 32 (natOf (s.bytesAt .global pa 4))) } ∧
          CrewsApart s t [slot] ∧
          (∀ n, t.core n = { s.core n with tlb := (t.core n).tlb, icache := (t.core n).icache }) ∧
          (∀ n, t.die n = { s.die n with tlb := (t.die n).tlb, walks := (t.die n).walks }) ∧
          t = { s with crews := t.crews, cores := t.cores, dies := t.dies, fresh := t.fresh })) ∧
    ∀ (va : DWord) (kind : WalkKind), Answers (.pageWalk slot l va kind) s fun t =>
      (∀ n, t.core n = { s.core n with tlb := (t.core n).tlb }) ∧ (∀ n, t.die n = { s.die n with tlb := (t.die n).tlb, walks := (t.die n).walks }) ∧
      t = { s with cores := t.cores, dies := t.dies } ∧
      (∀ f, (s.core (coreOf slot)).tlb.lookup c.ctx va.toNat (walkNeeds kind) = none →
        (s.die (dieOf (coreOf slot))).tlb.lookup c.ctx va.toNat (walkNeeds kind) = none →
        s.walk c.ctx va.toNat kind = .error f → t = { s with dies := t.dies } ∧ ∀ n, (t.die n).tlb = (s.die n).tlb)

/-- R44, R47, R48, R49, R279: a count that has reached 1,024 forces its run, the highest count first; the 65,536th issue is
a switch point that passes over the current crew; every 256 c each resident crew's logical time rises by 1. -/
def Claim.ProgressSteps : Prop :=
  ∀ (s : State) (sub slot : Nat) (c : Crew) (x : Stall),
    let v := s.sub sub
    let ldet := (s.core (sub / 4)).ldet
    let count := fun (y : Stall) => if ldet = true then y.issues else s.cycle - y.since
    let sets := fun (w : Subcore) (t : State) => t.sub sub = w ∧ (∀ n, n ≠ sub → t.sub n = s.sub n) ∧
      (∀ n, t.core n = { s.core n with subcores := (t.core n).subcores }) ∧ t = { s with cores := t.cores }
    let highest := x ∈ v.stalls ∧ 1024 ≤ count x ∧
      ∀ y ∈ v.stalls, y = x ∨ count y < count x ∨ (count y = count x ∧ x.slot < y.slot)
    (highest → s.crew? x.slot = some c → ldet = false →
      Answers (.progressCountExpiry sub) s (sets { v with forced := some (x.slot, (c.thread x.lane).pc) })) ∧
    (highest → s.crew? x.slot = some c → ldet = true →
      Answers (.progressIssueCountExpiry sub) s (sets { v with forced := some (x.slot, (c.thread x.lane).pc) })) ∧
    ((∀ y ∈ v.stalls, count y < 1024) →
      exec (.progressCountExpiry sub) s = .next s ∧ exec (.progressIssueCountExpiry sub) s = .next s) ∧
    (v.current = some slot → slot / 8 = sub → coreOf slot = sub / 4 → ldet = true → v.forced = none →
      (65536 ≤ v.budget → Answers (.issueBudgetExpiry sub) s (sets { v with
        budget := 0
        current :=
          match lowestCrew ((s.subCrews sub).filter fun e => e.2.anyRunnable && e.1 != slot) with
          | some k => some k
          | none => lowestCrew ((s.subCrews sub).filter fun e => e.2.anyRunnable) })) ∧
      (v.budget < 65536 → exec (.issueBudgetExpiry sub) s = .next s)) ∧
    (s.ticks < s.cycle / 256 → Answers .ltsTick s fun t =>
      t.ticks = s.ticks + 1 ∧ (∀ k, t.crew? k = (s.crew? k).map fun c => { c with lts := c.lts + 1 }) ∧
      t = { s with ticks := t.ticks, crews := t.crews })

/-- `Claim.FetchSteps` and `Claim.ProgressSteps` together; their docstrings name the rules and logs. -/
def Obligations.FetchAndProgress : Prop := Claim.FetchSteps ∧ Claim.ProgressSteps

/-! ## Store FIFOs, loads and mailboxes (R68, R206, R210, R211, R287, R290, R298, R299) -/

/-- R19, R285, R287, R298, R299: the crew whose turn it is among those of its subcore that may send, the first after the
last sender, sends its oldest unsent entry, numbered towards its home slice: no entry of the core to the line is sent and
unacknowledged, no load of the line is outstanding that the crew issued before it or another crew of the core issued at
all, fewer than 2,048 requests of the core are outstanding, and the subcore has sent none in this c. A copy waits in the
retry buffer, and with its 32 entries taken the request itself waits; a full ingress queue turns the request back. That
loads of other crews hold an entry, and the full ingress queue's answer, are the model's choices (logs 52, 54). -/
def Claim.StoreSending : Prop :=
  ∀ (s : State) (slot : Nat) (c : Crew) (older rest : List Entry) (e : Entry),
    s.crew? slot = some c → c.fifo = older ++ e :: rest → (∀ x ∈ older, x.sent = true) → e.sent = false →
    (∀ x ∈ older ++ rest, x.id ≠ e.id) →
    let core := coreOf slot
    let home := s.homeSlice e.line
    let n := Cells.get 0 (s.core core).storeSeq home
    let after := fun (k : Nat) => (k + 15 - (s.sub (slot / 8)).lastSent % 8) % 8
    let turn := ∀ k, k / 8 = slot / 8 → after k < after slot → s.nextEntry k = none
    let clear := ∀ d ∈ s.coreCrews core,
      (∀ x ∈ d.2.fifo, x.sent = true → (e.space, e.line) ∉ s.entryLines d.1 d.2 x) ∧
      ∀ l ∈ d.2.loads, l.space = e.space → l.line = e.line → d.1 = slot ∧ e.cycle ≤ l.cycle
    let room := ((s.coreCrews core).map fun d => d.2.loads.length + (d.2.fifo.filter fun x => x.sent).length).sum < 2048
    let q : Req := ⟨s.nextId, core, e.line, .entry slot e.id, c.lts, e.policy, e.cxl, (s.die (homeDie e.line)).gen, 1⟩
    (clear → turn → room → (s.sub (slot / 8)).sentAt ≠ some s.cycle → e.op = .store ∨ e.op = .spill ∨ e.op = .record →
      (e.space = .global → Answers (.storeFifoSend slot) s fun t =>
        t.crew? slot = some { c with fifo := older ++ { e with sent := true, series := home, seq := n % 2 ^ 32 } :: rest } ∧
        CrewsApart s t [slot] ∧
        (if (s.core core).unanswered.length < 32 then
          (if (s.slice home).ingress.length < 32 then
            t.slice home = { s.slice home with ingress := (s.slice home).ingress ++ [q] } ∧
            (t.core core).unanswered = (s.core core).unanswered ++ [q] ∧ (t.core core).retry = (s.core core).retry
          else
            t.slice home = s.slice home ∧ (t.core core).retry = (s.core core).retry ++ [⟨{ q with attempt := 2 }, false, s.cycle + 8⟩]) ∧
          (t.core core).sendq = (s.core core).sendq
        else
          t.slice home = s.slice home ∧ (t.core core).sendq = (s.core core).sendq ++ [q] ∧
          (t.core core).unanswered = (s.core core).unanswered ∧ (t.core core).retry = (s.core core).retry) ∧
        (∀ k, k ≠ home → t.slice k = s.slice k) ∧ Cells.get 0 (t.core core).storeSeq home = n + 1 ∧
        (t.sub (slot / 8)).lastSent = slot % 8 ∧ (t.sub (slot / 8)).sentAt = some s.cycle ∧
        t = { s with crews := t.crews, cores := t.cores, slices := t.slices, nextId := s.nextId + 1 }) ∧
      (∀ k, e.space = .deck k ∨ e.space = .obuf k → Answers (.storeFifoSend slot) s fun t =>
        t.crew? slot = some { c with fifo := older ++ { e with sent := true, series := home, seq := 0 } :: rest } ∧
        CrewsApart s t [slot] ∧
        (t.core k).deckq = (s.core k).deckq ++ [.entry slot e.id] ∧ (t.sub (slot / 8)).lastSent = slot % 8 ∧
        (t.sub (slot / 8)).sentAt = some s.cycle ∧
        t = { s with crews := t.crews, cores := t.cores })) ∧
    ((∃ d ∈ s.coreCrews core, ∃ x ∈ d.2.fifo, x.sent = true ∧ (e.space, e.line) ∈ s.entryLines d.1 d.2 x) →
      e.space ≠ .mailbox → exec (.storeFifoSend slot) s = .next s) ∧
    (∀ k, k / 8 = slot / 8 → after k < after slot → (s.nextEntry k).isSome = true → exec (.storeFifoSend slot) s = .next s) ∧
    ((s.sub (slot / 8)).sentAt = some s.cycle → exec (.storeFifoSend slot) s = .next s)

/-- R68, R206, R210, R211, R227, R279, R280, R287: an answer takes its request's copy out of the retry buffer and lets the
oldest waiting request go; an acknowledgement takes its entry out, raises the crew's logical time to the write's and renews
the core's older L1 copy of the line; a load's bytes go, extended, to the registers owed them, or to the completion step
that reads them, and a response that is poisoned, lost or refused raises its fault on the lanes; a mailbox delivery writes
%g8 + m of the target, or is counted as dropped, and is acknowledged. That a late fault carries the PC and the hints of its
own word is deduced (log 17). -/
def Claim.ResponseSteps : Prop :=
  ∀ (s : State) (id slot : Nat) (c : Crew), s.crew? slot = some c →
    (∀ core done, let t := s.answered core done
      (∀ k, t.core k = { s.core k with
        unanswered := (t.core k).unanswered, sendq := (t.core k).sendq, retry := (t.core k).retry }) ∧
      (∀ k, t.slice k = { s.slice k with ingress := (t.slice k).ingress }) ∧
      t = { s with cores := t.cores, slices := t.slices } ∧
      ((s.core core).sendq = [] →
        (t.core core).unanswered = (s.core core).unanswered.filter (fun q => !done q) ∧ (∀ k, t.slice k = s.slice k)) ∧
      (∀ q rest, (s.core core).sendq = q :: rest → (s.core core).unanswered.any done = true → q.core = core →
        (s.slice (s.firstSlice q)).ingress.length < 32 →
        ((s.core core).unanswered.filter fun q => !done q).length < 32 →
        (t.core core).sendq = rest ∧ q ∈ (t.core core).unanswered ∧ q ∈ (t.slice (s.firstSlice q)).ingress)) ∧
    (∀ e wts x, Cells.find s.msgs id = some (.ack slot e wts) → c.entry? e = some x →
      (∀ m ∈ s.msgs, ∀ k r f, m.2 ≠ .atomic k e r f) →
      Answers (.storeAck id) s fun t =>
        let u := ({ s with msgs := Cells.erase s.msgs id }).answered (coreOf slot) fun q => q.forEntry e
        OneCrew { u with cores := t.cores, slices := t.slices } t slot
          { c with fifo := c.fifo.filter (fun y => y.id != e), lts := max c.lts wts } ∧
        (∀ k, t.core k = { u.core k with l1 := (t.core k).l1 }) ∧
        (∀ k, t.slice k = { u.slice k with copies := (t.slice k).copies }) ∧ (∀ sp a, t.byteAt sp a = s.byteAt sp a) ∧
        ∀ cp, Cells.find (s.core (coreOf slot)).l1 x.line = some cp → x.space = .global → wts ≠ 0 →
          Cells.find (t.core (coreOf slot)).l1 x.line =
            if cp.wts < wts then (if x.after = [] then none else some ⟨x.after, wts, wts⟩) else some cp) ∧
    (∀ lid r l x, Cells.find s.msgs id = some (.load slot lid r) → c.loads.find? (fun y => y.id == lid) = some l →
      l.lanes = [x] →
      let c1 := { c with loads := c.loads.filter fun y => y.id != lid }
      let u := ({ s with msgs := Cells.erase s.msgs id }).answered (coreOf slot) fun q => q.forLoad slot lid
      let whole := fun (data : List Byte) => (List.range x.size).map fun j =>
        match x.fwd.getD j none with
        | some b => b
        | none => data.getD (x.addr % 128 + j) 0
      (∀ data, r = .bytes data ∨ (∃ bad, r = .partly data bad ∧ x.lane ∉ bad) → x.watch = false → x.fwd.length = x.size →
        (∀ es signed, x.dest = .regs es signed → x.lane < c.threads.length →
          es.Pairwise (· ≠ ·) → (∀ e ∈ es, e ≠ 0) → es.length ≤ 4 →
          Answers (.loadResponse id) s fun t => ∃ c',
            OneCrew u t slot c' ∧ c' = { c1 with threads := c'.threads, utags := c'.utags } ∧
            (∀ k, k ≠ x.lane → c'.thread k = c.thread k) ∧
            (∀ e, e ∉ es → (c'.thread x.lane).get e = (c.thread x.lane).get e) ∧
            ∀ i e, es[i]? = some e → (c'.thread x.lane).get e =
              let v := natOf (whole data)
              BitVec.ofInt 32 ((if signed = true ∧ 2 ^ (8 * x.size - 1) ≤ v then (v : Int) - 2 ^ (8 * x.size) else v) / 2 ^ (32 * i))) ∧
        (∀ n, x.dest = .step n → Answers (.loadResponse id) s fun t => OneCrew u t slot { c1 with
          steps := c.steps.map fun p =>
            if p.id = n then { p with due := p.due.erase x.lane, got := p.got ++ [(x.lane, .bytes (whole data))] } else p })) ∧
      (∀ code, (∃ j, j < x.fwd.length ∧ x.fwd[j]? = some none) →
        (r = .poison ∧ code = 0x12) ∨ (∃ data bad, r = .partly data bad ∧ x.lane ∈ bad ∧ code = 0x12) ∨
          (r = .linkdown ∧ code = 0x13) ∨ (r = .hostatom ∧ code = 0x14) ∨ (r = .remaplost ∧ code = 0x1E) →
        ((∀ n, x.dest ≠ .step n) →
          exec (.loadResponse id) s = .next ((u.setCrew slot c1).lateFaults slot x.takers { code := code, addr := x.va } l.pc l.cycle)) ∧
        (∀ n, x.dest = .step n → Answers (.loadResponse id) s fun t => OneCrew u t slot { c1 with
          steps := c.steps.map fun p =>
            if p.id = n then { p with due := p.due.erase x.lane, got := p.got ++ [(x.lane, .fault { code := code, addr := x.va })] }
            else p }))) ∧
    ∀ eid e m i dst lane d, Cells.find s.msgs id = some (.mailbox slot eid) → c.entry? eid = some e → e.op = .rput m → m < 8 →
      e.items = [i] → s.threadOf c.grid e.line = some (dst, lane) → s.crew? dst = some d → lane < d.threads.length →
      ((d.thread lane).st ≠ .exited → Answers (.mailboxDelivery id) s fun t => ∃ d',
        OneCrew { s with msgs := t.msgs, nextId := s.nextId + 1 } t dst d' ∧
        Cells.find t.msgs s.nextId = some (.ack slot eid 0) ∧
        (∀ r, (d'.thread lane).get r = if r = 8 + m then i.data.setWidth 32 else (d.thread lane).get r) ∧
        (∀ k, k ≠ lane → d'.thread k = d.thread k) ∧ d' = { d with threads := d'.threads, utags := d'.utags }) ∧
      ((d.thread lane).st = .exited → Answers (.mailboxDelivery id) s fun t =>
        t.rm.dropped = s.rm.dropped + 1 ∧ t.crews = s.crews ∧ Cells.find t.msgs s.nextId = some (.ack slot eid 0))

/-- `Claim.StoreSending` and `Claim.ResponseSteps` together; their docstrings name the rules and logs. -/
def Obligations.StoresAndResponses : Prop := Claim.StoreSending ∧ Claim.ResponseSteps

/-- R287, R290: the nth NACK of a request sends it back to its core, due 8 × n c later, n at most 64, its copy still in the
retry buffer; a due request is sent again to the home, or the proxy slice, that the current map gives. -/
def Claim.RetrySteps : Prop :=
  ∀ (s : State) (core id : Nat),
    (∀ n v q, (n, v) ∈ s.slices → (∀ e ∈ s.slices, e.1 = n → e.2 = v) → q ∈ v.ingress → q.id = id → q.core = core →
      (∀ e ∈ s.slices, ∀ r ∈ e.2.ingress, r.id = id → e.1 = n ∧ r = q) →
      Answers (.nack core id) s fun t =>
        OneSlice { s with cores := t.cores } t n { v with ingress := v.ingress.erase q } ∧
        t.core core = { s.core core with
          unanswered := (s.core core).unanswered.map fun x => if x.id = id then { q with attempt := q.attempt + 1 } else x
          retry := (s.core core).retry ++ [⟨{ q with attempt := q.attempt + 1 }, false, s.cycle + 8 * min q.attempt 64⟩] } ∧
        ∀ k, k ≠ core → t.core k = s.core k) ∧
    ∀ (older rest : List Retry) (r : Retry), (s.core core).retry = older ++ r :: rest → r.req.id = id → r.due ≤ s.cycle →
      r.req.core = core → (∀ x ∈ older, x.req.id ≠ id) →
      let q := { r.req with gen := (s.die (homeDie r.req.line)).gen }
      let n := s.firstSlice r.req
      (s.slice n).ingress.length < 32 →
      Answers (if r.remap = true then .remapNack core id else .retryResend core id) s fun t =>
        OneSlice { s with cores := t.cores } t n { s.slice n with ingress := (s.slice n).ingress ++ [q] } ∧
        t.core core = { s.core core with
          retry := older ++ rest, unanswered := (s.core core).unanswered.map fun x => if x.id = id then q else x } ∧
        ∀ k, k ≠ core → t.core k = s.core k

/-- R290: a request that an old map aimed at a slice its bucket has left goes back to its core, to be sent again 8 c later. -/
def Claim.RemappedRequests : Prop :=
  ∀ (s : State) (n : Nat) (q : Req) (before after : List Req),
    (s.slice n).off = false → (s.slice n).ingress = before ++ q :: after → (∀ x ∈ before, s.canProceed n x = false) →
    n ≠ s.homeSlice q.line → (∀ slot id, q.kind = .load slot id true → n ≠ proxySlice q.core (s.homeSlice q.line)) →
    Answers (.sliceRequest n) s fun t =>
      OneSlice { s with cores := t.cores } t n { s.slice n with ingress := before ++ after } ∧
      t.core q.core = { s.core q.core with retry := (s.core q.core).retry ++ [⟨q, true, s.cycle + 8⟩] } ∧
      ∀ k, k ≠ q.core → t.core k = s.core k

/-- `Claim.RetrySteps` and `Claim.RemappedRequests` together; their docstrings name the rules and logs. -/
def Obligations.RetryAndRemap : Prop := Claim.RetrySteps ∧ Claim.RemappedRequests

/-! ## Completion steps and what they read (R66, R199 to R202, R230, R373, R440) -/

/-- R65, R66, R199, R201, R202, R440: once its reads are back, ERET resumes a lane from its record, or double-faults on a
malformed one; FILLF takes the lane's LO down and fills the frame it then names, tagged P; LAUNCH's record joins the child
list of its grid's queue. The lane then stands in the table again. A read's fault is taken there, FILLF's with LO as it was.
The codes that R199 leaves open are free (log 12); that LO stays is the model's choice (log 23). -/
def Claim.CompletionSteps : Prop :=
  ∀ (s : State) (slot l : Nat) (c c1 : Crew) (before later : List Pending) (p : Pending),
    s.crew? slot = some c → c.steps = before ++ p :: later → p.lanes = [l] → p.due = [] → l < c.threads.length →
    (c.thread l).outside = true → (∀ q ∈ before ++ later, q.id ≠ p.id ∧ l ∉ q.lanes) →
    c1 = { c with steps := before ++ later } →
    let t0 := c.thread l
    let brought := fun (b : List Byte) => p.got = [(l, .bytes b)]
    let word := fun (b : List Byte) (off : Nat) => BitVec.ofNat 32 (natOf ((b.drop off).take 4))
    let sets := fun (t1 : Thread) (u t : State) => ∃ c', OneCrew u t slot c' ∧
      c' = { c1 with threads := c'.threads, utags := c'.utags } ∧ (∀ k, k ≠ l → c'.thread k = c.thread k) ∧ c'.thread l = t1
    (∀ b, p.kind = .eret → (∀ q ∈ before, q.kind ≠ .eret) → brought b →
      ((word b 16).toNat % 4 = 0 → natOf ((b.drop 24).take 1) < 32 →
        let hint := fun (n off : Nat) =>
          if (natOf ((b.drop 24).take 1)).testBit n = true then some (BitVec.ofNat 22 (natOf ((b.drop off).take 4))) else none
        Answers (.eretRecordReturn slot) s (sets { t0 with
          depth := t0.depth - 1, trap := false, outside := false, pc := word b 16
          hints := ⟨hint 0 28, hint 1 32, hint 2 36, hint 3 40, hint 4 44⟩ } s)) ∧
      ((word b 16).toNat % 4 ≠ 0 ∨ 32 ≤ natOf ((b.drop 24).take 1) → t0.trap = true → (s.context c.ctx).debugger = false →
        Answers (.eretRecordReturn slot) s fun t => ∃ c', t.crew? slot = some c' ∧
          c' = { c1 with threads := c'.threads } ∧ (∀ k, k ≠ l → c'.thread k = c.thread k) ∧
          c'.thread l = { t0 with st := .exited, hints := {}, outside := false } ∧ CrewsApart s t [slot] ∧
          ∀ sp a, t.byteAt sp a = s.byteAt sp a)) ∧
    (∀ b, p.kind = .fillf → (∀ q ∈ before, q.kind ≠ .fillf) → brought b →
      Answers (.fillfReturn slot) s fun t => ∃ t1, sets t1 s t ∧
        t1 = { t0 with regs := t1.regs, pc := t0.pc + 4, hints := {}, outside := false, lo := t0.lo - 1 } ∧
        (∀ c', t.crew? slot = some c' → ∀ e, 16 + 16 * ((t0.lo - 1) % 7) ≤ e → e < 32 + 16 * ((t0.lo - 1) % 7) →
          c'.utags.getLsbD e = false) ∧
        ∀ e, t1.get e =
          if 16 + 16 * ((t0.lo - 1) % 7) ≤ e ∧ e < 32 + 16 * ((t0.lo - 1) % 7) then
            word b (4 * (e - 16 - 16 * ((t0.lo - 1) % 7)))
          else t0.get e) ∧
    (∀ a g b, p.kind = .launch a → (∀ q ∈ before, ∀ x, q.kind ≠ .launch x) → brought b →
      s.rm.grids.find? (fun x => x.serial == c.grid.toNat) = some g →
      Answers (.launchRecordReturn slot) s fun t =>
        sets { t0 with pc := t0.pc + 4, hints := {}, outside := false } { s with rm := t.rm } t ∧
        (t.queue g.queue).children = (s.queue g.queue).children ++
          [⟨BitVec.ofNat 512 (natOf b), a.toNat, .child c.grid.toNat (c.depth + 1), c.lts⟩] ∧
        (∀ q, q ≠ g.queue → t.queue q = s.queue q) ∧ t.rm = { s.rm with queues := t.rm.queues }) ∧
    ∀ f, p.got = [(l, .fault f)] →
      (p.kind = .eret → (∀ q ∈ before, q.kind ≠ .eret) →
        exec (.eretRecordReturn slot) s = .next ((s.setCrew slot c1).takeFault slot l f p.pc t0.hints p.cycle)) ∧
      (p.kind = .fillf → (∀ q ∈ before, q.kind ≠ .fillf) →
        exec (.fillfReturn slot) s = .next ((s.setCrew slot c1).takeFault slot l f p.pc t0.hints p.cycle))

/-- R211, R440: a step whose read is still under way does not end; what a load of the crew, a step's read among them, takes
from the crew's own FIFO is, byte by byte, what the youngest entry that holds the byte gives. -/
def Claim.StepReads : Prop :=
  (∀ (s : State) (slot : Nat) (c : Crew) (p : Pending), s.crew? slot = some c → p.due ≠ [] →
    (p.kind = .eret → c.steps.find? (fun q => q.kind == .eret) = some p → exec (.eretRecordReturn slot) s = .next s) ∧
    (p.kind = .fillf → c.steps.find? (fun q => q.kind == .fillf) = some p → exec (.fillfReturn slot) s = .next s)) ∧
  ∀ (fifo : List Entry) (sp : Space) (a n : Nat), (forwardBytes fifo sp a n).length = n ∧
    ∀ i, i < n →
      let holds := fun (e : Entry) => decide (e.space = sp) && decide (e.line = lineOf (a + i)) && (Cells.find e.bytes ((a + i) % 128)).isSome
      (forwardBytes fifo sp a n).getD i none = ((fifo.filter holds).getLast?).bind fun e => Cells.find e.bytes ((a + i) % 128)

/-- `Claim.CompletionSteps` and `Claim.StepReads` together; their docstrings name the rules and logs. -/
def Obligations.StepsAndReads : Prop := Claim.CompletionSteps ∧ Claim.StepReads

/-- R89, R230, R240, R242, R245, R251, R440: a posting word whose block has come and passes its checks joins its engine's
queue under the next ticket of its class, a collective at its place in the die's queue by fc, core and subcore, or makes its
reservation record live, and its lanes go on; one that fails takes its fault there. -/
def Claim.PostingEnds : Prop :=
  ∀ (s s1 : State) (slot : Nat) (c c1 : Crew) (before later : List Pending) (p : Pending) (kind : PostKind)
      (off : Option Nat) (blk b : List Byte),
    s.crew? slot = some c → c.steps = before ++ p :: later → p.kind = .post kind off blk → p.due = [] →
    (∀ q ∈ before, ∀ k o x, q.kind ≠ .post k o x) → (∀ l ∈ p.lanes, l < c.threads.length ∧ (c.thread l).outside = true) →
    (∀ q ∈ before ++ later, q.id ≠ p.id ∧ ∀ l ∈ p.lanes, l ∉ q.lanes) → p.lanes.Pairwise (· < ·) →
    c1 = { c with steps := before ++ later } → c.issued.length = 3 →
    let core := coreOf slot
    let k := s.core core
    let checks := fun (r : Except Trap (List Byte)) => (s.setCrew slot c1).postChecks slot c1 p kind off blk = (r, s1)
    let ticket := fun (cls : Nat) => c.issued.getD cls 0 + 1
    let ends := fun (cls : Option Nat) (after : State → Prop) => Answers (.postingEnd slot) s fun t => ∃ c',
      t.crew? slot = some c' ∧ c' = { c1 with threads := c'.threads, issued := c'.issued } ∧
      (∀ l, c'.thread l =
        if l ∈ p.lanes then { c.thread l with pc := (c.thread l).pc + 4, hints := {}, outside := false } else c.thread l) ∧
      (∀ j, c'.issued.getD j 0 = if cls = some j then ticket j else c.issued.getD j 0) ∧ CrewsApart s t [slot] ∧ after t
    (∀ n, kind = .obres n → checks (.ok b) → ends none fun t => ∀ j, (t.core core).record? j =
      if j = n then some ⟨natOf ((b.drop 0).take 4), natOf ((b.drop 4).take 4), natOf ((b.drop 8).take 1),
        natOf ((b.drop 9).take 1), natOf ((b.drop 12).take 4), natOf ((b.drop 16).take 4), natOf ((b.drop 20).take 4),
        natOf ((b.drop 24).take 4)⟩ else k.record? j) ∧
    (kind = .xcopy → checks (.ok b) →
      let chan := natOf ((b.drop 60).take 4) / 16 % 4
      (k.channel chan).length < 8 → ends (some 0) fun t => ∃ q,
        (t.core core).channel chan = k.channel chan ++ [q] ∧ q.slot = slot ∧ q.ticket = ticket 0 ∧ q.block = b ∧
        q.started = false ∧ q.lts = c.lts ∧ ∀ j, j ≠ chan → (t.core core).channel j = k.channel j) ∧
    (kind = .mxcmd → checks (.ok b) → k.matrixq.length < 16 → ends (some 1) fun t => ∃ q,
      (t.core core).matrixq = k.matrixq ++ [q] ∧ q.slot = slot ∧ q.ticket = ticket 1 ∧ q.block = b ∧ q.table = none ∧
      q.started = false ∧ q.lts = c.lts) ∧
    (∀ n a, kind = .mxtab n a → checks (.ok b) → k.matrixq.length < 16 → ends (some 1) fun t => ∃ q,
      (t.core core).matrixq = k.matrixq ++ [q] ∧ q.slot = slot ∧ q.ticket = ticket 1 ∧ q.table = some (n, a)) ∧
    (∀ n, kind = .coll n → checks (.ok b) → (s.die (dieOf core)).collq.length < 64 → ends (some 2) fun t => ∃ q l m,
      (s.die (dieOf core)).collq = l ++ m ∧ (t.die (dieOf core)).collq = l ++ q :: m ∧
      (∀ y ∈ l, q.before y = false) ∧ (∀ y, m.head? = some y → q.before y = true) ∧
      q.slot = slot ∧ q.ticket = ticket 2 ∧ q.kind = n ∧ q.block = b ∧ q.core = core ∧ q.started = false ∧
      q.since = s.cycle ∧ q.posted.1 = s.cycle / 2) ∧
    ((kind = .xcopy ∧ 8 ≤ (k.channel (natOf ((b.drop 60).take 4) / 16 % 4)).length) ∨
        (kind = .mxcmd ∧ 16 ≤ k.matrixq.length) ∨ (∃ n, kind = .coll n ∧ 64 ≤ (s.die (dieOf core)).collq.length) →
      checks (.ok b) → exec (.postingEnd slot) s = .next s) ∧
    ∀ t l, p.lanes = [l] → checks (.error t) →
      exec (.postingEnd slot) s = .next (s1.takeFault slot l t p.pc (c.thread l).hints p.cycle)

/-- R373, R440: a control block with a reserved byte, or naming the issuer's own context or none that exists, raises MXPARAM,
0x1A, with the byte's offset; else CTXSAVE holds the named context and has it saved, and CTXLOAD points a held context at
its images and lets it run. -/
def Claim.ContextBlocks : Prop :=
  ∀ (s : State) (slot l : Nat) (c c1 : Crew) (before later : List Pending) (p : Pending) (b : List Byte) (a : DWord),
    s.crew? slot = some c → c.steps = before ++ p :: later → p.kind = .ctxsave a ∨ p.kind = .ctxload a →
    (∀ q ∈ before, ∀ x, q.kind ≠ .ctxsave x ∧ q.kind ≠ .ctxload x) → p.lanes = [l] → p.due = [] → l < c.threads.length →
    (c.thread l).outside = true → (∀ q ∈ before ++ later, q.id ≠ p.id ∧ l ∉ q.lanes) →
    c1 = { c with steps := before ++ later } → p.got = [(l, .bytes b)] → b.length = 64 →
    let s1 := s.setCrew slot c1
    let x := (b.getD 0 0).toNat
    let next := { c.thread l with pc := (c.thread l).pc + 4, hints := {}, outside := false }
    let zero := fun (i : Nat) => b.getD i 0 = 0
    let goes := fun (t : State) => ∃ c', t.crew? slot = some c' ∧ c'.thread l = next ∧ c'.steps = before ++ later
    let old := s.context x
    (16 ≤ x ∨ x = c.ctx → exec (.ctxBlockReturn slot) s =
      .next (s1.takeFault slot l { code := 0x1A, addr := 0 } p.pc (c.thread l).hints p.cycle)) ∧
    (x < 16 → x ≠ c.ctx → ∀ i, 0 < i → i < 64 → ¬(8 ≤ i ∧ i < 16) → ¬(16 ≤ i ∧ i < 24 ∧ p.kind = .ctxload a) → ¬zero i →
      (∀ j, 0 < j → j < i → zero j ∨ (8 ≤ j ∧ j < 16) ∨ (16 ≤ j ∧ j < 24 ∧ p.kind = .ctxload a)) →
      exec (.ctxBlockReturn slot) s =
        .next (s1.takeFault slot l { code := 0x1A, addr := BitVec.ofNat 64 i } p.pc (c.thread l).hints p.cycle)) ∧
    (x < 16 → x ≠ c.ctx → (∀ i, 0 < i → i < 64 → zero i ∨ (16 ≤ i ∧ i < 24 ∧ p.kind = .ctxload a)) →
      (p.kind = .ctxsave a → old.held = false → (∀ g ∈ s.rm.grids, g.ctx = x → g.unmet = []) →
        Answers (.ctxBlockReturn slot) s fun t => goes t ∧
          t.context x = { old with held := true, saving := true, timer := 0, saveAdds := old.saveAdds ++ [(0, slot)] }) ∧
      (p.kind = .ctxload a → old.held = true → Answers (.ctxBlockReturn slot) s fun t => goes t ∧
        t.context x = { old with held := false, img := natOf ((b.drop 16).take 8) / 2 ^ 16 % 2 ^ 36 }) ∧
      (p.kind = .ctxload a → old.held = false → exec (.ctxBlockReturn slot) s =
        .next (s1.takeFault slot l { code := 0x1A, addr := 0 } p.pc (c.thread l).hints p.cycle)))

/-- `Claim.PostingEnds` and `Claim.ContextBlocks` together; their docstrings name the rules and logs. -/
def Obligations.PostingsAndControlBlocks : Prop := Claim.PostingEnds ∧ Claim.ContextBlocks

/-! ## Counter homes (R76 to R88, R92, R441) -/

/-- R76 to R87, R441: a home of core, cluster or die takes the operations of one c in the order of R86, adds first, then
CALLOC and CFREE, then reads, tests and registrations, each class by input, and answers them; CALLOC takes the lowest free
counter under its next generation; a stale handle is answered with CSTALE, 0x0C, a sum past 2^64 - 1 saturates
and is answered with COVF, 0x0B; an add wakes the waiters it meets and CFREE wakes all of them stale, those too that an add
of the same c met; an operation on an overflow counter is taken to be applied 220 c later. What another module answers is
free (log 13). -/
def Claim.CounterHomes : Prop :=
  ∀ (s : State) (slot : Nat) (c : Crew) (o : CtrOp), s.crew? slot = some c → Leaves c o →
    let i := handleIndex o.handle
    let lts := max o.lts c.lts
    let place := fun (r : HomeRef) =>
      (match o.kind with
        | .add _ | .addr _ => 0
        | .alloc _ | .free => 32
        | .read | .test | .wait => 64) + homeInput r (coreOf slot) (subOf slot) i
    let inTurn := fun (r : HomeRef) => (s.home r).served.1 = s.cycle → (s.home r).served.2 ≤ place r
    let noted := fun (r : HomeRef) (h' : CtrHome) =>
      { h' with served := (s.cycle, place r), woken := if (s.home r).served.1 = s.cycle then (s.home r).woken else [] }
    let takes := fun (r : HomeRef) (h' : CtrHome) (m : Option Msg) (t : State) => t.home r = noted r h' ∧
      (∀ q, q ≠ r → (∀ k, q ≠ .crew k) → t.home q = s.home q) ∧
      (∀ x, m = some x → Cells.find t.msgs s.nextId = some x) ∧ (m = none → t.msgs = s.msgs) ∧
      ∃ c', t.crew? slot = some c' ∧ c' = { c with ctrOps := c'.ctrOps } ∧
        if o.kind = .wait then c'.ctrOps = c.ctrOps.filter fun p => p.id != o.id
        else c'.ctrOps = c.ctrOps.map fun p => if p.id = o.id then { o with taken := true, lts := lts } else p
    (∀ sc, o.kind = .alloc sc → sc ≠ 0 →
      let r : HomeRef := if sc = 1 then .core (coreOf slot) else if sc = 2 then .cluster (clusterOf (coreOf slot))
        else .die (dieOf (coreOf slot))
      let h := s.home r
      let named := if 5 ≤ sc then s.cox.moduleNo * 4 + dieOf (coreOf slot) else if 3 ≤ sc then dieOf (coreOf slot) else 0
      Cells.canonical Counter.reset h.ctrs = true → inTurn r →
      (∀ m, m < s.homeSize r → ((∃ d, r = .die d) → m < 65536) → (∀ j < m, (h.ctr j).live = true) → (h.ctr m).live = false →
        let gen := if (h.ctr m).gen = 0xFFFFFF then 1 else (h.ctr m).gen + 1
        Answers (.counterHomeAlloc slot o.id) s
          (takes r (h.setCtr m ⟨0, true, gen, 0, sc⟩) (some (.answer slot o.id (.ok (handleOf sc named m gen).toNat 0))))) ∧
      ((∀ j < s.homeSize r, (h.ctr j).live = true) →
        Answers (.counterHomeAlloc slot o.id) s (takes r h (some (.answer slot o.id (.ok 0 0)))))) ∧
    (∀ r, (∀ sc, o.kind ≠ .alloc sc) → handleScope o.handle ≠ 0 → s.reach slot c o.handle = some r → r ≠ .peer →
      let h := s.home r
      let k := h.ctr i
      let live := k.live = true ∧ k.gen = handleGen o.handle
      let quiet := fun (sum : Nat) => ∀ w ∈ h.waiters, w.index = i → sum < w.threshold
      ∀ e, TakesKind e o.kind slot o.id → ((∃ d, r = .die d) → i < 65536) →
        (¬inTurn r → exec e s = .next s) ∧ (inTurn r →
        (live → ∀ h' m, CounterEffect slot o h (waiterRoom r) lts h' m →
          (∀ v, o.kind = .add v ∨ o.kind = .addr v → k.value + v.toNat < 2 ^ 64 ∧ quiet (k.value + v.toNat)) →
          (o.kind = .free → ∀ w ∈ h.waiters, w.index ≠ i) → Answers e s (takes r h' m)) ∧
        (live → ∀ v, o.kind = .add v → 2 ^ 64 ≤ k.value + v.toNat → quiet (2 ^ 64 - 1) →
          Answers e s (takes r (h.setCtr i { k with value := 2 ^ 64 - 1, lts := max k.lts lts })
            (some (.answer slot o.id (.fault 0x0B 0 none))))) ∧
        (live → ∀ v w op (a b : List Waiter), o.kind = .add v → k.value + v.toNat < 2 ^ 64 → h.waiters = a ++ w :: b →
          w.index = i → w.threshold ≤ k.value + v.toNat → w.who = .lanes op →
          (∀ x ∈ a ++ b, x.index = i → k.value + v.toNat < x.threshold) →
          Answers e s fun t => (t.home r).ctr i = { k with value := k.value + v.toNat, lts := max k.lts lts } ∧
            (t.home r).waiters = a ++ b ∧ Cells.find t.msgs s.nextId = some (.wake op (max k.lts lts) false) ∧
            Cells.find t.msgs (s.nextId + 1) = some (.answer slot o.id (.ok 0 0))) ∧
        (live → ∀ w op, o.kind = .free → h.waiters = [w] → w.index = i → w.who = .lanes op →
          Answers e s fun t => ((t.home r).ctr i).live = false ∧ (t.home r).waiters = [] ∧
            Cells.find t.msgs s.nextId = some (.wake op 0 true)) ∧
        (live → ∀ op n id, o.kind = .free → h.waiters = [] → h.served.1 = s.cycle → (i, .lanes op) ∈ h.woken →
          id < s.nextId → Cells.find s.msgs id = some (.wake op n false) →
          Answers e s fun t => ((t.home r).ctr i).live = false ∧ Cells.find t.msgs id = some (.wake op 0 true)) ∧
        (¬live → Answers e s (takes r h
          (some (if o.kind = .wait then .wake o.id 0 true else .answer slot o.id (.fault 0x0C 0 none))))))) ∧
    ∀ d e, TakesKind e o.kind slot o.id → (∀ sc, o.kind ≠ .alloc sc) → s.reach slot c o.handle = some (.die d) → 65536 ≤ i →
      inTurn (.die d) → Answers e s fun t => t.msgs = s.msgs ∧ t.die d = { s.die d with
        ctrs := noted (.die d) (s.die d).ctrs
        overflow := (s.die d).overflow ++ [⟨.op slot { o with taken := true, lts := lts }, s.cycle + 220⟩] }

/-- R81, R87, R91: the operations on overflow counters are applied in the order in which their engine took them, each once
it is due: a crew's as at any home, and a unit's add to a live counter likewise. -/
def Claim.OverflowCounters : Prop :=
  ∀ (s : State) (die slot : Nat) (c : Crew) (o : CtrOp) (v : OverflowOp) (rest : List OverflowOp),
    (s.die die).overflow = v :: rest →
    let h := s.home (.die die)
    (v.due ≤ s.cycle → v.late = .op slot o → s.crew? slot = some c → (c.ctrOps.find? fun p => p.id == o.id).isSome = true →
      s.reach slot c o.handle = some (.die die) →
      let i := handleIndex o.handle
      let k := h.ctr i
      k.live = true → k.gen = handleGen o.handle → ∀ h' m, CounterEffect slot o h 4096 o.lts h' m →
        (∀ w ∈ h.waiters, w.index ≠ i) → (∀ x, o.kind = .add x ∨ o.kind = .addr x → k.value + x.toNat < 2 ^ 64) →
        Answers (.overflowCounterApply die) s fun t => t.home (.die die) = h' ∧ (t.die die).overflow = rest ∧
          ∀ x, m = some x → Cells.find t.msgs s.nextId = some x) ∧
    (∀ source hd inc n, v.due ≤ s.cycle → v.late = .add source hd inc n →
      let i := handleIndex hd
      let k := h.ctr i
      (∀ w ∈ h.waiters, w.index ≠ i) →
      (k.live = true → k.gen = handleGen hd → k.value + inc < 2 ^ 64 → Answers (.overflowCounterApply die) s fun t =>
        t.home (.die die) = h.setCtr i { k with value := k.value + inc, lts := max k.lts n } ∧ (t.die die).overflow = rest) ∧
      (¬(k.live = true ∧ k.gen = handleGen hd) → ∀ d, source = .engine slot → s.crew? slot = some d →
        Answers (.overflowCounterApply die) s fun t => t.home (.die die) = h ∧ (t.die die).overflow = rest ∧
          t.crew? slot = some (match d.efault with
            | none => { d with efault := some ⟨0x0E, hd, 0⟩ }
            | some _ => { d with lost := min 255 (d.lost + 1) }))) ∧
    (s.cycle < v.due → exec (.overflowCounterApply die) s = .next s)

/-- R35, R77, R80, R83 to R85, R88, R92, R441: a wake lets its lanes go on past their CWAIT with acquire, those past their
timeout with a false predicate and without, and one that arrives in the c of the timeout goes first; a stale
one makes them fault CSTALE, 0x0C; an answer fills its destination with acquire, or faults, or for CADD and
CFREE becomes the pending engine fault; a timeout lets the lane go on with false and withdraws the wait; a
poller looks again every 256 c. That a blocked lane keeps its PC at its CWAIT is deduced (log 18). -/
def Claim.CounterReplies : Prop :=
  ∀ (s : State) (id slot op : Nat) (c : Crew), s.crew? slot = some c → (∀ e ∈ s.crews, e.1 = slot → e.2 = c) →
    let waits := fun (l : Nat) (w : CounterWait) => l < c.threads.length ∧ (c.thread l).st = .waitCounter w ∧ w.op = op
    let alone := ∀ e ∈ s.crews, e.1 ≠ slot → ∀ th ∈ e.2.threads, ∀ w, th.st = .waitCounter w → w.op ≠ op
    let on := fun (l : Nat) (w : CounterWait) (met : Bool) (th : Thread) =>
      let t0 := { c.thread l with pc := (c.thread l).pc + 4, hints := {}, st := .runnable }
      th = match w.pred with
        | some p => t0.setPred p.toNat met
        | none => t0
    let late := fun (w : CounterWait) => ∃ x, w.expiry = some x ∧ x < s.cycle
    let goOn := fun (lts : Nat) (t : State) => ∃ c', t.crew? slot = some c' ∧ c' = { c with threads := c'.threads, lts := c'.lts } ∧
      ((∃ l w, waits l w ∧ ¬late w) → c'.lts = max c.lts lts) ∧ ((∀ l w, waits l w → late w) → c'.lts = c.lts) ∧
      (∀ l w, waits l w → ¬late w → on l w true (c'.thread l)) ∧ (∀ l w, waits l w → late w → on l w false (c'.thread l)) ∧
      ∀ l, (¬∃ w, waits l w) → c'.thread l = c.thread l
    (∀ l w lts, waits l w → alone → Cells.find s.msgs id = some (.wake op lts false) → Answers (.counterWake id) s fun t =>
      goOn lts t ∧ CrewsApart s t [slot] ∧ t = { s with crews := t.crews, msgs := Cells.erase s.msgs id }) ∧
    (∀ l w, waits l w → alone → (∀ k v, waits k v → k = l) → Cells.find s.msgs id = some (.wake op 0 true) →
      exec (.counterWake id) s = .next (({ s with msgs := Cells.erase s.msgs id }.setCrew slot
        (c.modThread l fun t => { t with st := .runnable })).takeFault slot l { code := 0x0C, addr := w.handle }
          (c.thread l).pc (c.thread l).hints s.cycle)) ∧
    (∀ o r l, c.ctrOps.find? (fun p => p.id == op) = some o → Cells.find s.msgs id = some (.answer slot op r) →
      o.lanes = [l] → l < c.threads.length → o.kind ≠ .wait →
      let c1 := { c with ctrOps := c.ctrOps.filter fun p => p.id != op }
      let s1 := { s with msgs := Cells.erase s.msgs id }
      let fills := fun (lts : Nat) (after : Crew → Prop) => Answers (.counterAnswer id) s fun t => ∃ c',
        OneCrew s1 t slot c' ∧
        c' = { c1 with threads := c'.threads, kregs := c'.kregs, utags := c'.utags, lts := max c.lts lts } ∧
        (∀ k, k ≠ l → c'.thread k = c.thread k) ∧ after c'
      (∀ v lts, r = .ok v lts → v < 2 ^ 64 →
        (∀ a b, o.dest = .regs [a, b] false → a ≠ b → a ≠ 0 → b ≠ 0 → fills lts fun c' => ∀ e, (c'.thread l).get e =
          if e = a then BitVec.ofNat 32 v else if e = b then BitVec.ofNat 32 (v / 2 ^ 32) else (c.thread l).get e) ∧
        (∀ k, o.dest = .kreg k true → k ≠ 0 → fills lts fun c' => c'.thread l = c.thread l ∧ c'.kreg k = BitVec.ofNat 64 v) ∧
        (∀ p, o.dest = .pred p → fills lts fun c' => c'.thread l = (c.thread l).setPred p (decide (v ≠ 0))) ∧
        (o.dest = .discard → fills lts fun c' => c'.thread l = c.thread l)) ∧
      (∀ code ext old, r = .fault code ext old →
        (o.kind = .free ∨ (∃ v, o.kind = .add v) → Answers (.counterAnswer id) s fun t => OneCrew s1 t slot
          (match c.efault with
            | none => { c1 with efault := some ⟨code, o.handle, ext⟩ }
            | some _ => { c1 with lost := min 255 (c.lost + 1) })) ∧
        (∀ hints, o.hints = [(l, hints)] → o.kind = .read ∨ o.kind = .test → old = none → (c.thread l).st ≠ .exited →
          exec (.counterAnswer id) s =
            .next ((s1.setCrew slot c1).takeFault slot l { code := code, addr := o.handle, ext := ext } o.pc hints o.cycle)))) ∧
    ∀ l w, waits l w →
      (∀ x n, w.expiry = some x → x = s.cycle → (∃ m ∈ s.msgs, m.2 = .wake op n false) → exec (.cwaitTimeout slot l) s = .next s) ∧
      (∀ x, w.expiry = some x → x < s.cycle ∨ (x = s.cycle ∧ ∀ m ∈ s.msgs, ∀ n, m.2 ≠ .wake op n false) →
        Answers (.cwaitTimeout slot l) s fun t =>
        (∃ c', t.crew? slot = some c' ∧ on l w false (c'.thread l) ∧ ∀ k, k ≠ l → c'.thread k = c.thread k) ∧
        ((∃ e ∈ t.crews, ∃ th ∈ e.2.threads, ∃ v, th.st = .waitCounter v ∧ v.op = op) ∨
          ∀ r, ∀ v ∈ (t.home r).waiters, v.who ≠ .lanes op)) ∧
      (∀ due r, w.poller = some due → due ≤ s.cycle → s.reach slot c w.handle = some r → alone →
        let k := (s.home r).ctr (handleIndex w.handle)
        k.live = true → k.gen = handleGen w.handle →
        (w.threshold.toNat ≤ k.value → Answers (.pollerRecheck slot l) s (goOn k.lts)) ∧
        (k.value < w.threshold.toNat → Answers (.pollerRecheck slot l) s fun t => ∃ c', OneCrew s t slot c' ∧
          (c'.thread l).st = .waitCounter { w with poller := some (due + 256) }))

/-- `Claim.CounterHomes` and `Claim.OverflowCounters` and `Claim.CounterReplies` together; their docstrings name the rules and logs. -/
def Obligations.CounterHomeSteps : Prop := Claim.CounterHomes ∧ Claim.OverflowCounters ∧ Claim.CounterReplies

/-! ## Slices and decks (R218 to R225, R279 to R285, R289 to R292, R351) -/

/-- R206, R279 to R285, R290: a slice takes the oldest request that can proceed: a load that hits is answered with
the line and moves its lease, a store is performed and acknowledged with its write time, one whose number the slice knows is
acknowledged again with the time it had, an atomic is put up for service, a miss is recorded or merged; a fill answers
what waits for the line. The set index is the model's (log 7), and the installing of an
L1 copy as the slice serves it is deduced (log 38). -/
def Obligations.SliceRequests : Prop :=
  ∀ (s : State) (n slot id : Nat) (c : Crew) (q : Req) (before after : List Req),
    s.crew? slot = some c →
    let v := s.slice n
    let m := v.line q.line
    let w := max (m.rts + 1) q.lts
    let rts := max m.rts (max (m.wts + 16) (q.lts + 16))
    let takes := fun (p : State → Prop) => v.off = false → v.ingress = before ++ q :: after →
      (∀ x ∈ before, s.canProceed n x = false) →
      Answers (.sliceRequest n) s fun t => (t.slice n).ingress = before ++ after ∧ p t
    let still := fun (t : State) => ∀ sp a, t.byteAt sp a = s.byteAt sp a
    let sends := fun (x : Msg) (t : State) => Cells.find t.msgs s.nextId = some x
    let numbered := fun (e : Entry) (f : Filtered) => f.core = q.core ∧ f.series = e.series ∧ f.seq = e.seq
    n = s.homeSlice q.line → q.line < hostBase → (∀ x ∈ v.serving, x.req.line ≠ q.line) →
      (m.present = true → v.missing q.line = false →
        (q.kind = .load slot id false →
          (q.line / 128 * 128 ∈ s.poison → takes fun t => sends (.load slot id .poison) t ∧ still t) ∧
          (q.line / 128 * 128 ∉ s.poison → takes fun t =>
            sends (.load slot id (.bytes (s.bytesAt .global q.line 128))) t ∧ still t ∧
            t.crew? slot = some { c with lts := max c.lts m.wts } ∧ (t.slice n).line q.line = { m with rts := rts } ∧
            (q.policy = 0 ∨ q.policy = 4 →
              Cells.find (t.core q.core).l1 q.line = some ⟨s.bytesAt .global q.line 128, m.wts, rts⟩))) ∧
        (∀ e, q.kind = .entry slot id → c.entry? id = some e →
          (e.op = .store ∨ e.op = .spill ∨ e.op = .record →
            (e.line = q.line → q.line % 128 = 0 → Cells.rising e.bytes = true → (∀ b ∈ e.bytes, b.1 < 128) →
              (∀ f ∈ v.stores, ¬numbered e f) → takes fun t => sends (.ack slot id w) t ∧
                (t.slice n).line q.line = { m with wts := w, rts := w, dirty := true } ∧
                ⟨q.core, e.series, e.seq, [], w⟩ ∈ (t.slice n).stores ∧
                (∀ a, t.byteAt .global a =
                  if q.line ≤ a then (Cells.find e.bytes (a - q.line)).getD (s.byteAt .global a) else s.byteAt .global a) ∧
                ∀ k a, t.byteAt (.deck k) a = s.byteAt (.deck k) a) ∧
            (∀ f, numbered e f → f ∈ v.stores → (∀ g ∈ v.stores, numbered e g → g = f) →
              takes fun t => sends (.ack slot id f.wts) t ∧ still t)) ∧
          ((∃ o x y, e.op = .atom o x y) ∨ (∃ r, e.op = .atomr r) →
            takes fun t => (t.slice n).serving = v.serving ++ [⟨q⟩] ∧ still t))) ∧
      (m.present = false → v.missing q.line = false → v.mshr.length < 256 →
        q.kind = .load slot id false ∨ (∃ e, q.kind = .entry slot id ∧ c.entry? id = some e ∧ ∀ o, e.op ≠ .cctl o) →
        takes fun t => Cells.find (t.slice n).mshr q.line = some [q] ∧ still t) ∧
      (∀ l, Cells.find v.mshr q.line = some l →
        (takes fun t => Cells.find (t.slice n).mshr q.line = some (l ++ [q]) ∧ still t) ∧
        (∀ victim, l = [q] → q.kind = .load slot id false → q.line / 128 * 128 ∉ s.poison → m.present = false →
          q.line % 128 = 0 →
          Answers (.lineFill n q.line victim) s fun t => sends (.load slot id (.bytes (s.bytesAt .global q.line 128))) t ∧
            (∀ sp a, (sp = .global → a < hostBase) → t.byteAt sp a = s.byteAt sp a) ∧
            Cells.find (t.slice n).mshr q.line = none ∧ ((t.slice n).line q.line).present = decide (q.policy ≠ 3)))

/-- R221, R222, R224, R225: at its slice an atomic replaces the value by the operation of old value and operand, as one step,
and answers the old value to a lane that wants it; a routine runs on the whole line; a number the slice has seen is answered
again, with the time it had, and changes nothing; a poisoned line raises POISON, 0x12. -/
def Claim.SliceAtomics : Prop :=
  ∀ (s : State) (n slot : Nat) (c : Crew) (q : Req) (rest : List Serving) (e : Entry) (i : Item),
    let v := s.slice n
    let m := s.line e.line
    let w := max (m.rts + 1) q.lts
    s.crew? slot = some c → v.serving = ⟨q⟩ :: rest → q.kind = .entry slot e.id → c.entry? e.id = some e → e.items = [i] →
    e.line + 128 ≤ hostBase → e.line % 128 = 0 → n = s.homeSlice e.line →
    let known := v.replay.find? fun f => f.core == q.core && f.series == e.series && f.seq == e.seq
    let answers := fun (results : List (Nat × DWord)) (wts : Nat) (t : State) =>
      Cells.find t.msgs s.nextId = some (.atomic slot e.id results none) ∧
      Cells.find t.msgs (s.nextId + 1) = some (.ack slot e.id wts)
    let written := fun (a : Nat) (new : List Byte) (t : State) =>
      (∀ b, t.byteAt .global b = if a ≤ b ∧ b < a + new.length then new.getD (b - a) 0 else s.byteAt .global b) ∧
      t.line e.line = { m with wts := w, rts := w, dirty := m.present }
    (e.line ∈ s.poison → known = none → (∃ op wide ret, e.op = .atom op wide ret) → Answers (.sliceAtomic n) s fun t =>
      Cells.find t.msgs s.nextId = some (.atomic slot e.id [] (some 0x12)) ∧
      Cells.find t.msgs (s.nextId + 1) = some (.ack slot e.id 0) ∧ ∀ sp a, t.byteAt sp a = s.byteAt sp a) ∧
    (e.line ∉ s.poison → ∀ op wide ret, e.op = .atom op wide ret → (e.size = 4 ∨ e.size = 8) → e.line ≤ i.addr → i.addr + e.size ≤ e.line + 128 →
      let bits := 8 * e.size
      let old := natOf (s.bytesAt .global i.addr e.size)
      let x := i.data.toNat % 2 ^ bits
      let sg := fun (u : Nat) => (BitVec.ofNat bits u).toInt
      let new :=
        if op = 0 then (old + x) % 2 ^ bits
        else if op = 1 then (if sg x < sg old then x else old)
        else if op = 2 then (if sg old < sg x then x else old)
        else if op = 3 then min old x
        else if op = 4 then max old x
        else if op = 5 then old &&& x
        else if op = 6 then old ||| x
        else if op = 7 then old ^^^ x
        else if op = 8 then x
        else if op = 9 then (if old = x then i.data2.toNat % 2 ^ bits else old)
        else (fmt32.add 0 old x).1
      (known = none → Answers (.sliceAtomic n) s fun t =>
        answers (if ret = true then [(i.lane, BitVec.ofNat 64 old)] else []) w t ∧ written i.addr (bytesOf e.size new) t ∧
        (t.slice n).serving = rest) ∧
      (∀ f, known = some f → Answers (.sliceAtomic n) s fun t =>
        answers f.results f.wts t ∧ ∀ sp a, t.byteAt sp a = s.byteAt sp a)) ∧
    (e.line ∉ s.poison → ∀ r, e.op = .atomr r → known = none →
      let regs := (List.range 32).map fun k =>
        if k = 10 then i.data.setWidth 32 else if k = 11 then i.data2.setWidth 32 else if k = 12 then BitVec.ofNat 32 i.lane else 0
      (∀ words x line, Cells.find s.cox.routines (64 * c.ctx + r) = some words →
        routineRun words 17 0 regs (s.bytesAt .global e.line 128) = some (x, line) → line.length = 128 →
        Answers (.atomrRoutine n) s fun t => answers [(i.lane, (x.getD 10 0).setWidth 64)] w t ∧ written e.line line t) ∧
      (Cells.find s.cox.routines (64 * c.ctx + r) = none → (c.thread i.lane).st = .exited → Answers (.atomrRoutine n) s fun t =>
        answers [] w t ∧ ∀ sp a, t.byteAt sp a = s.byteAt sp a))

/-- R216, R218 to R220, R274, R289, R292, R428: a deck serves its requests in order: a load's line, with the lanes that read a
word with an uncorrectable error, a store's bytes, SCADD's sum, BINAPP's count; a multicast line and a relayed beat are
written to every named deck that holds them, else logged. Which of several decks of the context a core's multicast is
written to is the model's choice (log 53). -/
def Claim.DeckSteps : Prop :=
  ∀ (s : State) (core slot : Nat) (c : Crew), s.crew? slot = some c →
    let k := s.core core
    let sends := fun (x : Msg) (t : State) => Cells.find t.msgs s.nextId = some x
    let apart := fun (t : State) => t.crews = s.crews ∧ t.mem = s.mem ∧ t.hostMem = s.hostMem ∧ t.slices = s.slices
    let deckBytes := fun (n a : Nat) (new : List Byte) (t : State) => ∀ b,
      (t.core n).deck.byte b = if a ≤ b ∧ b < a + new.length then new.getD (b - a) 0 else (s.core n).deck.byte b
    (∀ id l rest, k.deckq = .load slot id :: rest → c.loads.find? (fun x => x.id == id) = some l →
      l.space = .deck core → Answers (.deckRequest core) s fun t => (t.core core).deckq = rest ∧ apart t ∧ (t.core core).deck = k.deck ∧
        ∃ bad, sends (.load slot id (.partly (s.bytesAt (.deck core) l.line 128) bad)) t ∧
          ∀ n, n ∈ bad ↔ ∃ x ∈ l.lanes, x.lane = n ∧ ∃ i w, x.fwd[i]? = some none ∧ w ∈ k.badDeck ∧ w ≤ x.addr + i ∧ x.addr + i < w + 8) ∧
    (∀ e rest, k.deckq = .entry slot e.id :: rest → c.entry? e.id = some e → e.space = .deck core →
      (e.op = .store ∨ e.op = .spill ∨ e.op = .record → Cells.rising e.bytes = true → Answers (.deckRequest core) s fun t =>
        (t.core core).deckq = rest ∧ apart t ∧ sends (.ack slot e.id 0) t ∧
        ∀ b, (t.core core).deck.byte b =
          if e.line ≤ b then (Cells.find e.bytes (b - e.line)).getD (k.deck.byte b) else k.deck.byte b) ∧
      (∀ ty i, e.op = .scadd ty → e.items = [i] → e.size = (if ty.toNat < 2 then 4 else 8) →
        let old := natOf (s.bytesAt (.deck core) i.addr e.size)
        let x := i.data.toNat % 2 ^ (8 * e.size)
        let new := if ty = 0 then (old + x) % 2 ^ 32 else if ty = 1 then (fmt32.add 0 old x).1
          else if ty = 2 then (old + x) % 2 ^ 64 else (fmt64.add 0 old x).1
        Answers (.deckRequest core) s fun t => apart t ∧ deckBytes core i.addr (bytesOf e.size new) t ∧
          Cells.find t.msgs (s.nextId + 1) = some (.ack slot e.id 0)) ∧
      (∀ i, e.op = .binapp → e.items = [i] → e.size = 8 →
        let count := natOf (s.bytesAt (.deck core) i.addr 4)
        let cap := natOf (s.bytesAt (.deck core) (i.addr + 4) 4)
        Answers (.deckRequest core) s fun t => apart t ∧
          deckBytes core i.addr (if count < cap then bytesOf 4 (count + 1) else []) t ∧
          sends (.atomic slot e.id [(i.lane, if count < cap then BitVec.ofNat 64 count else 0xFFFFFFFF)] none) t)) ∧
    (∀ n id dst doff rest line lts, (s.slice n).mcast = ⟨line, [(slot, id, lts)], [(id, dst, doff)]⟩ :: rest →
      (c.entry? id).isSome = true → line % 128 = 0 → line + 128 ≤ hostBase →
      let deck := s.crews.find? fun e => coreOf e.1 == dst && e.2.ctx == c.ctx && decide (doff + 128 ≤ e.2.deckSize)
      (line ∈ s.poison → Answers (.multicastResponse n) s fun t => (t.slice n).mcast = rest ∧ t.cores = s.cores ∧
        sends (.atomic slot id [] (some 0x12)) t ∧ Cells.find t.msgs (s.nextId + 1) = some (.ack slot id 0)) ∧
      (line ∉ s.poison → Answers (.multicastResponse n) s fun t => (t.slice n).mcast = rest ∧ sends (.ack slot id 0) t ∧
        t.crew? slot = some { c with lts := max c.lts (s.line line).wts } ∧
        (∀ e, deck = some e → deckBytes dst (e.2.deckBase + doff) (s.bytesAt .global line 128) t ∧ t.cox = s.cox) ∧
        (deck = none → t.cores = s.cores ∧ ∃ x, t.cox.events = s.cox.events ++ [x] ∧ x.kind = 9 ∧ x.ctx = c.ctx))) ∧
    ∀ (b : Beat) rest, k.beats = b :: rest →
      let deck := s.crews.find? fun e => coreOf e.1 == core && e.2.ctx == b.ctx && decide (b.off + b.data.length ≤ e.2.deckSize)
      Answers (.relayBeat core) s fun t => (t.core core).beats = rest ∧
        (∀ e, deck = some e → deckBytes core (e.2.deckBase + b.off) b.data t ∧ t.cox = s.cox) ∧
        (deck = none → (t.core core).deck = k.deck ∧ ∃ x, t.cox.events = s.cox.events ++ [x] ∧ x.kind = 9 ∧ x.ctx = b.ctx)

/-- `Claim.SliceAtomics` and `Claim.DeckSteps` together; their docstrings name the rules and logs. -/
def Obligations.AtomicsAndDecks : Prop := Claim.SliceAtomics ∧ Claim.DeckSteps

/-- R290, R351: all copies of a map switch at the activation cycle; a retired slice gates once no request of an
older generation remains at its die, its dirty host-homed lines in the flush buffer of 32 lines, and powers down when that
has been written back to the host. What is left of an atomic lost with its slice is free (log 28), and the flush
buffer's fate with its link is deduced (log 34). -/
def Obligations.SliceMaps : Prop :=
  ∀ (s : State) (n : Nat),
    let v := s.slice n
    let d := s.die (n / 48)
    let current := fun (q : Req) => homeDie q.line = n / 48 → q.gen = d.gen
    (∀ p, (s.die n).pending = some p → p.cycle ≤ s.cycle → Answers (.mapActivate n) s fun t =>
      (t.die n).gen = p.gen ∧ (t.die n).pending = none ∧ (∀ b, b < p.map.length → (t.die n).mapped b = p.map.getD b 0) ∧
      (∀ k, k ≠ n → t.die k = { s.die k with llc := (t.die k).llc, llcDirty := (t.die k).llcDirty }) ∧ t.mem = s.mem ∧ t.crews = s.crews ∧
      ((∀ e, ∀ x ∈ (s.slice e).lines, hostBase ≤ x.1 → x.2.dirty = false) → t.hostMem = s.hostMem)) ∧
    (∀ p, (s.die n).pending = some p → s.cycle < p.cycle → exec (.mapActivate n) s = .next s) ∧
    (v.retired = true → v.gating = false → d.pending = none →
      ((∀ e ∈ s.slices, (∀ q ∈ e.2.ingress, current q) ∧ ∀ m ∈ e.2.mshr, ∀ q ∈ m.2, current q) →
        (∀ k ∈ s.cores, (∀ r ∈ k.2.retry, current r.req) ∧ ∀ q ∈ k.2.unanswered, current q) →
        Answers (.sliceRetireComplete n) s fun t => ∃ v', OneSlice s t n v' ∧
          v' = { v with gating := true, flush := v'.flush, lines := v'.lines } ∧ (v.flush.length ≤ 32 → v'.flush.length ≤ 32) ∧
          let dirty := v.lines.filter fun e => decide (hostBase ≤ e.1) && e.2.present && e.2.dirty
          (v.flush = [] → (v.lines.map (·.1)).Pairwise (· < ·) → dirty.length ≤ 32 →
            v'.flush = dirty.map (fun e => (e.1, e.2.data)) ∧ ∀ e ∈ v'.lines, hostBase ≤ e.1 → e.2.present = false)) ∧
      ((∃ e ∈ s.slices, ∃ q ∈ e.2.ingress, ¬current q) ∨ (∃ k ∈ s.cores, ∃ q ∈ k.2.unanswered, ¬current q) →
        exec (.sliceRetireComplete n) s = .next s)) ∧
    (v.gating = true → v.off = false → v.ingress = [] → v.mshr = [] → v.serving = [] → v.mcast = [] →
      (∀ a data rest, v.flush = (a, data) :: rest → hostBase ≤ a → (∀ e ∈ v.lines, hostBase ≤ e.1 → e.2.present = false) →
        Answers (.slicePowerDown n) s fun t => OneSlice { s with hostMem := t.hostMem } t n { v with flush := rest } ∧
          ∀ b, t.hostMem.byte b =
            if a - hostBase ≤ b ∧ b < a - hostBase + data.length then data.getD (b - (a - hostBase)) 0 else s.hostMem.byte b) ∧
      (v.flush = [] → Answers (.slicePowerDown n) s fun t => OneSlice s t n { v with off := true }))

/-! ## Engines (R54, R89 to R91, R117, R231, R232, R236 to R241, R245, R248, R249, R252 to R255) -/

/-- R231, R236, R237, R89, R91, R241: the copy engine moves the rows of a command in order once its crew's older entries
are acknowledged, each row at the start plus its indices times the strides, modulo 2^64, and stands at the next split point;
with its writes done, 1 is added to the counter it names and DONE advances. A fault that is not held stops the command: it
leaves the queue, DONE advances, and the crew has a pending engine fault; one that is held keeps the command where its rows
end. That the rows up to a split point move in one step is the model's choice (log 19). -/
def Claim.CopyCommands : Prop :=
  ∀ (s : State) (core chan : Nat) (c : Crew) (cmd : CopyCmd) (rest : List CopyCmd),
    let k := s.core core
    let b := copyBlock cmd.block
    let left := b.c1 * b.c2 * b.c3 - cmd.row
    let steps := if b.split = 0 then left else min left (b.split - cmd.row % b.split)
    let m := s.moveRows (.copy core chan) cmd.slot c b cmd.lts b.rowAt ⟨cmd.wtime, cmd.pcieWrites⟩ cmd.part steps cmd.row
    let moved := { cmd with
      started := true, row := m.row, part := m.part, wtime := m.out.wtime, pcieWrites := m.out.pcie, moved := false }
    let ready := cmd.moved = false ∧ cmd.held = none ∧ k.preempt = false ∧ k.stopped = false ∧
      ∀ e ∈ c.fifo, e.id ∉ cmd.older
    k.channel chan = cmd :: rest → s.crew? cmd.slot = some c → c.early = [] → c.done.length = 3 →
    c.done.getD 0 0 + 1 = cmd.ticket →
    (∀ n, n < b.c1 * b.c2 * b.c3 → ∀ i j l, i < b.c1 → j < b.c2 → n = i + b.c1 * j + b.c1 * b.c2 * l →
      b.rowAt n =
        (((b.src + i * b.ss.getD 0 0 + j * b.ss.getD 1 0 + l * b.ss.getD 2 0) % 2 ^ 64).toNat,
         ((b.dst + i * b.ds.getD 0 0 + j * b.ds.getD 1 0 + l * b.ds.getD 2 0) % 2 ^ 64).toNat)) ∧
    (ready → b.car = false →
      (m.stop = none → Answers (.copyCommandStart core chan) s fun t =>
        (t.core core).channel chan = { moved with moved := decide (b.c1 * b.c2 * b.c3 ≤ m.row) } ::
          ((m.state.core core).channel chan).drop 1) ∧
      (m.stop = some .wait → Answers (.copyCommandStart core chan) s fun t =>
        (t.core core).channel chan = moved :: ((m.state.core core).channel chan).drop 1) ∧
      (b.srck = 1 → b.dstk = 1 → b.c1 = 1 → b.c2 = 1 → b.c3 = 1 → b.src < 2 ^ 64 → b.dst < 2 ^ 64 → cmd.row = 0 →
        cmd.part = none → k.badAcc = [] → coreOf cmd.slot = core → Answers (.copyCommandStart core chan) s fun t =>
          (∀ a, (t.core core).acc.byte a = if b.dst ≤ a ∧ a < b.dst + b.len then k.acc.byte (b.src + (a - b.dst)) else k.acc.byte a) ∧
          (t.core core).channel chan = { cmd with started := true, moved := true, row := 1 } :: rest) ∧
      (∀ f, m.stop = some (.fault f) →
        (∀ id s1, m.state.holdAccess cmd.slot c f = some (id, s1) → Answers (.copyCommandStart core chan) s fun t =>
          (t.core core).channel chan = { moved with held := some id } :: ((s1.core core).channel chan).drop 1) ∧
        (m.state.holdAccess cmd.slot c f = none → m.state.crew? cmd.slot = some c → Answers (.copyCommandStart core chan) s fun t =>
          (t.core core).channel chan = ((m.state.core core).channel chan).drop 1 ∧ ∃ c', t.crew? cmd.slot = some c' ∧
            c'.done.getD 0 0 = cmd.ticket ∧ (c.efault = none → c'.efault = some ⟨f.code, f.addr, f.ext⟩)))) ∧
    (cmd.moved = true → b.car = false → cmd.pcieWrites = false → (∀ q ∈ s.links.pcie, q.kind ≠ .flush (.copy core chan)) →
      (∀ e ∈ s.cores, ∀ x ∈ e.2.beats, ¬(x.core = core ∧ x.chan = chan)) →
      let ends := fun (t : State) => (t.core core).channel chan = rest ∧ ∃ c', t.crew? cmd.slot = some c' ∧
        c'.done.getD 0 0 = cmd.ticket ∧ c'.efault = c.efault
      (cmd.cnt = 0 → Answers (.copyCommandComplete core chan) s ends) ∧
      (∀ r, cmd.cnt ≠ 0 → s.reach cmd.slot c cmd.cnt = some r → r ≠ .peer → (∀ w ∈ (s.home r).waiters, w.index ≠ handleIndex cmd.cnt) →
        ((s.home r).served.1 = s.cycle → (s.home r).served.2 ≤ homeInput r (coreOf cmd.slot) 4 (handleIndex cmd.cnt)) →
        ((∃ d, r = .die d) → handleIndex cmd.cnt < 65536) →
        let q := (s.home r).ctr (handleIndex cmd.cnt)
        q.live = true → q.gen = handleGen cmd.cnt → q.value < 2 ^ 64 - 1 →
        Answers (.copyCommandComplete core chan) s fun t => ends t ∧
          (t.home r).ctr (handleIndex cmd.cnt) = { q with value := q.value + 1, lts := max q.lts (max cmd.lts cmd.wtime) }))

/-- R54, R78, R91, R238, R241: a carousel reads FILLED at its start; an item's rows are moved once FREED allows its slot, with
acquire of FREED's time, else the engine registers a wait, which a freed FREED ends with ENGSTALE, 0x0E; each item adds 1 to
FILLED, the last ends the command; a pre-empted core's engines
stop between commands or at a split point. That rows move in one step up to a split point, and how a carousel's rows are
counted for SPLIT, is the model's choice (logs 19, 56). -/
def Claim.CarouselSteps : Prop :=
  ∀ (s : State) (core chan : Nat) (c : Crew) (cmd : CopyCmd) (rest : List CopyCmd) (rf rd : HomeRef),
    let k := s.core core
    let b := copyBlock cmd.block
    let filled := (s.home rf).ctr (handleIndex b.cnt)
    let freed := (s.home rd).ctr (handleIndex b.freed)
    let i := cmd.i0 + cmd.item
    let index := cmd.item * b.c1 + cmd.row
    let steps := if b.split = 0 then b.c1 - cmd.row else min (b.c1 - cmd.row) (b.split - index % b.split)
    let head := fun (x : CopyCmd) (t : State) => ∃ l, (t.core core).channel chan = x :: l
    let moves := fun (s1 : State) (lts : Nat) =>
      let m := s1.moveRows (.copy core chan) cmd.slot c b lts (b.itemRow cmd.item i) ⟨cmd.wtime, cmd.pcieWrites⟩ cmd.part steps cmd.row
      m.stop = none → Answers (.carouselItemStart core chan) s (head { cmd with
        waiting := false, lts := lts, row := if b.c1 ≤ m.row then 0 else m.row, itemMoved := decide (b.c1 ≤ m.row)
        part := m.part, wtime := m.out.wtime, pcieWrites := m.out.pcie })
    k.channel chan = cmd :: rest → s.crew? cmd.slot = some c → b.car = true → cmd.moved = false → cmd.held = none →
    k.preempt = false → k.stopped = false →
    s.reach cmd.slot c b.cnt = some rf → rf ≠ .peer → filled.live = true → filled.gen = handleGen b.cnt →
    s.reach cmd.slot c b.freed = some rd → rd ≠ .peer → freed.live = true → freed.gen = handleGen b.freed →
    (cmd.started = false → (∀ e ∈ c.fifo, e.id ∉ cmd.older) →
      Answers (.copyCommandStart core chan) s (head { cmd with started := true, i0 := filled.value })) ∧
    (cmd.started = true → cmd.itemMoved = false → cmd.waiting = false →
      (cmd.row ≠ 0 ∨ cmd.part.isSome = true → moves s (max cmd.lts 0)) ∧
      (cmd.row = 0 → cmd.part = none →
        (i + 1 ≤ freed.value + b.c3 → moves s (max cmd.lts freed.lts)) ∧
        (freed.value + b.c3 < i + 1 → (s.home rd).waiters.length < waiterRoom rd → Answers (.carouselItemStart core chan) s fun t =>
          head { cmd with waiting := true } t ∧ (t.home rd).waiters = (s.home rd).waiters ++
            [⟨handleIndex b.freed, b.freed, i + 1 - b.c3, .carousel core chan⟩]))) ∧
    (cmd.started = true → cmd.itemMoved = false → cmd.waiting = true →
      (s.carouselMsg core chan = none → exec (.carouselItemStart core chan) s = .next s) ∧
      ∀ id lts, (s.carouselMsg core chan = some (id, lts, false) →
          moves { s with msgs := Cells.erase s.msgs id } (max cmd.lts lts)) ∧
        (s.carouselMsg core chan = some (id, lts, true) → c.efault = none → Answers (.carouselItemStart core chan) s fun t =>
          (t.core core).channel chan = rest ∧ ∃ c', t.crew? cmd.slot = some c' ∧ c'.efault = some ⟨0x0E, b.freed, 0⟩)) ∧
    (cmd.itemMoved = true → cmd.pcieWrites = false → (∀ q ∈ s.links.pcie, q.kind ≠ .flush (.copy core chan)) →
      (∀ e ∈ s.cores, ∀ x ∈ e.2.beats, ¬(x.core = core ∧ x.chan = chan)) → filled.value < 2 ^ 64 - 1 →
      (∀ w ∈ (s.home rf).waiters, w.index ≠ handleIndex b.cnt) →
      ((s.home rf).served.1 = s.cycle → (s.home rf).served.2 ≤ homeInput rf (coreOf cmd.slot) 4 (handleIndex b.cnt)) →
      ((∃ d, rf = .die d) → handleIndex b.cnt < 65536) →
      Answers (.carouselItemDone core chan) s fun t =>
        head { cmd with itemMoved := false, item := cmd.item + 1, moved := decide (b.c2 ≤ cmd.item + 1) } t ∧
        (t.home rf).ctr (handleIndex b.cnt) =
          { filled with value := filled.value + 1, lts := max filled.lts (max cmd.lts cmd.wtime) }) ∧
    ∀ n, (s.core n).preempt = true → (s.core n).stopped = false → (s.core n).streamq = [] →
      (∀ q ∈ (s.core n).copyq, ∀ x ∈ q.2.head?, x.started = false ∨ (x.moved = false ∧ x.itemMoved = false ∧ x.part = none ∧
        let y := copyBlock x.block
        ((y.car = true ∧ x.row = 0) ∨
          (y.split ≠ 0 ∧ (if y.car = true then x.item * y.c1 + x.row else x.row) % y.split = 0)))) →
      (∀ x ∈ (s.core n).matrixq.head?, x.started = false) →
      Answers (.engineSplitStop n) s fun t => (t.core n).stopped = true ∧ (t.core n).matrixq = (s.core n).matrixq ∧
        (t.core n).deck = (s.core n).deck ∧ t.mem = s.mem ∧
        ∀ r ch, ch < 4 → ∀ w ∈ (t.home r).waiters, w.who ≠ .carousel n ch

/-- `Claim.CopyCommands` and `Claim.CarouselSteps` together; their docstrings name the rules and logs. -/
def Obligations.CopyEngine : Prop := Claim.CopyCommands ∧ Claim.CarouselSteps

/-- R54, R117, R231, R245, R248, R249: MXTAB replaces an activation table and ends; a matrix command starts with its
bias values, runs its tiles, and ends with its completion add and DONE; at a split point of a pre-empted core it
leaves its partial sums in the save area and waits to resume there. That the tiles that remain run in one step
is the model's choice (log 19). -/
def Claim.MatrixSteps : Prop :=
  ∀ (s : State) (core : Nat) (c : Crew) (cmd : MatrixCmd) (rest : List MatrixCmd),
    let k := s.core core
    let b := mxBlock cmd.block
    let ready := cmd.started = false ∧ k.preempt = false ∧ k.stopped = false ∧ ∀ e ∈ c.fifo, e.id ∉ cmd.older
    let word := fun (l : List Byte) (i : Nat) => BitVec.ofNat 32 (natOf ((l.drop (4 * i)).take 4))
    let head := fun (x : MatrixCmd) (t : State) => ∃ l, (t.core core).matrixq = x :: l
    k.matrixq = cmd :: rest → s.crew? cmd.slot = some c → cmd.held = none → c.early = [] → c.done.length = 3 →
    c.done.getD 1 0 + 1 = cmd.ticket →
    let ends := fun (s1 t : State) => (t.core core).matrixq = ((s1.core core).matrixq).drop 1 ∧
      ∃ c', t.crew? cmd.slot = some c' ∧ c'.done.getD 1 0 = cmd.ticket ∧ c'.efault = c.efault
    (∀ n a l s1, cmd.table = some (n, a) → ready → s.engineRead (.matrix core) cmd.slot c a.toNat 2048 = (.ok l, s1) →
      s1.crew? cmd.slot = some c → Answers (.mxtabLoad core) s fun t => ends s1 t ∧
        ∀ i, Cells.get 0 (t.core core).acttab i =
          if 512 * n ≤ i ∧ i < 512 * n + 512 then word l (i - 512 * n) else Cells.get 0 (s1.core core).acttab i) ∧
    (cmd.table = none → ready → cmd.bias = [] →
      (b.ctrl.testBit 1 = false → Answers (.mxcmdStart core) s (head { cmd with started := true })) ∧
      (∀ l s1, b.ctrl.testBit 1 = true → s.engineRead (.matrix core) cmd.slot c b.biasp (4 * b.n) = (.ok l, s1) →
        Answers (.mxcmdStart core) s (head { cmd with started := true, bias := (List.range b.n).map (word l) }))) ∧
    (cmd.table = none → cmd.started = true → cmd.done = false → ∀ x area s1, k.setup cmd.block = some x → x.block = b →
      s.savedArea core c cmd x = (.ok area, s1) →
      (let r := s1.runTiles c x area core (b.n / 128 - cmd.tile) cmd;
        (r.stop = none → (cmd.tile < b.n / 128 → r.cmd.tile = b.n / 128 ∧ r.cmd.kdone = 0 ∧ r.cmd.written = none) ∧
          Answers (.mxcmdComplete core) s (head { cmd with
            done := true, tile := r.cmd.tile, kdone := r.cmd.kdone, written := r.cmd.written
            wtime := r.cmd.wtime, pcieWrites := r.cmd.pcieWrites })) ∧
        (∀ f, r.stop = some f → r.state.holdAccess cmd.slot c f = none → r.state.crew? cmd.slot = some c →
          Answers (.mxcmdComplete core) s fun t => (t.core core).matrixq = ((r.state.core core).matrixq).drop 1 ∧
            ∃ c', t.crew? cmd.slot = some c' ∧ c'.done.getD 1 0 = cmd.ticket ∧
              (c.efault = none → c'.efault = some ⟨f.code, f.addr, f.ext⟩))) ∧
      (∀ tile kdone, k.preempt = true → cmd.splitPoint b tile kdone = true →
        let r := s1.runTiles c x area core (tile - cmd.tile + (if kdone = b.k then 1 else 0)) cmd
        r.stop = none → (kdone ≠ b.k → (r.state.core core).badCell x r.cmd.kdone kdone false (x.cells tile) = none) →
        let w := r.state.saveTile core c r.cmd x area tile kdone
        w.1.stop = none → Answers (.matrixSplitStop core tile kdone) s (head { cmd with
          started := false, saved := true, written := r.cmd.written
          tile := if kdone = b.k then tile + 1 else tile, kdone := if kdone = b.k then 0 else kdone
          wtime := max r.cmd.wtime w.1.out.wtime, pcieWrites := r.cmd.pcieWrites || w.1.out.pcie }))) ∧
    (cmd.table = none → cmd.started = true → cmd.done = true → cmd.pcieWrites = false →
      (∀ q ∈ s.links.pcie, q.kind ≠ .flush (.matrix core)) →
      (b.cnt = 0 → Answers (.mxcmdComplete core) s (ends s)) ∧
      (∀ r, b.cnt ≠ 0 → s.reach cmd.slot c b.cnt = some r → r ≠ .peer → (∀ w ∈ (s.home r).waiters, w.index ≠ handleIndex b.cnt) →
        ((s.home r).served.1 = s.cycle → (s.home r).served.2 ≤ homeInput r (coreOf cmd.slot) 5 (handleIndex b.cnt)) →
        ((∃ d, r = .die d) → handleIndex b.cnt < 65536) →
        let q := (s.home r).ctr (handleIndex b.cnt)
        q.live = true → q.gen = handleGen b.cnt → q.value < 2 ^ 64 - 1 → Answers (.mxcmdComplete core) s fun t => ends s t ∧
          (t.home r).ctr (handleIndex b.cnt) = { q with value := q.value + 1, lts := max q.lts (max cmd.lts cmd.wtime) }))

/-- R231, R252 to R255: a collective whose members have all arrived starts on each with what its RECV area is to
receive; the writes done, the completion add is made and DONE advances; one that makes no progress for 2^24 c
stops with REMOTE, 0x1C, and one of an unknown group or posted a second time with MXPARAM, 0x1A. Stated for a group of one
member; the data of larger ones is `recvData`. The address of its fault is free (log 12). -/
def Claim.CollectiveSteps : Prop :=
  ∀ (s s1 : State) (die : Nat) (g : Group) (c : Crew) (x : CollCmd) (before after : List CollCmd),
    let q := (s.die die).collq
    let group := natOf ((x.block.drop 32).take 4)
    let seq := natOf ((x.block.drop 36).take 4)
    let count := natOf ((x.block.drop 24).take 4)
    q = before ++ x :: after → (∀ y ∈ before ++ after, y.group ≠ group) → s.crew? x.slot = some c → x.held = none →
    c.early = [] → c.done.length = 3 → c.done.getD 2 0 + 1 = x.ticket →
    let ends := fun (t : State) => (t.die die).collq = before ++ after ∧ ∃ c', t.crew? x.slot = some c' ∧
      c'.done.getD 2 0 = x.ticket
    (∀ d, die < 4 → (∀ n < 4, n ≠ die → ∀ y ∈ (s.die n).collq, y.group ≠ group) → s.group? group = some g →
      g.members = [(s.cox.moduleNo, die)] → x.started = false → (∀ e ∈ c.fifo, e.id ∉ x.older) →
      (group, seq) ∉ (s.die die).collDone → (q.filter (·.started)).length < 8 → s.readSend die x 1 0 = (.ok d, s1) →
      Answers (.collectiveStart group seq) s fun t => ∃ data,
        (t.die die).collq = before ++ { x with started := true, since := s1.cycle, data := data } :: after ∧
        data = recvData x.kind x.block [d] 0 ∧
        (x.kind = 2 ∨ x.kind = 5 → data = d.take (count * unitSize (natOf ((x.block.drop 28).take 1))))) ∧
    (die < 4 → (∀ n < 4, n ≠ die → ∀ y ∈ (s.die n).collq, y.group ≠ group) → x.started = false →
      s.group? group = none ∨ (group, seq) ∈ (s.die die).collDone →
      Answers (.collectiveStart group seq) s fun t => ends t ∧
        ∀ c', t.crew? x.slot = some c' → c.efault = none → ∃ f, c'.efault = some f ∧ f.code = 0x1A) ∧
    (x.started = true →
      (x.done = true → x.pcieWrites = false → natOf ((x.block.drop 16).take 8) = 0 →
        (∀ p ∈ s.links.pcie, p.kind ≠ .flush (.coll die group)) →
        Answers (.collectiveComplete die group) s fun t => ends t ∧ ∀ c', t.crew? x.slot = some c' → c'.efault = c.efault) ∧
      (∀ w, x.done = false → windowExtent (natOf ((x.block.drop 8).take 8)) x.data.length = none →
        s.engineWrite x.slot c x.lts ((natOf ((x.block.drop 8).take 8) + x.written) % 2 ^ 64) (x.data.drop x.written) = (w, s1) →
        w.stop = none → Answers (.collectiveComplete die group) s fun t => (t.die die).collq = before ++
          { x with
            done := true, written := x.written + w.count, wtime := max x.wtime w.out.wtime
            pcieWrites := x.pcieWrites || w.out.pcie, since := s.cycle } :: after) ∧
      (x.done = false → x.since + 2 ^ 24 ≤ s.cycle → Answers (.collectiveStallTimeout die group) s fun t => ends t ∧
        ∀ c', t.crew? x.slot = some c' → c.efault = none → ∃ f, c'.efault = some f ∧ f.code = 0x1C) ∧
      (s.cycle < x.since + 2 ^ 24 → exec (.collectiveStallTimeout die group) s = .next s))

/-- `Claim.MatrixSteps` and `Claim.CollectiveSteps` together; their docstrings name the rules and logs. -/
def Obligations.MatrixAndCollectiveEngines : Prop := Claim.MatrixSteps ∧ Claim.CollectiveSteps

/-! ## The Ringmaster (R320 to R328, R330, R335, R337, R338, R367, R397) -/

/-- R321 to R324, R330: the head record of the queue of highest priority, lowest number, is checked, children before
the queue's own; it is rejected with the first code that applies, in an event and in its window slot, or becomes
a grid under the next serial, which starts at once when it depends on nothing and its queue's order allows. The
layout of the event's DATA is the model's (log 9). -/
def Claim.RecordIntake : Prop :=
  ∀ (s : State) (q : Nat) (v v1 : Queue) (a b : List (Nat × Queue)) (r : LaunchRecord),
    s.rm.queues = a ++ (q, v) :: b → (∀ e ∈ a, e.1 ≠ q) →
    (∀ e ∈ a, e.2.children ≠ [] ∨ e.2.records ≠ [] → e.2.prio < v.prio) →
    (∀ e ∈ b, e.2.children ≠ [] ∨ e.2.records ≠ [] → e.2.prio ≤ v.prio) →
    (v.children = r :: v1.children ∧ v1 = { v with children := v1.children }) ∨
      (v.children = [] ∧ v.records = r :: v1.records ∧ v1 = { v with records := v1.records }) →
    let f := launchOf r.bits
    let gone := fun (h : Nat) => s.shortHandle h = none
    let cluster := if f.cluster = true then 4 * f.crews else f.crews
    let broken := fun (code : Nat) =>
      (code = 1 ∧ f.reserved = true) ∨ (code = 2 ∧ (8 < f.streams ∨ 4096 * 128 < f.deck ∨ 32 < f.crews * f.streams)) ∨
      (code = 3 ∧ f.teams = 0) ∨ (code = 4 ∧ f.cluster = true ∧ f.teams % 4 ≠ 0) ∨
      (code = 5 ∧ ((f.done ≠ 0 ∧ gone f.done) ∨ ∃ d ∈ f.deps, gone d.2.1)) ∨
      (code = 6 ∧ (s.context v.ctx).pcrews < cluster)
    (∀ code, broken code → (∀ n < code, ¬broken n) → f.done = 0 → Answers .launchRecordCheck s fun t =>
      t.queue q = v1 ∧ t.rm.grids = s.rm.grids ∧ t.rm.serial = s.rm.serial ∧
      (∃ e, t.cox.events = s.cox.events ++ [e] ∧ e.kind = 1 ∧ e.ctx = v.ctx ∧
        e.data = bytesOf 8 r.addr ++ bytesOf 8 q ++ bytesOf 8 code) ∧
      ∀ w, r.source = .window w → t.rm.window.byte (8192 * q + 128 * w + 68) = BitVec.ofNat 8 code) ∧
    ((∀ code, ¬broken code) → (∀ g ∈ s.rm.grids, g.serial ≠ s.rm.serial) → f.deps = [] → Answers .launchRecordCheck s fun t =>
      t.queue q = v1 ∧ t.rm.serial = (s.rm.serial + 1) % 2 ^ 32 ∧ ∃ g, t.rm.grids = s.rm.grids ++ [g] ∧
        g.serial = s.rm.serial ∧ g.queue = q ∧ g.ctx = v.ctx ∧ g.prio = v.prio ∧ g.bits = r.bits ∧ g.unmet = [] ∧
        g.dispatched = 0 ∧ g.exited = 0 ∧ g.lts = r.lts ∧
        (g.parent, g.depth) = (match r.source with
          | .child p d => (some p, d)
          | _ => (none, 0)) ∧
        (g.done = if f.done = 0 then 0 else (s.shortHandle f.done).getD 0) ∧
        (g.started = true ↔ g.parent ≠ none ∨ ∀ x ∈ s.rm.grids, x.started = true ∨ x.parent ≠ none ∨ x.queue ≠ q))

/-- R27, R322, R324 to R326, R330, R372: a pending grid starts when every dependence is met, by its home's wake or, where no
home holds the wait, by the counter's value, with the largest logical
time; one whose counter is freed is dropped with an event of code 5; a grid whose teams have all exited and
which has no child retires and adds 1 to the counter its record names. The layout of the event's DATA is the
model's (log 9). -/
def Claim.GridLife : Prop :=
  ∀ (s : State) (g : Grid) (a b : List Grid), s.rm.grids = a ++ g :: b → (∀ x ∈ a ++ b, x.serial ≠ g.serial) →
    let met := fun (d : Nat × DWord × Nat) (n : Nat) => s.depWake g.serial d.1 = some (n, false) ∨
      (s.depWake g.serial d.1 = none ∧ (s.context g.ctx).saving = false ∧ s.hasSaved g.ctx = false ∧
        (∀ e ∈ s.dies, ∀ w ∈ e.2.ctrs.waiters, w.who ≠ .dependence g.serial d.1) ∧
        ∃ r, s.packageHome d.2.1 = some r ∧
          let k := (s.home r).ctr (handleIndex d.2.1)
          k.live = true ∧ k.gen = handleGen d.2.1 ∧ d.2.2 ≤ k.value ∧ n = k.lts)
    (g.started = false → (g.unmet.map (·.1)).Pairwise (· ≠ ·) →
      (g.parent ≠ none ∨ ∀ x ∈ a, x.started = true ∨ x.parent ≠ none ∨ x.queue ≠ g.queue) → ∀ (lts : Nat),
      (∀ d ∈ g.unmet, ∃ n, met d n ∧ n ≤ lts) → g.lts ≤ lts → (lts = g.lts ∨ ∃ d ∈ g.unmet, met d lts) →
      Answers (.gridStart g.serial) s fun t =>
        t.rm.grids = a ++ { g with started := true, unmet := [], lts := lts } :: b ∧ t.rm.queues = s.rm.queues) ∧
    (∀ d ∈ g.unmet, ∀ n, g.started = false → s.depWake g.serial d.1 = some (n, true) →
      (launchOf g.bits).done = 0 → Answers (.gridDependenceStale g.serial) s fun t =>
        t.rm.grids = a ++ b ∧ ∃ e, t.cox.events = s.cox.events ++ [e] ∧ e.kind = 1 ∧
          e.data = bytesOf 8 g.addr ++ bytesOf 8 g.queue ++ bytesOf 8 5) ∧
    (g.started = true → (launchOf g.bits).teams ≤ g.exited → (∀ x ∈ s.rm.grids, x.parent ≠ some g.serial) →
      (∀ e ∈ s.rm.queues, ∀ r ∈ e.2.children, ∀ d, r.source ≠ .child g.serial d) → g.parent = none →
      (g.done = 0 → Answers (.gridRetire g.serial) s fun t => t.rm.grids = a ++ b ∧ t = { s with rm := t.rm }) ∧
      (∀ r, g.done ≠ 0 → s.packageHome g.done = some r → (∀ w ∈ (s.home r).waiters, w.index ≠ handleIndex g.done) →
        handleIndex g.done < 65536 →
        let k := (s.home r).ctr (handleIndex g.done)
        k.live = true → k.gen = handleGen g.done → k.value < 2 ^ 64 - 1 → Answers (.gridRetire g.serial) s fun t =>
          t.rm.grids = a ++ b ∧
          (t.home r).ctr (handleIndex g.done) = { k with value := k.value + 1, lts := max k.lts g.lts }))

/-- `Claim.RecordIntake` and `Claim.GridLife` together; their docstrings name the rules and logs. -/
def Obligations.LaunchAndGrids : Prop := Claim.RecordIntake ∧ Claim.GridLife

/-- R327, R328, R367, R397, R399: the queue and context registers take their fields when the queue is off and empty,
or the context holds no core and no grid; an enabled queue is only turned off; once the interface is locked or
runs, the write is not applied and the interface enters ERROR with an event of kind 13. The layout of the
event's DATA is the model's (log 9), and that a written RES0 bit is dropped is deduced (log 30). -/
def Claim.QueueAndContextRegisters : Prop :=
  ∀ (s : State) (q x : Nat) (w : BitVec 64),
    let v := s.queue q
    let c := s.context x
    let n := w.toNat
    let sets := fun (i : Instr) (c' : Context) => Answers i s fun t =>
      t.context x = c' ∧ (∀ y, y ≠ x → t.context y = s.context y) ∧ t.rm.queues = s.rm.queues ∧ t = { s with rm := t.rm }
    (s.boot.tdi = .unlocked →
      (v.en = true → w.getLsbD 8 = false → Answers (.qcfgWrite q w) s fun t => t.queue q = { v with en := false } ∧
        (∀ k, k ≠ q → t.queue k = s.queue k) ∧ t = { s with rm := t.rm }) ∧
      (v.en = true → w.getLsbD 8 = true → exec (.qcfgWrite q w) s = .next s) ∧
      (v.en = false → v.records = [] → v.children = [] → (∀ g ∈ s.rm.grids, g.queue ≠ q) →
        Answers (.qcfgWrite q w) s fun t => t.queue q =
          { v with path := w.getLsbD 9, en := w.getLsbD 8, ctx := n / 16 % 16, prio := n % 8 } ∧
        (∀ k, k ≠ q → t.queue k = s.queue k) ∧ t = { s with rm := t.rm }) ∧
      ((∀ k ∈ s.cores, k.2.ctx ≠ some x) → (∀ g ∈ s.rm.grids, g.ctx ≠ x) →
        (7 ≤ n % 32 → n % 32 ≤ 24 → sets (.contextRegisterWrite x 0 w)
          { c with pool := n / 2 ^ 16 % 2 ^ 40 * 2 ^ 16, shift := n % 32 }) ∧
        (n % 32 < 7 ∨ 24 < n % 32 → exec (.contextRegisterWrite x 0 w) s = .next s) ∧
        sets (.contextRegisterWrite x 8 w) { c with pcrews := n % 2 ^ 20 } ∧
        sets (.contextRegisterWrite x 16 w) { c with slice := n % 2 ^ 16 } ∧
        sets (.contextTransWrite x 0 w) { c with root := n / 2 ^ 20 % 2 ^ 32, replay := w.getLsbD 1, priv := w.getLsbD 0 } ∧
        sets (.contextTransWrite x 8 w) { c with img := n / 2 ^ 16 % 2 ^ 36 }) ∧
      ((∃ k ∈ s.cores, k.2.ctx = some x) ∨ (∃ g ∈ s.rm.grids, g.ctx = x) → ∀ off,
        exec (.contextRegisterWrite x off w) s = .next s ∧ exec (.contextTransWrite x off w) s = .next s)) ∧
    (s.boot.tdi = .locked ∨ s.boot.tdi = .run → ∀ i off,
      i = .qcfgWrite q w ∨ i = .contextRegisterWrite x off w ∨ i = .contextTransWrite x off w → Answers i s fun t =>
        t.boot = { s.boot with tdi := .error } ∧ t.rm = s.rm ∧ ∃ e, t.cox.events = s.cox.events ++ [e] ∧ e.kind = 13)

/-- R322, R327, R335 to R338: a kick without patches copies its image's nodes into its queue, or waits behind what
waits; when they fit, a waiting kick's nodes join the queue; a triggered window slot's record joins its queue,
or is rejected with code 9, 8 or 7, and its status word shows the code and the sequence number. The layout of
the event's DATA is the model's (log 9), the code of an image that cannot be read is free (log 12), and a kick
waiting on a queue turned off and the counting of rejected triggers are deduced (log 39). -/
def Claim.KicksAndWindows : Prop :=
  ∀ (s : State) (q image nodes : Nat) (w : BitVec 64),
    let v := s.queue q
    let nodeAt := fun (n : Nat) => (⟨BitVec.ofNat 512 (natOf (s.mem.read (image + 64 + 64 * n) 64)), image + 64 + 64 * n, .graph, 0⟩ : LaunchRecord)
    let joins := fun (l : List LaunchRecord) (kicks : List Kick) (t : State) =>
      t.queue q = { v with records := v.records ++ l, arrivals := v.arrivals + l.length, kicks := kicks } ∧
      (∀ k, k ≠ q → t.queue k = s.queue k) ∧ t = { s with rm := t.rm }
    s.boot.tdi = .unlocked →
    (Cells.find s.rm.graphs (w.toNat % 64) = some (image, q) → w.toNat / 64 = 0 → v.path = false → v.en = true → v.kicks = [] →
      1 ≤ nodes → nodes ≤ 4096 → image + 64 + 64 * nodes ≤ dramSize → (∀ l ∈ s.poison, l + 128 ≤ image ∨ image + 64 + 64 * nodes ≤ l) →
      natOf (s.mem.read image 4) = nodes → (∀ j, 4 ≤ j → j < 64 → s.mem.byte (image + j) = 0) →
      (v.records.length + nodes ≤ 256 → Answers (.kick q w) s (joins ((List.range nodes).map nodeAt) [])) ∧
      (256 < v.records.length + nodes → Answers (.kick q w) s fun t =>
        t.queue q = { v with kicks := [⟨w, some ((List.range nodes).map nodeAt)⟩] })) ∧
    (∀ k rest l, v.en = true → v.kicks = k :: rest → k.nodes = some l → v.records.length + l.length ≤ 256 →
      Answers (.kickEnqueue q) s (joins l rest)) ∧
    (∀ k rest l, v.en = true → v.kicks = k :: rest → k.nodes = some l → 256 < v.records.length + l.length →
      exec (.kickEnqueue q) s = .next s) ∧
    ∀ slot (r : BitVec 512), slot < 64 →
      let code := if v.path = false then 9 else if v.en = false then 8 else if 256 < v.records.length + 1 then 7 else 0
      let base := 8192 * q + 128 * slot
      let addr := 2 ^ 41 + 2 ^ 30 + base
      (launchOf r).done = 0 → Answers (.launchWindowTrigger q slot r) s fun t =>
        t.queue q = { v with
          arrivals := v.arrivals + 1
          records := if code = 0 then v.records ++ [⟨r, addr, .window slot, 0⟩] else v.records } ∧
        t.rm.window.read base 64 = bytesOf 64 r.toNat ∧
        t.rm.window.read (base + 64) 8 = bytesOf 4 v.arrivals ++ [BitVec.ofNat 8 code, 0, 0, 0x80] ∧
        (∀ a, a < base ∨ base + 72 ≤ a → t.rm.window.byte a = s.rm.window.byte a) ∧
        (code = 0 → t.cox = s.cox) ∧ (code ≠ 0 → ∃ e, t.cox.events = s.cox.events ++ [e] ∧ e.kind = 1 ∧
          e.data = bytesOf 8 addr ++ bytesOf 8 q ++ bytesOf 8 code)

/-- `Claim.QueueAndContextRegisters` and `Claim.KicksAndWindows` together; their docstrings name the rules and logs. -/
def Obligations.QueuesAndKicks : Prop := Claim.QueueAndContextRegisters ∧ Claim.KicksAndWindows

/-! ## Teams, contexts and cores (R28 to R31, R52 to R55, R71, R76, R193, R234, R255, R307, R326, R329, R331 to R334, R372, R438) -/

/-- R29 to R31, R71, R76, R193, R234, R329, R331, R332, R438: the best grid's next team is placed on the lowest core
that can hold it: its crews get their slots with the generations of the slots' counters, spill-pool areas and
deck, all 64 threads runnable at the entry PC with their %SPILLB, %k1 the parameter, and may issue 41 c later,
or 2,049 c from a gated cluster; a core that last served another context holds none of its bytes. That the trap
registers begin as 0 (log 5), the core's clearing for another context (log 24) and the first fit of the deck
(log 40) are the model's. -/
def Claim.TeamDispatch : Prop :=
  ∀ (s : State) (g : Grid) (core base : Nat) (slots : List Nat),
    let f := launchOf g.bits
    let x := s.context g.ctx
    s.nextRestore = none → s.nextTeam = some g → f.cluster = false → s.fitCore g.need = some core →
    s.fit core g.need = some (slots, base) →
    Answers .teamDispatch s fun t =>
      (∀ i n a, slots[i]? = some n → (s.areasFor g.ctx slots.length)[i]? = some a → ∃ c, t.crew? (32 * core + n) = some c ∧
        c.grid = BitVec.ofNat 32 g.serial ∧ c.team = g.dispatched ∧ c.crew = i ∧ c.nCrew = f.crews ∧ c.nTeam = f.teams ∧
        c.ctx = g.ctx ∧ c.cb = BitVec.ofNat 64 f.cb ∧ c.trapv = f.trapv ∧ c.deckBase = base ∧ c.deckSize = f.deck ∧
        c.nStreams = f.streams ∧ c.area = a ∧ c.fifo = [] ∧ c.threads.length = 64 ∧
        c.ctrs = { CtrHome.reset with
          ctrs := Cells.get [] (if (s.core core).last = some g.ctx then (s.core core).slotCtrs else []) n } ∧
        (∀ l, l < 64 → c.thread l = { Thread.gone with
          pc := f.entry, st := .runnable, spillb := BitVec.ofNat 64 (x.pool + (64 * a + l) * 2 ^ x.shift + 64) }) ∧
        (∀ k, c.kreg k = if k = 1 then f.param else 0) ∧
        c.startAt = s.cycle + if (s.cluster (core / 4)).gated = true then 2049 else 41) ∧
      (∀ k, (∀ n ∈ slots, k ≠ 32 * core + n) → t.crew? k = s.crew? k) ∧
      (t.core core).ctx = some g.ctx ∧ (t.core core).ldet = f.ldet ∧ (t.core core).last = some g.ctx ∧
      ((s.core core).last ≠ some g.ctx → (t.core core).deck = [] ∧ (t.core core).obuf = [] ∧ (t.core core).acc = [] ∧
        (t.core core).records = [] ∧ (t.core core).acttab = [] ∧ (t.core core).gens = [] ∧ (t.core core).ctrs = CtrHome.reset) ∧
      ((s.core core).last = some g.ctx → (t.core core).deck = (s.core core).deck) ∧ (t.cluster (core / 4)).gated = false ∧
      (∀ h, t.grid? h = (s.grid? h).map fun y => if y.serial = g.serial then { y with dispatched := y.dispatched + 1 } else y) ∧
      t.mem = s.mem

/-- R28, R94, R193, R326, R329, R332: a crew that has nothing left is released: its slot and its area are free, and
the exit of a team's last crew is counted; a team that is blocked while another waits for room is parked in its
context's images. What a slot keeps of its counters' generations, and that a parked team gives its deck up, are
deduced (logs 24, 25); that stream and counter operations are to be taken first is the model's choice (log 58). -/
def Claim.TeamEnds : Prop :=
  ∀ (s : State) (slot : Nat) (c : Crew), s.crew? slot = some c →
    (c.threads.all (fun t => t.st == .exited) = true → c.fifo = [] → (∀ k, k < 3 → c.done.getD k 0 = c.issued.getD k 0) →
      (∀ o ∈ c.ctrOps, o.taken = true) → (∀ o ∈ (s.core (coreOf slot)).streamq, o.slot ≠ slot) → c.efault = none →
      (∀ e ∈ s.crews, e.1 ≠ slot → ¬(e.2.grid = c.grid ∧ e.2.team = c.team)) → (∀ v ∈ s.rm.saved, v.ctx ≠ c.ctx) →
      (∀ v ∈ s.rm.saved, ∀ w ∈ v.crews, ¬(w.crew.grid = c.grid ∧ w.crew.team = c.team)) → Answers (.crewRelease slot) s fun t =>
        (∀ k, t.crew? k = if k = slot then none else s.crew? k) ∧ t.rm.areas = s.rm.areas.erase (c.ctx, c.area) ∧
        t.rm.grids = s.rm.grids.map (fun g =>
          if g.serial = c.grid.toNat then { g with lts := max g.lts c.lts, exited := g.exited + 1 } else g) ∧
        ((∀ e ∈ s.crews, e.1 ≠ slot → coreOf e.1 ≠ coreOf slot) → (t.core (coreOf slot)).ctx = none) ∧
        Cells.get [] (t.core (coreOf slot)).slotCtrs (slot % 32) = c.ctrs.ended ∧ t.mem = s.mem) ∧
    (c.threads.any (fun t => t.st != .exited) = true → exec (.crewRelease slot) s = .next s) ∧
    (s.parkable c.grid.toNat c.team = true → (∀ e ∈ s.crews, e.2.grid = c.grid → e.2.team = c.team → e = (slot, c)) →
      s.crews.Pairwise (fun a b => a.1 ≠ b.1) → (∀ v ∈ s.rm.saved, v.ctx ≠ c.ctx) → Answers (.teamPark c.grid.toNat c.team) s fun t => t.crew? slot = none ∧
        (∀ k, k ≠ slot → t.crew? k = s.crew? k) ∧ ∃ v w, t.rm.saved = s.rm.saved ++ [v] ∧ v.parked = true ∧ v.ctx = c.ctx ∧
          v.crews = [w] ∧ w.oldSlot = slot ∧ w.crew.area = c.area ∧ w.crew.regsAs c)

/-- `Claim.TeamDispatch` and `Claim.TeamEnds` together; their docstrings name the rules and logs. -/
def Obligations.TeamPlacement : Prop := Claim.TeamDispatch ∧ Claim.TeamEnds

/-- R52 to R55, R255, R307, R333, R334, R372, R373: a context whose slice has run out is saved, unless its last teams are about
to retire: its cores are asked to stop, a crew that has settled leaves its slot for its image, the last one of a core when its
deck is quiet, the context is free again when every image is complete, and a saved unit comes back to an empty core. A crew that
is about to be released is released and not saved. The times of an image's stores are the model's (log 26),
and which cores are restored together is deduced (log 38). -/
def Claim.ContextSwitches : Prop :=
  ∀ (s : State) (x core slot : Nat) (c : Crew),
    let v := s.context x
    (v.slice ≠ 0 → 256 * v.slice ≤ v.timer → v.saving = false → (∃ k ∈ s.cores, k.2.ctx = some x) →
      (∃ e ∈ s.crews, e.2.ctx = x ∧ s.releasable e.1 e.2 = false) →
      (∀ g ∈ s.rm.grids, g.ctx = x → g.started = false → g.unmet = []) → Answers (.sliceExpiry x) s fun t =>
        t.context x = { v with timer := 0, saving := true } ∧ (∀ y, y ≠ x → t.context y = s.context y) ∧ t = { s with rm := t.rm }) ∧
    (v.timer < 256 * v.slice ∨ (∀ e ∈ s.crews, e.2.ctx = x → s.releasable e.1 e.2 = true) →
      exec (.sliceExpiry x) s = .next s) ∧
    ((s.core core).ctx = some x → v.saving = true → Answers (.preemptCore core) s
      (OneCore s · core { s.core core with preempt := true })) ∧
    (s.crew? slot = some c → (s.core (coreOf slot)).preempt = true → (s.core (coreOf slot)).stopped = true →
      s.releasable slot c = false →
      ((∃ e ∈ s.crews, e.1 ≠ slot ∧ coreOf e.1 = coreOf slot) ∨ s.deckQuiet (coreOf slot) c.ctx = true) →
      s.crewSettled slot c = true → (∀ y ∈ (s.die (dieOf (coreOf slot))).collq, y.slot = slot → y.started = false) →
      (∀ k ∈ s.cores, ∀ b ∈ k.2.beats, b.core ≠ coreOf slot) → Answers (.crewSave slot) s fun t =>
        t.crew? slot = none ∧ (∀ k, k ≠ slot → t.crew? k = s.crew? k) ∧
        (∀ y ∈ (t.die (dieOf (coreOf slot))).collq, y.slot ≠ slot) ∧
        ∃ u ∈ t.rm.saved, ∃ w ∈ u.crews, u.ctx = c.ctx ∧ u.index = coreOf slot ∧ w.oldSlot = slot ∧ w.crew.regsAs c ∧
          w.crew.fifo = c.fifo) ∧
    (s.crew? slot = some c → s.releasable slot c = true → exec (.crewSave slot) s = .next s) ∧
    (v.saving = true → v.saveAdds = [] → (∀ e ∈ s.crews, e.2.ctx ≠ x) →
      ((∀ u ∈ s.rm.saved, u.ctx = x → ∀ w ∈ u.crews, ∀ e ∈ w.crew.fifo, e.sent = false) →
        Answers (.imageComplete x) s fun t => t.context x = { v with saving := false } ∧ t = { s with rm := t.rm }) ∧
      ((∃ u ∈ s.rm.saved, u.ctx = x ∧ ∃ w ∈ u.crews, ∃ e ∈ w.crew.fifo, e.sent = true) →
        exec (.imageComplete x) s = .next s)) ∧
    ∀ u w, s.nextRestore = some [(u, core)] → u.crews = [w] → (∀ e ∈ s.crews, coreOf e.1 ≠ core) →
      Answers .teamRestore s fun t => t.rm.saved = s.rm.saved.erase u ∧ (t.core core).ctx = some u.ctx ∧
        ∃ c', t.crew? (32 * core) = some c' ∧ c'.grid = w.crew.grid ∧ c'.team = w.crew.team ∧ c'.crew = w.crew.crew ∧
          c'.startAt = s.cycle

/-- R76, R234, R258, R438: a core that is to pass to another context, 2,048 c after its last crew, holds nothing of
the old context; a cluster idle for 65,536 c is gated. When the clearing is seen is deduced (log 24). -/
def Claim.ClearingAndGating : Prop :=
  ∀ (s : State) (n x : Nat),
    let k := s.core n
    let v := s.cluster n
    (k.last = some x → (∀ e ∈ s.crews, coreOf e.1 ≠ n) → k.freeAt ≤ s.cycle → s.passesFrom x n = true →
      Answers (.coreContextClear n) s (OneCore s · n { k with
        last := none, deck := [], obuf := [], acc := [], badDeck := [], badObuf := [], badAcc := [], records := []
        acttab := [], ctrs := CtrHome.reset, slotCtrs := [], allocs := [], gens := [], placed := [] })) ∧
    (s.cycle < k.freeAt → exec (.coreContextClear n) s = .next s) ∧
    ((∀ e ∈ s.crews, coreOf e.1 / 4 ≠ n) → v.gated = false → v.idleSince + 65536 ≤ s.cycle →
      Answers (.clusterPowerGate n) s fun t => t.cluster n = { v with gated := true } ∧
        (∀ m, m ≠ n → t.cluster m = s.cluster m) ∧ t = { s with clusters := t.clusters }) ∧
    (s.cycle < v.idleSince + 65536 → exec (.clusterPowerGate n) s = .next s)

/-- `Claim.ContextSwitches` and `Claim.ClearingAndGating` together; their docstrings name the rules and logs. -/
def Obligations.ContextSaving : Prop := Claim.ContextSwitches ∧ Claim.ClearingAndGating

/-! ## The host and its links (R7, R8, R95, R341, R343 to R355, R384, R398) -/

/-- R8, R74, R87, R95, R279, R341, R344, R347, R348, R384, R398: with the interface unlocked, the host reads and adds to package
and system counters with a generation check, an overflow counter's add 220 c later, reads and writes device memory byte by byte
with its poison indication, a write taking place after the leases of its lines, flushes once its earlier writes are performed,
posts calls, and writes registers; from the lock on it reads 0 and its writes are dropped. Which accesses carry the T bit, and what a window answers before the epoch, are deduced (logs 29, 37). -/
def Obligations.HostAccesses : Prop :=
  ∀ (s : State) (die i : Nat) (w : BitVec 64) (a n : Nat) (data : List Byte),
    let k := (s.die die).ctrs.ctr i
    let replies := fun (x : Egress) (t : State) => t.egress = s.egress ++ [x]
    let noted := fun (kind : Nat) (t : State) => ∃ e, t.cox.events = s.cox.events ++ [e] ∧ e.kind = kind
    let quiet := fun (t : State) => t = { s with egress := t.egress }
    let reach := k.scope = 4 ∨ k.scope = 5
    (s.boot.tdi = .unlocked →
      (reach → Answers (.counterWindowReadValue die i) s fun t => replies (.reply 203 (BitVec.ofNat 64 k.value)) t ∧ quiet t) ∧
      (¬reach → Answers (.counterWindowReadValue die i) s fun t => replies (.reply 203 0) t ∧ noted 9 t) ∧
      (Answers (.counterWindowReadStatus die i) s fun t => quiet t ∧
        replies (.reply 203 (BitVec.ofNat 64 ((if k.live = true then 2 ^ 31 else 0) + k.scope % 8 * 2 ^ 28 + k.gen))) t) ∧
      (let inc := w.toNat % 2 ^ 32
       let good := k.live = true ∧ reach ∧ w.toNat / 2 ^ 32 % 2 ^ 24 = k.gen ∧ w.toNat / 2 ^ 56 = 0
       (good → i < 65536 → k.value + inc < 2 ^ 64 → (∀ x ∈ (s.die die).ctrs.waiters, x.index ≠ i) →
          Answers (.counterWindowAdd die i w) s fun t =>
            (t.die die).ctrs.ctr i = { k with value := k.value + inc, lts := max k.lts s.links.hostTime } ∧
            (∀ d, d ≠ die → t.die d = s.die d) ∧ t = { s with dies := t.dies }) ∧
       (good → 65536 ≤ i → i < 2 ^ 24 → Answers (.counterWindowAdd die i w) s fun t =>
          t.die die = { s.die die with overflow := (s.die die).overflow ++
            [⟨.add (.logged 203 0xFF) (s.dieHandle die i) inc s.links.hostTime, s.cycle + 220⟩] } ∧
          (∀ d, d ≠ die → t.die d = s.die d) ∧ t = { s with dies := t.dies }) ∧
       (¬good → Answers (.counterWindowAdd die i w) s fun t => noted 16 t ∧ t = { s with cox := t.cox })) ∧
      (a + n ≤ 2 ^ 41 → Answers (.hostMemRead a n) s fun t => ∃ bad,
        replies (.data 204 (s.mem.read a n) bad) t ∧ LinesMove s { t with egress := s.egress } ∧
        (bad = true ↔ 0 < n ∧ ∃ l, (l * 128 ∈ s.poison ∨ s.inOverflow (l * 128) = true) ∧
          l * 128 < a + n ∧ a < l * 128 + 128)) ∧
      (a + data.length ≤ 2 ^ 41 → (∀ b, a ≤ b → b < a + data.length → s.inOverflow b = false) →
        Answers (.hostMemWrite a data) s fun t =>
        (∀ b, t.mem.byte b = if a ≤ b ∧ b < a + data.length then data.getD (b - a) 0 else s.mem.byte b) ∧
        (∀ b, a ≤ b → b < a + data.length → (s.line (b / 128 * 128)).rts < (t.line (b / 128 * 128)).wts) ∧
        (∀ e l, l + 128 ≤ a ∨ a + data.length ≤ l →
          ((t.slice e).line l).wts = ((s.slice e).line l).wts ∧ ((t.slice e).line l).rts = ((s.slice e).line l).rts) ∧
        (∀ d, t.die d = { s.die d with llc := (t.die d).llc, llcDirty := (t.die d).llcDirty }) ∧
        ((∀ e l, hostBase ≤ l → ((s.slice e).line l).dirty = false) → t.hostMem = s.hostMem) ∧
        t = { s with mem := t.mem, slices := t.slices, dies := t.dies, hostMem := t.hostMem, links := t.links } ∧
        t.links = { s.links with hostTime := t.links.hostTime } ∧ s.links.hostTime ≤ t.links.hostTime) ∧
      (s.writesWaiting 204 = false →
        Answers .cxlflush s fun t => replies (.data 204 (List.replicate 8 0) false) t ∧ quiet t) ∧
      (w.toNat / 2 ^ 56 = 0 → s.cox.hostq.length < 64 → Answers (.hcall w) s fun t =>
        t.cox = { s.cox with hostq := s.cox.hostq ++
          [⟨w.toNat % 64, BitVec.ofNat 64 (w.toNat / 64 % 2 ^ 50 * 64), none, s.nextId⟩] } ∧
        t = { s with cox := t.cox, nextId := s.nextId + 1 }) ∧
      (w.toNat / 2 ^ 56 = 0 → 64 ≤ s.cox.hostq.length → Answers (.hcall w) s fun t =>
        t = { s with cox := { s.cox with drops := min 0xFFFF (s.cox.drops + 1) } }) ∧
      (w.toNat / 2 ^ 56 ≠ 0 → Answers (.hcall w) s fun t => noted 9 t ∧ t = { s with cox := t.cox }) ∧
      (s.boot.stage = 0 → s.boot.lockstep = false →
        (Answers (.registerWrite 0x200018 w) s fun t => t = { s with cox := { s.cox with tail := w.toNat % 2 ^ 32 } }) ∧
        exec (.registerWrite 0x200008 w) s = .next s ∧ exec (.registerWrite 0x200010 w) s = .next s ∧
        ∀ off, 0x500000 ≤ off → Answers (.registerWrite off w) s fun t => noted 9 t ∧ t = { s with cox := t.cox })) ∧
    (s.boot.tdi ≠ .unlocked →
      (Answers (.counterWindowReadValue die i) s fun t => replies (.reply 203 0) t ∧ noted 9 t) ∧
      (Answers (.counterWindowAdd die i w) s fun t => noted 9 t ∧ t = { s with cox := t.cox }) ∧
      (Answers (.hostMemRead a n) s fun t => replies (.data 204 (List.replicate n 0) true) t ∧ quiet t) ∧
      exec (.hostMemWrite a data) s = .next s ∧
      (Answers (.hcall w) s fun t => noted 9 t ∧ t = { s with cox := t.cox })) ∧
    (s.writesWaiting 203 = false → Answers .pflush s fun t => replies (.reply 203 0) t ∧ quiet t) ∧
    (s.writesWaiting 203 = true → exec .pflush s = .next s) ∧ (s.writesWaiting 204 = true → exec .cxlflush s = .next s)

/-- R290, R350, R351: a snoop of a host line that no miss has outstanding and that no atomic holds and no earlier device request
waits for: a line that is not present misses; a clean one answers its state, a dirty one its bytes. SnpCur changes nothing,
SnpData writes the line back and shares it, SnpInv writes it back and drops it. A line that a flush buffer or a slice which its
bucket has left still holds is answered from there. Behind an own request that is outstanding the snoop waits in the miss-status
entry; behind an atomic or an earlier request it waits. The answer of a clean line and the line's address
form are deduced (logs 39, 37). -/
def Claim.HostSnoops : Prop :=
  ∀ (s : State) (hpa : Nat),
    let line := (hostBase + hpa) / 128 * 128
    let e := s.homeSlice line
    let v := s.slice e
    let m := v.line line
    let answer : Egress := if m.present = false then .snoopMiss else if m.dirty = true then .snoopBytes m.data else .snoopState
    let moves := fun (i : Instr) (after : LineMeta → Prop) (back : Bool) => Answers i s fun t =>
      t.egress = s.egress ++ [answer] ∧ after ((t.slice e).line line) ∧
      (∀ a, a ≠ line → (t.slice e).line a = v.line a) ∧ (∀ n, n ≠ e → t.slice n = s.slice n) ∧
      (∀ a, t.hostMem.byte a =
        if back = true ∧ m.dirty = true ∧ line - hostBase ≤ a ∧ a < line - hostBase + m.data.length then
          m.data.getD (a - (line - hostBase)) 0
        else s.hostMem.byte a) ∧
      t = { s with egress := t.egress, slices := t.slices, hostMem := t.hostMem }
    let kinds : List (Instr × SnoopKind) := [(.snpcur hpa, .cur), (.snpdata hpa, .data), (.snpinv hpa, .inv)]
    (∀ l, Cells.find v.mshr line = some l → ∀ k ∈ kinds, Answers k.1 s fun t =>
      (∃ q, q.line = line ∧ q.kind = .snoop k.2 ∧ q.cxl = true ∧
        t.slice e = { v with mshr := Cells.put v.mshr line (l ++ [q]) }) ∧
      (∀ n, n ≠ e → t.slice n = s.slice n) ∧ t = { s with slices := t.slices, nextId := t.nextId }) ∧
    (Cells.find v.mshr line = none → (∃ x ∈ v.serving, x.req.line = line) ∨ (∃ q ∈ v.ingress, q.line = line ∧ q.cxl = true) →
      ∀ k ∈ kinds, exec k.1 s = .next s) ∧
    ((∀ x ∈ v.serving, x.req.line ≠ line) → (∀ q ∈ v.ingress, q.line = line → q.cxl = false) → Cells.find v.mshr line = none →
      (m.present = false → (∀ x ∈ s.slices, Cells.find x.2.flush line = none ∧ (x.2.line line).present = false) →
        ∀ k ∈ kinds, moves k.1 (· = m) false) ∧
      (m.present = false → ∀ n data dirty, s.heldBefore line = some (n, data, dirty) → ∀ k ∈ kinds, Answers k.1 s fun t =>
        t.egress = s.egress ++ [if dirty = true then .snoopBytes data else .snoopState] ∧
        (k.2 = .cur → t = { s with egress := t.egress }) ∧
        (k.2 ≠ .cur → Cells.find (t.slice n).flush line = none ∧ ((t.slice n).line line).present = false ∧
          (∀ a, a ≠ line → (t.slice n).line a = (s.slice n).line a) ∧ (∀ p, p ≠ n → t.slice p = s.slice p) ∧
          (∀ a, t.hostMem.byte a = if dirty = true ∧ line - hostBase ≤ a ∧ a < line - hostBase + data.length then
            data.getD (a - (line - hostBase)) 0 else s.hostMem.byte a) ∧
          t = { s with egress := t.egress, slices := t.slices, hostMem := t.hostMem })) ∧
      (m.present = true →
        moves (.snpcur hpa) (· = m) false ∧
        moves (.snpdata hpa) (· = { m with dirty := false, exclusive := false }) true ∧
        moves (.snpinv hpa) (fun x => x.present = false ∧ x.dirty = false ∧ x.wts = m.wts ∧ x.rts = m.rts) true))

/-- R215, R339, R343, R345, R346, R352 to R355: a completion answers the load or flush that waits for it, and the flush of a
FENCE ends the leases got before it; one with an error status, or lost for the timeout, poisons the load; a link's loss sets its
latch, answers what is outstanding with LINKDOWN and raises an event of kind 8; that of the CXL link drops every host line, the
dirty ones logged where the log has room and counted in SLOST where not; training sets the link up at a generation of its table;
a latch clears when its link is up. The layout of the event's DATA is the model's (log 9), and the fate of a failed flush read
and of the flush buffer is deduced (logs 33, 34). -/
def Claim.HostLinks : Prop :=
  ∀ (s : State) (id gen : Nat) (q : PcieReq) (a b : List PcieReq) (data : List Byte) (x8 : Bool) (w : BitVec 64),
    let taken := fun (t : State) => t.links = { s.links with pcie := a ++ b }
    let sends := fun (m : Msg) (t : State) => Cells.find t.msgs s.nextId = some m
    let l := s.links
    (l.pcie = a ++ q :: b → (∀ x ∈ a ++ b, x.id ≠ id) → q.id = id →
      (q.kind = .load →
        (Answers (.pcieCompletion id true data) s fun t => taken t ∧ sends (.load q.slot q.item (.bytes data)) t) ∧
        (Answers (.pcieCompletion id false data) s fun t => taken t ∧ sends (.load q.slot q.item .poison) t) ∧
        (q.sentAt + l.timeout ≤ s.cycle →
          Answers (.completionTimeout id) s fun t => taken t ∧ sends (.load q.slot q.item .poison) t)) ∧
      (s.cycle < q.sentAt + l.timeout → exec (.completionTimeout id) s = .next s) ∧
      (q.kind = .fence → ∀ c, s.crew? q.slot = some c → Answers (.pcieCompletion id true data) s fun t => taken t ∧
        t.crew? q.slot = some { c with lts := max c.lts (s.largestLease (coreOf q.slot) + 1) } ∧
        (∀ k, k ≠ q.slot → t.crew? k = s.crew? k) ∧ t = { s with links := t.links, crews := t.crews })) ∧
    (s.rpl.active = false →
      (l.pup = true ∨ l.pld = false → (∀ x ∈ l.pcie, x.kind = .load) → s.boot.tdi = .unlocked →
        Answers (.linkDown false) s fun t =>
          t.links.pup = false ∧ t.links.pld = true ∧ t.links.pcie = [] ∧ t.links.cup = l.cup ∧ t.links.cld = l.cld ∧
          (∀ x ∈ l.pcie, ∃ m ∈ t.msgs, m.2 = .load x.slot x.item .linkdown) ∧
          (∃ e, t.cox.events = s.cox.events ++ [e] ∧ e.kind = 8) ∧
          ((∀ e ∈ s.crews, e.2.fifo = []) → s.rm.saved = [] → ∀ n, (t.slice n).lines = (s.slice n).lines)) ∧
      (l.cup = true ∨ l.cld = false → Answers (.linkDown true) s fun t =>
        t.links.cup = false ∧ t.links.cld = true ∧ t.links.pup = l.pup ∧ t.links.pld = l.pld ∧
        (∃ e, t.cox.events = s.cox.events ++ [e] ∧ e.kind = 8) ∧
        (∀ n x, hostBase ≤ x → ((t.slice n).line x).present = false) ∧ (∀ n, (t.slice n).flush = []) ∧
        (∀ x ∈ s.poison, x < hostBase → x ∈ t.poison) ∧
        (∀ e ∈ s.slices, ∀ x ∈ e.2.ingress, hostBase ≤ x.line → x.cxl = true → ∀ slot item proxy,
          x.kind = .load slot item proxy → ∃ m ∈ t.msgs, m.2 = .load slot item .linkdown) ∧
        (∀ e ∈ t.slices, ∀ x ∈ e.2.ingress, hostBase ≤ x.line → x.cxl = false) ∧
        ((∀ e ∈ s.crews, e.2.fifo = []) → s.rm.saved = [] → ∀ x d, (s.slices.map fun e => e.2.dirtyHost).flatten = [(x, d)] →
          d.length = 128 →
          let at' := s.cox.slogBase + 256 * s.cox.slogUsed
          (256 * (s.cox.slogUsed + 1) ≤ s.cox.slogSize → at' + 256 ≤ dramSize →
            t.mem.read at' 32 = bytesOf 8 (x - hostBase) ++ bytesOf 8 s.cycle ++ List.replicate 16 0xFF ∧
            t.mem.read (at' + 36) 28 = 0 :: 1 :: List.replicate 26 0 ∧ t.mem.read (at' + 64) 128 = d ∧
            t.mem.read (at' + 192) 64 = List.replicate 64 0 ∧
            (∀ b, b < at' ∨ at' + 256 ≤ b → t.mem.byte b = s.mem.byte b) ∧
            t.cox.slogUsed = s.cox.slogUsed + 1 ∧ t.links.scount = (l.scount + 1) % 2 ^ 16 ∧ t.links.slost = l.slost) ∧
          (s.cox.slogSize < 256 * (s.cox.slogUsed + 1) →
            t.mem = s.mem ∧ t.links.slost = min 0xFFFF (l.slost + 1) ∧ t.links.scount = l.scount))) ∧
      (gen = 4 ∨ gen = 5 ∨ gen = 6 → Answers (.linkUp false gen x8) s fun t =>
        t = { s with links := { l with pup := true, pgen := gen, pwid := if x8 = true then 1 else 0 } }) ∧
      (¬(gen = 4 ∨ gen = 5 ∨ gen = 6) → exec (.linkUp false gen x8) s = .next s) ∧
      (gen = 2 ∨ gen = 3 → Answers (.linkUp true gen x8) s fun t =>
        t = { s with links := { l with cup := true, cgen := gen, cwid := if x8 = true then 1 else 0 } }) ∧
      (¬(gen = 2 ∨ gen = 3) → exec (.linkUp true gen x8) s = .next s)) ∧
    Answers (.linkstatClear w) s fun t => t = { s with links := { l with
      pld := l.pld && !(w.getLsbD 0 && l.pup), cld := l.cld && !(w.getLsbD 1 && l.cup) } }

/-- `Claim.HostSnoops` and `Claim.HostLinks` together; their docstrings name the rules and logs. -/
def Obligations.HostLinksAndSnoops : Prop := Claim.HostSnoops ∧ Claim.HostLinks

/-! ## Boot and reset, the trusted interface (R391 to R402, R406) -/

/-- R342, R391 to R394, R398, R400, R406, R408, R437: the boot stage that IDENT shows as running ends, and the next begins, or boot
stops at it with an event: stage 2 accepts the first slot whose image meets R392, and recovery mode is entered when neither does;
stage 3 takes measurement 2; stage 4 scrubs; after stage 6 the epoch is set. A staged image is verified in recovery mode while
RVERIFY reads 1. PERST#, the loss of power and a warm reset take every unit to its reset value; the epoch is the first multiple
of 28,311,552 c, with every cache empty and every logical time 0. The acceptance of an image rests on uninterpreted functions
(log 8); the time of a stage, when stages other than 2 fail, and the epoch's multiple counted from the boot's end are the model's
(log 27), and what the epoch leaves is deduced (log 31). -/
def Obligations.BootAndReset : Prop :=
  ∀ (s : State) (slotA slotB : List Byte) (svn : Nat),
    let accepted := fun (b : List Byte) =>
      let part := fun (off n : Nat) => (b.drop off).take n
      part 0 4 = [0x57, 0x46, 0x5A, 0x48] ∧ natOf (part 12 4) ≤ 2 ^ 26 ∧ 512 + natOf (part 12 4) ≤ b.length ∧
      (∀ i, 344 ≤ i → i < 512 → b.getD i 0 = 0) ∧ s.boot.minSvn ≤ natOf (part 8 4) ∧
      (∃ n < 4, Config.keyHash n = Config.sha512 (part 80 132) ∧ Config.keyRevoked n = false) ∧ bytesOf 64 (Config.sha512 (part 512 (natOf (part 12 4)))).toNat = part 16 64 ∧
      Config.ecdsaVerifies (part 80 132) (Config.sha512 (part 0 212)) (part 212 132) = true
    let boots := fun (b : List Byte) (t : State) => t = { s with boot := { s.boot with
      stage := 0x83, recov := false, rverify := false, image := b
      fwVersion := natOf ((b.drop 4).take 4), fwSvn := natOf ((b.drop 8).take 4) } }
    let noted := fun (source kind : Nat) (t : State) => ∃ e, t.cox.events = s.cox.events ++ [e] ∧ e.source = source ∧ e.kind = kind
    let recovers := fun (t : State) => t.boot = { s.boot with stage := 0x02, recov := true } ∧ noted 202 12 t ∧
      t = { s with boot := t.boot, rpl := { s.rpl with xmode := 3 }, cox := t.cox }
    let goOn : Instr := .resetRelease slotA slotB
    let s1 := { s with fresh := s.fresh + 1 }
    let stage := fun (n : Nat) (ends : State → Prop) =>
      s.boot.stage.toNat = 0x80 + n → s.boot.thermtrip = false → s.boot.lockstep = false →
        (Config.stageFails s.fresh = true → Answers goOn s fun t =>
          t.boot = { s.boot with stage := BitVec.ofNat 8 n } ∧ noted 202 12 t ∧ t = { s1 with boot := t.boot, cox := t.cox }) ∧
        (Config.stageFails s.fresh = false → Answers goOn s ends)
    let fresh := fun (t : State) => t = { State.reset with
      fresh := s.fresh, agenda := s.agenda, egress := s.egress, nextId := s.nextId, hostMem := s.hostMem, images := s.images
      boot := { Boot.reset with minSvn := s.boot.minSvn }, cox := { Coxswain.reset with flash := s.cox.flash } }
    stage 1 (fun t => t = { s1 with boot := { s.boot with stage := 0x82 } }) ∧
    (s.boot.stage = 0x82 → s.boot.thermtrip = false → s.boot.lockstep = false → Answers goOn s fun t =>
      (s.boot.recov = false → accepted slotA → boots slotA t) ∧
      (s.boot.recov = false → ¬accepted slotA → accepted slotB → boots slotB t) ∧
      (s.boot.recov = true ∨ (¬accepted slotA ∧ ¬accepted slotB) → recovers t)) ∧
    stage 3 (fun t => t = { s1 with boot := { s.boot with
      stage := 0x84, image := [], meas2 := Config.sha512 (s.boot.image.take (512 + natOf ((s.boot.image.drop 12).take 4))) } }) ∧
    stage 4 (fun t => t.boot = { s.boot with stage := 0x85 } ∧ (∀ a, t.mem.byte a = 0) ∧ t.poison = [] ∧ t.crews = [] ∧
      t.cores = [] ∧ t.clusters = [] ∧ t.dies = [] ∧ t.slices = [] ∧ t.rm = Ringmaster.reset ∧ t.cox = s.cox) ∧
    stage 5 (fun t => t = { s1 with boot := { s.boot with stage := 0x86 } }) ∧
    stage 6 (fun t => t.boot = { s.boot with stage := 0 } ∧ noted 202 12 t ∧
      t.rpl = { s.rpl with epochAt := some ((s.cycle / 28311552 + 1) * 28311552) } ∧
      t = { s1 with boot := t.boot, rpl := t.rpl, cox := t.cox }) ∧
    (s.boot.thermtrip = true ∨ s.boot.lockstep = true ∨ s.boot.stage.toNat < 0x81 → exec goOn s = .next s) ∧
    (s.boot.recov = true → s.boot.stage = 0x02 →
      (s.boot.rverify = false → Answers .rverify s fun t => t = { s with boot := { s.boot with rverify := true } }) ∧
      (s.boot.rverify = true → Answers .rverify s fun t => (accepted s.links.staging → boots s.links.staging t) ∧
        (¬accepted s.links.staging → t = { s with boot := { s.boot with rverify := false } }))) ∧
    (s.boot.recov = false ∨ s.boot.stage ≠ 0x02 → exec .rverify s = .next s) ∧
    (s.boot.thermtrip = false → Answers .perstAssert s fresh) ∧ (s.boot.thermtrip = true → exec .perstAssert s = .next s) ∧
    Answers .powerLoss s fresh ∧
    (s.boot.tdi = .unlocked → Answers .wrst s fun t => ∃ u, fresh u ∧
      t = { u with boot := { u.boot with recov := true }, rpl := { u.rpl with xmode := 3 } }) ∧
    (s.boot.tdi ≠ .unlocked → Answers .wrst s fun t => noted 203 9 t ∧ t = { s with cox := t.cox }) ∧
    (Answers .lockstepMismatch s fun t => t = { s with boot := { s.boot with stage := 0xFF, lockstep := true } }) ∧
    (Answers (.fusedMinimumRaise svn) s fun t => t = { s with boot := { s.boot with minSvn := max s.boot.minSvn svn } }) ∧
    ∀ e, s.rpl.epochAt = some e →
      (s.cycle < e → exec .epoch s = .next s) ∧
      (e ≤ s.cycle → s.rpl.mode ≠ 1 → Answers .epoch s fun t =>
        t.rpl.epoch = e ∧ t.rpl.epochAt = none ∧ t.rpl.curMode = s.rpl.mode ∧ t.rpl.curLogres = s.rpl.logres ∧
        (t.rpl.active = true ↔ s.rpl.mode ≠ 0) ∧ t.rpl.head = 0 ∧ t.mem = s.mem ∧
        t.crews = s.crews.map (fun c => (c.1, { c.2 with lts := 0 })) ∧ t.links.hostTime = 0 ∧
        (∀ n, (t.slice n).lines = [] ∧ (t.slice n).copies = [] ∧ (t.slice n).ways = Ways.reset ∧ (t.die n).tlb = Tlb.reset ∧
          (t.die n).llc = Ways.reset ∧ (t.core n).l1 = [] ∧ (t.core n).l1ways = Ways.reset ∧
          (t.core n).icache = [] ∧ (t.core n).tlb = Tlb.reset ∧ (t.core n).deck = (s.core n).deck))

/-- R394 to R401: what SPDM asks is answered and an IDE stream is keyed inside a session; the interface locks when
it is unlocked with a stream keyed, runs with the lock's nonce, fails on an IDE failure or a function reset, and
is unlocked by the scrub; each change has an event of kind 13; any other request is answered with an error and
changes nothing. The layouts of the answers and of the event's DATA are the model's (logs 42, 9). -/
def Obligations.TrustedInterface : Prop :=
  ∀ (s : State) (nonce : BitVec 256) (n : Nat),
    let replies := fun (x : Egress) (t : State) => t.egress = s.egress ++ [x]
    let refused := fun (i : Instr) => Answers i s fun t => replies (.tdisp false s.boot.tdi) t ∧ t = { s with egress := t.egress }
    let noted := fun (t : State) => ∃ e, t.cox.events = s.cox.events ++ [e] ∧ e.kind = 13 ∧ e.source = 202
    let failed := fun (b : Boot) (t : State) => t.boot = { b with tdi := .error } ∧ noted t ∧ t = { s with boot := t.boot, cox := t.cox }
    let spdm := fun (r : SpdmRequest) (b : Boot) => Answers (.spdmRequest r) s fun t => (∃ l, replies (.spdm l) t) ∧ t.boot = b ∧
      t = { s with egress := t.egress, boot := t.boot, fresh := t.fresh }
    (spdm .getCapabilities s.boot ∧ spdm (.getCertificate n) s.boot ∧ spdm .keyExchange { s.boot with session := true } ∧
      spdm .endSession { s.boot with session := false }) ∧
    (n = 2 → Answers (.spdmRequest (.getMeasurement n)) s fun t => replies (.spdm (bytesOf 64 s.boot.meas2.toNat)) t ∧ t = { s with egress := t.egress }) ∧
    (n = 5 → Answers (.spdmRequest (.getMeasurement n)) s fun t => replies (.spdm (bytesOf 64 s.boot.meas5.toNat)) t ∧ t = { s with egress := t.egress }) ∧
    (Answers (.spdmRequest (.challenge nonce)) s fun t =>
      replies (.spdm (Config.leafSign s.boot.meas2 (Config.sha512 (bytesOf 32 nonce.toNat ++ s.measurements)))) t ∧ t = { s with egress := t.egress }) ∧
    (s.boot.session = true → n < 4 → n ∉ s.boot.ide → Answers (.spdmRequest (.keyIdeStream n)) s fun t =>
      t = { s with boot := { s.boot with ide := s.boot.ide ++ [n] } }) ∧
    (s.boot.session = true → s.boot.tdi = .unlocked → s.boot.ide ≠ [] → Answers (.lockInterfaceRequest nonce) s fun t =>
      t.boot = { s.boot with tdi := .locked, nonce := nonce, meas5 := Config.sha512 s.frozenSet } ∧ replies (.tdisp true .locked) t ∧ noted t ∧
      t = { s with boot := t.boot, cox := t.cox, egress := t.egress }) ∧
    (s.boot.session = false ∨ s.boot.tdi ≠ .unlocked ∨ s.boot.ide = [] → refused (.lockInterfaceRequest nonce)) ∧
    (s.boot.session = true → s.boot.tdi = .locked → nonce = s.boot.nonce → Answers (.startInterfaceRequest nonce) s fun t =>
      t.boot = { s.boot with tdi := .run } ∧ replies (.tdisp true .run) t ∧ noted t ∧
      t = { s with boot := t.boot, cox := t.cox, egress := t.egress }) ∧
    (s.boot.session = false ∨ s.boot.tdi ≠ .locked ∨ nonce ≠ s.boot.nonce → refused (.startInterfaceRequest nonce)) ∧
    (s.boot.session = true → Answers .stopInterfaceRequest s fun t =>
      t.boot = { s.boot with tdi := .unlocked, meas5 := 0, nonce := 0 } ∧ replies (.tdisp true .unlocked) t ∧
      (∀ a, t.mem.byte a = 0) ∧ t.poison = [] ∧ t.crews = [] ∧ t.cores = [] ∧ t.clusters = [] ∧ t.dies = [] ∧ t.slices = [] ∧
      t.msgs = [] ∧ t.rm = Ringmaster.reset ∧ (∃ e, t.cox.events = [e] ∧ e.kind = 13) ∧
      t.cox = { Coxswain.reset with flash := s.cox.flash, events := t.cox.events, stamps := t.cox.stamps } ∧
      t.hostMem = s.hostMem ∧ t.rpl = s.rpl ∧ t.fleet = s.fleet) ∧
    (s.boot.session = false → refused .stopInterfaceRequest ∧ refused .getDeviceInterfaceReport) ∧
    (s.boot.session = true → Answers .getDeviceInterfaceReport s fun t => (∃ l, l.length = 96 ∧
      replies (.spdm (l ++ bytesOf 64 s.boot.meas5.toNat ++ bytesOf 4 s.boot.fwSvn ++ bytesOf 2 s.cox.moduleNo)) t) ∧ t = { s with egress := t.egress }) ∧
    (n ∈ s.boot.ide → (s.boot.tdi = .locked ∨ s.boot.tdi = .run) →
      Answers (.ideFailure n) s (failed { s.boot with ide := s.boot.ide.erase n })) ∧
    (n ∈ s.boot.ide → (s.boot.tdi = .unlocked ∨ s.boot.tdi = .error) → Answers (.ideFailure n) s fun t =>
      t = { s with boot := { s.boot with ide := s.boot.ide.erase n } }) ∧
    (s.boot.tdi = .locked ∨ s.boot.tdi = .run → Answers .flr s (failed s.boot)) ∧
    (s.boot.tdi = .unlocked ∨ s.boot.tdi = .error → exec .flr s = .next s)

/-! ## Turnstiles, the replay log, freezing, scan images, alignment (R398, R407 to R421) -/

/-- R96, R350, R355, R397, R407, R409, R412, R413, R416: a Turnstile stamps an arrival with a cycle that its source and the log's order
have free and queues it, in record mode with a record in the log; nothing is admitted while the package is
frozen, nor in replay; an arrival is presented 32 c after its stamp, a write to the replay block 33 c, with the effect of its access; a peer's add, read or wait
on a counter homed here is answered. The
payload's layout in the log is the model's (log 45), and the choice of the stamp is deduced (log 36). -/
def Obligations.Arrivals : Prop :=
  ∀ (s : State) (source : Nat) (x : Access) (a : Arrival) (rest : List Arrival),
    let live := s.rpl.frozen = false ∧ s.fleet.clockStopped = false ∧ s.boot.lockstep = false
    let later := fun (c : Nat) => s.cycle ≤ c ∧ (s.rpl.stamped.1 < c ∨ s.rpl.stamped.1 = c ∧ s.rpl.stamped.2 < source)
    let own := replayBlock x
    let queued := fun (t : State) => ∃ c, later c ∧ (∀ d, later d → c ≤ d) ∧
      t.rpl.arrivals = s.rpl.arrivals ++ [⟨source, x, c⟩] ∧ t.rpl.stamped = (c, source)
    (live → s.rpl.active = false → Answers (.arrivalAdmit source x) s fun t => queued t ∧
      t = { s with rpl := { s.rpl with arrivals := t.rpl.arrivals, stamped := t.rpl.stamped } }) ∧
    (live → s.recording = true → own = false →
      let l := accessPayload x
      let size := 16 + (l.length + 15) / 16 * 16
      let at' := s.rpl.base * 2 ^ 30 + s.rpl.head
      s.rpl.head + size < 2 ^ 34 → at' + size ≤ dramSize → Answers (.arrivalAdmit source x) s fun t => queued t ∧
        t.rpl.head = s.rpl.head + size ∧ t.mem.read (at' + 8) 4 = [BitVec.ofNat 8 source, 0] ++ bytesOf 2 l.length ∧
        t.mem.read at' 8 = bytesOf 8 (t.rpl.stamped.1 - s.rpl.epoch) ∧ t.mem.read (at' + 16) l.length = l ∧
        ∀ b, b < at' ∨ at' + size ≤ b → t.mem.byte b = s.mem.byte b) ∧
    (s.rpl.frozen = true → bootServed x = false → exec (.arrivalAdmit source x) s = .next s) ∧
    (live → s.replaying = true → own = false → exec (.arrivalAdmit source x) s = .next s) ∧
    (s.rpl.arrivals = a :: rest → s.rpl.frozen = false → s.fleet.clockStopped = false →
      let due := a.cycle + if (match a.access with | .bar0Write _ _ _ => replayBlock a.access | _ => false) = true then 33 else 32
      (s.cycle < due → exec .arrivalPresent s = .next s) ∧
      (due ≤ s.cycle →
        let s1 := { s with rpl := { s.rpl with arrivals := rest } }
        let as := fun (i : Instr) => exec .arrivalPresent s = exec i s1
        (s.boot.stage = 0 → s.boot.lockstep = false →
          (∀ d n, a.access = .hdmRead d n → as (.hostMemRead d n)) ∧
          (∀ d l, a.access = .hdmWrite d l → as (.hostMemWrite d l)) ∧
          (∀ off w, a.access = .bar0Write off w false → as (.registerWrite off w))) ∧
        ((∀ v ∈ s.slices, v.2.serving = [] ∧ v.2.ingress = []) → (∀ l, a.access = .snoopCur l → as (.snpcur l)) ∧
          (∀ l, a.access = .snoopData l → as (.snpdata l)) ∧ (∀ l, a.access = .snoopInv l → as (.snpinv l))) ∧
        (∀ id ok d, a.access = .completion id ok d → as (.pcieCompletion id ok d)) ∧
        (∀ p st peer, a.access = .portState p st peer → as (.portStateChange p st peer)) ∧
        (∀ t1, a.access = .sync t1 → as (.sync t1)) ∧ (∀ t4, a.access = .dreq t4 → as (.dreq t4)) ∧
        (∀ n, a.access = .raiseSvn n → as (.fusedMinimumRaise n)) ∧
        (∀ g q r k b d, a.access = .peerCollective g q r k b d → Answers .arrivalPresent s fun t =>
          t = { s1 with cox := { s.cox with remotePosts := s.cox.remotePosts ++ [⟨g, q, r, k, b, d⟩] } }) ∧
        (∀ w, a.access = .deviceControl2 w → s.boot.tdi = .unlocked → Answers .arrivalPresent s fun t =>
          t.links.atomicEnable = w.getLsbD 6) ∧
        (∀ n w, a.access = .configWrite n w → s.boot.tdi = .unlocked → Answers .arrivalPresent s fun t =>
          t = { s1 with links := { s.links with config := Cells.put s.links.config n w } }) ∧
        ∀ h r, handleScope h = 5 → s.packageHome h = some r → handleIndex h < 65536 →
          (∀ w ∈ (s.home r).waiters, w.index ≠ handleIndex h) →
          let k := (s.home r).ctr (handleIndex h)
          k.live = true → k.gen = handleGen h →
            (∀ inc, a.access = .peerAdd h inc → k.value + inc.toNat < 2 ^ 64 → Answers .arrivalPresent s fun t =>
              (t.home r).ctr (handleIndex h) = { k with value := k.value + inc.toNat } ∧ t.egress = s.egress ++ [.peerReply 0]) ∧
            (∀ id, a.access = .peerOp .read h id → Answers .arrivalPresent s fun t =>
              t.egress = s.egress ++ [.peerAnswer id 0 k.value k.lts]) ∧
            (∀ id w, a.access = .peerOp (.wait w) h id → (s.home r).waiters.length < waiterRoom r → Answers .arrivalPresent s fun t =>
              if w.toNat ≤ k.value then t.egress = s.egress ++ [.peerAnswer id 0 0 k.lts]
              else t.egress = s.egress ∧ (t.home r).waiters = (s.home r).waiters ++ [⟨handleIndex h, h, w.toNat, .peer id⟩])))

/-- R412 to R415, R418, R420: the log's records are presented again at their cycle + 32; each source's digest is
logged or compared every 2^20 c, a mismatch freezing the package; it freezes before the first even cycle at or
after STOPCYC; the modes are written as the registers' limits allow, or not at all once the interface is locked.
The layout of records and the bytes that a digest covers are the model's (log 45). -/
def Obligations.LogAndFreeze : Prop :=
  ∀ (s : State) (source : Nat) (w : BitVec 64),
    let r := s.logAt s.rpl.head
    let n := w.toNat
    let k := Cells.get 0 s.rpl.checks source
    let rel := (k + 1) * 2 ^ 20
    let crc := Cells.get 0 s.rpl.digests source
    let frozen := fun (cause : Nat) (t : State) => t.cycle % 2 = 0 ∧ s.cycle ≤ t.cycle ∧ t.cycle ≤ s.cycle + 1 ∧
      t.rpl.frozen = true ∧ t.rpl.cause = cause ∧ t = { s with cycle := t.cycle, rpl := t.rpl }
    let noted := fun (kind : Nat) (t : State) => ∃ e, t.cox.events = s.cox.events ++ [e] ∧ e.kind = kind
    (s.replaying = true → s.rpl.frozen = false → s.rpl.head < 2 ^ 34 → s.logValid r = true →
      (r.kind ≠ 2 → s.cycle < s.rpl.epoch + r.cycle + 32 → exec .logRecordPresent s = .next s) ∧
      (r.kind = 2 ∨ s.rpl.epoch + r.cycle + 32 ≤ s.cycle →
        let s1 := { s with rpl := { s.rpl with head := s.rpl.head + r.size } }
        (2 ≤ r.kind → exec .logRecordPresent s = .next s1) ∧
        (∀ p, r.kind = 0 → accessOf r.payload = some (.raiseSvn p) → exec .logRecordPresent s = exec (.fusedMinimumRaise p) s1))) ∧
    (s.rpl.active = true → s.rpl.epoch + rel ≤ s.cycle →
      (s.rpl.curMode = 1 → s.rpl.head + 32 < 2 ^ 34 → s.rpl.base * 2 ^ 30 + s.rpl.head + 32 ≤ dramSize →
        let at' := s.rpl.base * 2 ^ 30 + s.rpl.head
        Answers (.egressDigestCheck source) s fun t => Cells.get 0 t.rpl.checks source = k + 1 ∧ t.rpl.head = s.rpl.head + 32 ∧
          t.mem.read at' 8 = bytesOf 8 rel ∧ t.mem.read (at' + 8) 4 = [BitVec.ofNat 8 source, 3, 4, 0] ∧
          t.mem.read (at' + 16) 4 = bytesOf 4 crc.toNat) ∧
      (s.rpl.curMode = 2 → s.logDigest source rel 65536 s.rpl.head = some crc → Answers (.egressDigestCheck source) s fun t =>
        t = { s with rpl := { s.rpl with checks := t.rpl.checks } }) ∧
      (s.rpl.curMode = 2 → s.rpl.frozen = false → s.logDigest source rel 65536 s.rpl.head ≠ some crc →
        Answers (.egressDigestCheck source) s fun t => frozen 3 t ∧ t.rpl.diverge = true ∧
          (s.rpl.diverge = false → t.rpl.dcycle = s.rpl.epoch + rel))) ∧
    (s.rpl.armed = true → s.rpl.frozen = false →
      (s.cycle < s.rpl.stopcyc → exec .freeze s = .next s) ∧
      (s.rpl.stopcyc ≤ s.cycle → Answers .freeze s fun t => frozen 1 t ∧
        t.rpl = { s.rpl with frozen := true, cause := 1, armed := false, scannedIn := false })) ∧
    (s.boot.tdi = .unlocked →
      (Answers (.xmodeWrite w) s fun t => t = { s with rpl := { s.rpl with xmode := n % 4 } }) ∧
      (n / 256 % 256 ≤ 32 → n % 4 ≠ 3 → Answers (.rplctlWrite w) s fun t =>
        t = { s with rpl := { s.rpl with mode := n % 4, logres := n / 256 % 256, fullact := w.getLsbD 2 } }) ∧
      (32 < n / 256 % 256 ∨ n % 4 = 3 → exec (.rplctlWrite w) s = .next s)) ∧
    (s.boot.tdi ≠ .unlocked → Answers (.xmodeWrite w) s fun t => noted 9 t ∧ t = { s with cox := t.cox }) ∧
    (s.boot.tdi = .locked ∨ s.boot.tdi = .run → Answers (.rplctlWrite w) s fun t =>
      t.boot = { s.boot with tdi := .error } ∧ noted 13 t ∧ t = { s with boot := t.boot, cox := t.cox })

/-- R417 to R420: a scan operation runs on a frozen package whose engine is idle and whose interface is unlocked,
and otherwise only sets its code; a scan-out writes header and directory to the host and changes nothing
scanned; a scan-in of an image that fits loads it, one that does not changes nothing; a release ends the freeze,
as a start point after a scan-in. The image's sections are held as a record, and its directory bytes and CRC are
free (logs 45, 12). -/
def Claim.ScanImages : Prop :=
  ∀ (s : State) (haddr : Nat) (i : Image),
    let refused := fun (code : Nat) (t : State) => t = { s with rpl := { s.rpl with scanCode := code } }
    let stop := if s.boot.tdi ≠ .unlocked then some 6 else if s.rpl.frozen = false then some 1
      else if s.rpl.scanBusy = true then some 2 else none
    let header := bytesOf 4 0x485A5343 ++ bytesOf 4 Config.scanVersion.toNat ++ bytesOf 8 Config.deviceSerial.toNat ++
      bytesOf 8 s.cycle ++ bytesOf 8 s.rpl.epoch ++ bytesOf 8 s.rpl.rplctl ++ bytesOf 8 s.rpl.head ++ bytesOf 8 s.rpl.xmode
    (∀ c, stop = some c → Answers (.scanOut haddr) s (refused c) ∧ Answers (.scanIn haddr) s (refused c) ∧ Answers .release s (refused c)) ∧
    (stop = none → s.links.pup = false → ∀ j, j = .scanOut haddr ∨ j = .scanIn haddr → Answers j s fun t =>
      t = { s with rpl := { s.rpl with scanBusy := true, scanNext := (3, s.rpl.scanCrc) } }) ∧
    (stop = none → s.links.pup = true →
      (Answers (.scanOut haddr) s fun t => t.hostMem.read haddr 56 = header ∧ t.rpl.scanBusy = true ∧ t.rpl.scanNext.1 = 0 ∧
        (∃ x, Cells.find (t.images.map fun y => (y.addr, y)) haddr = some x ∧ x.cycle = s.cycle ∧ x.crews = s.crews ∧ x.cores = s.cores ∧
          x.slices = s.slices ∧ x.rm = s.rm ∧ x.crc = t.rpl.scanNext.2) ∧
        t = { s with fresh := t.fresh, hostMem := t.hostMem, images := t.images, egress := t.egress, rpl := t.rpl }) ∧
      (natOf (s.hostMem.read haddr 4) ≠ 0x485A5343 → Answers (.scanIn haddr) s fun t =>
        t.rpl.scanNext.1 = 4 ∧ t = { s with fresh := t.fresh, rpl := { s.rpl with scanBusy := true, scanNext := t.rpl.scanNext } }) ∧
      (s.hostMem.read haddr 16 = bytesOf 4 0x485A5343 ++ bytesOf 4 Config.scanVersion.toNat ++ bytesOf 8 Config.deviceSerial.toNat →
        (∃ l, s.images = i :: l) → i.addr = haddr → Answers (.scanIn haddr) s fun t =>
          t.cycle = i.cycle ∧ t.crews = i.crews ∧ t.msgs = i.msgs ∧ t.rm = i.rm ∧ t.clusters = i.clusters ∧ t.dies = i.dies ∧
          t.cox = { i.cox with flash := s.cox.flash } ∧ t.rpl.arrivals = i.arrivals ∧ t.rpl.scannedIn = true ∧
          t.rpl.scanNext = (0, i.crc) ∧ t.rpl.frozen = true ∧ t.hostMem = s.hostMem ∧ t.boot = s.boot)) ∧
    (s.rpl.scanBusy = true → Answers .scanComplete s fun t => t = { s with rpl := { s.rpl with
      scanBusy := false, scanCode := s.rpl.scanNext.1, scanCrc := s.rpl.scanNext.2 } }) ∧
    (stop = none → s.rpl.scannedIn = false → Answers .release s fun t =>
      t = { s with rpl := { s.rpl with frozen := false, scanCode := 0 } }) ∧
    (stop = none → s.rpl.scannedIn = true → s.rpl.mode ≠ 1 → Answers .release s fun t =>
      t.rpl.frozen = false ∧ t.rpl.epoch = s.cycle ∧ t.rpl.curMode = s.rpl.mode ∧ t.rpl.scannedIn = false ∧ t = { s with rpl := t.rpl })

/-- R421, R422: a follower's exchange sets SYSOFF to the mean of the two differences, rounded toward minus infinity;
a master answers with its own time; nothing else changes. When the delay request is sent is deduced (log 35). -/
def Claim.ModuleAlignment : Prop :=
  ∀ (s : State) (w : BitVec 64) (t1 t4 : Int) (port : Nat),
    let sets := fun (r : Replay) (t : State) => t = { s with rpl := r }
    (s.boot.tdi = .unlocked → Answers (.synccmd w) s (sets { s.rpl with syncPort := some (w.toNat % 16) })) ∧
    (s.boot.tdi ≠ .unlocked → Answers (.synccmd w) s fun t => t = { s with cox := t.cox }) ∧
    (s.rpl.syncPort = some port →
      (Answers (.sync t1) s fun t =>
        t = { s with rpl := { s.rpl with syncT1 := t1, syncT2 := s.cycle, syncT3 := s.cycle }, egress := s.egress ++ [.dreq] }) ∧
      Answers (.dreq t4) s fun t => t = { s with rpl := { s.rpl with sysoff := t.rpl.sysoff, syncPort := none } } ∧
        2 * t.rpl.sysoff ≤ (s.rpl.syncT1 - s.rpl.syncT2) + (t4 - s.rpl.syncT3) ∧
        (s.rpl.syncT1 - s.rpl.syncT2) + (t4 - s.rpl.syncT3) < 2 * t.rpl.sysoff + 2) ∧
    (s.rpl.syncPort = none → exec (.sync t1) s = .next s ∧
      Answers (.dreq t4) s fun t => t = { s with egress := s.egress ++ [.sync (s.cycle + s.rpl.sysoff)] })

/-- `Claim.ScanImages` and `Claim.ModuleAlignment` together; their docstrings name the rules and logs. -/
def Obligations.ScanAndAlignment : Prop := Claim.ScanImages ∧ Claim.ModuleAlignment

/-! ## Samples, errors, ports, power (R254, R404, R405, R423 to R437) -/

/-- R423 to R426: at sample point k, each crew of subcore k mod 4 that has a thread left has one record of 32 bytes
written at the buffer's next place, in slot order, or dropped and counted when it is full; no crew is touched. A
reason that depends on timing is free (log 2). -/
def Claim.StallSamples : Prop :=
  ∀ (s : State) (slot : Nat) (c : Crew) (a b : List (Nat × Crew)),
    let f := s.fleet
    let point := f.smpBase + f.smpK * f.smpPeriod
    let here := fun (e : Nat × Crew) => e.1 / 8 % 4 = f.smpK % 4 ∧ ∃ t ∈ e.2.threads, t.st ≠ .exited
    (f.smpActive = false ∨ s.cycle < point → exec .samplePoint s = .next s) ∧
    (f.smpActive = true → point ≤ s.cycle → s.crews = a ++ (slot, c) :: b → here (slot, c) → (∀ e ∈ a ++ b, ¬here e) →
      let at' := f.smpBuf + 32 * f.smpHead
      (32 * (f.smpHead + 1) ≤ f.smpSize → at' + 32 ≤ dramSize → Answers .samplePoint s fun t =>
        t.fleet = { f with smpHead := f.smpHead + 1, smpK := f.smpK + 1 } ∧
        t.mem.read at' 8 = bytesOf 8 point ∧ t.mem.read (at' + 16) 12 = bytesOf 4 c.grid.toNat ++ bytesOf 4 c.team ++
          [BitVec.ofNat 8 (slot / 32), BitVec.ofNat 8 (slot % 8 * 8 + slot / 8 % 4), BitVec.ofNat 8 c.crew, t.mem.byte (at' + 27)] ∧
        t.mem.byte (at' + 27) ∈ ([0, 1, 2, 3, 4, 5, 6, 7] : List Byte) ∧
        (∀ x, x < at' ∨ at' + 32 ≤ x → t.mem.byte x = s.mem.byte x) ∧
        t = { s with fleet := t.fleet, mem := t.mem, slices := t.slices, dies := t.dies, fresh := t.fresh }) ∧
      (f.smpSize < 32 * (f.smpHead + 1) → Answers .samplePoint s fun t =>
        t.fleet = { f with smpDrop := min 0xFFFFFFFF (f.smpDrop + 1), smpK := f.smpK + 1 } ∧
        t = { s with fleet := t.fleet, fresh := t.fresh }))

/-- R254, R386 call 12, R404, R432 to R434, R436, R437: a resent flit is counted; a port's change is kept, and stops
no collective when the port comes up; a refresh changes no byte; the governor steps its stop count; the clock
stops at 105 °C and restarts at 100 °C with an event each; THERMTRIP# halts; a notification is an event of kind
5 once its counter has reached the threshold. The layout of the events' DATA and the thermal event's source are
the model's (log 9). -/
def Claim.PortsAndPower : Prop :=
  ∀ (s : State) (port state peer watts die id : Nat) (temps : List Int) (n : Notification) (rest : List Notification) (r : HomeRef),
    let f := s.fleet
    let at' := s.port port
    let periods :=
      if f.pwrcap < watts then min 200 (f.stopped + 8) else if 100 * watts < 95 * f.pwrcap then f.stopped - 8 else f.stopped
    let fleet := fun (v : Fleet) (t : State) => t = { s with fleet := v }
    let noted := fun (kind : Nat) (data : List Byte) (t : State) =>
      ∃ e, t.cox.events = s.cox.events ++ [e] ∧ e.kind = kind ∧ e.data = data
    (Answers (.flitCrcResend port) s fun t => t.port port = (at'.1, at'.2.1, at'.2.2 + 1) ∧
      t.egress = s.egress ++ [.nackFlit port] ∧ (∀ p, p ≠ port → t.port p = s.port p) ∧
      t = { s with fleet := t.fleet, egress := t.egress }) ∧
    (state = 2 ∨ state = 3 ∨ s.cox.groups = [] → Answers (.portStateChange port state peer) s
      (fleet { f with ports := Cells.put f.ports port (state, peer, at'.2.2) })) ∧
    (Answers (.lpddrRefresh die) s fun t => Cells.get 0 t.fleet.refreshes die = Cells.get 0 f.refreshes die + 1 ∧
      t = { s with fleet := { f with refreshes := t.fleet.refreshes } }) ∧
    (Answers (.powerWindow watts) s (fleet { f with stopped := periods })) ∧
    (f.clockStopped = false → (∃ t ∈ temps, 840 ≤ t) → Answers (.thermalStop temps) s fun t =>
      noted 14 [0] t ∧ t = { s with fleet := { f with clockStopped := true }, cox := t.cox }) ∧
    ((∀ t ∈ temps, t < 840) → exec (.thermalStop temps) s = .next s) ∧
    (f.clockStopped = true → (∀ t ∈ temps, t ≤ 800) → Answers (.thermalRestart temps) s fun t =>
      noted 14 [1] t ∧ t = { s with fleet := { f with clockStopped := false }, cox := t.cox }) ∧
    ((∃ t ∈ temps, 800 < t) → exec (.thermalRestart temps) s = .next s) ∧
    (Answers .thermtrip s fun t =>
      t = { s with boot := { s.boot with thermtrip := true }, egress := s.egress ++ [.thermtrip] }) ∧
    (s.cox.notes = n :: rest → (∀ x ∈ rest, x.id ≠ id) → n.id = id → s.packageHome n.handle = some r →
      ((s.home r).ctr (handleIndex n.handle)).live = true → ((s.home r).ctr (handleIndex n.handle)).gen = handleGen n.handle →
      let v := ((s.home r).ctr (handleIndex n.handle)).value
      (n.threshold ≤ v → Answers (.counterNotification id) s fun t => t.cox.notes = rest ∧
        noted 5 (bytesOf 8 id ++ bytesOf 8 n.tag.toNat ++ bytesOf 8 n.handle.toNat) t ∧ t = { s with cox := t.cox }) ∧
      (v < n.threshold → exec (.counterNotification id) s = .next s))

/-- `Claim.StallSamples` and `Claim.PortsAndPower` together; their docstrings name the rules and logs. -/
def Obligations.SamplesPortsAndPower : Prop := Claim.StallSamples ∧ Claim.PortsAndPower

/-- R268, R271, R283, R405, R428, R429: a corrected error is counted with its cycle and changes nothing else; an
uncorrectable one is counted and poisons the line, marks the word or lane, drops the clean line, or frees the
counter; a stream bit flips and is not counted before it is read. The unit under which an error counts is
deduced (log 44). -/
def Obligations.SoftErrors : Prop :=
  ∀ (s : State) (site : ErrorSite) (core n k : Nat),
    let entry := fun (x : State) (structure_ unit : Nat) => Cells.get (0, 0, 0, 0) x.fleet.ras (4096 * structure_ + unit)
    let up := fun (v : Nat) => min 0xFFFFFFFF (v + 1)
    let line := n / 128 * 128
    let counts := fun (i j : Nat) (right : Bool) (t : State) =>
      let e := entry s i j
      entry t i j = (if right = true then (up e.1, e.2.1, s.cycle, e.2.2.2) else (e.1, up e.2.1, e.2.2.1, s.cycle)) ∧
      (∀ m, m ≠ 4096 * i + j → Cells.get (0, 0, 0, 0) t.fleet.ras m = Cells.get (0, 0, 0, 0) s.fleet.ras m) ∧
      t.fleet = { s.fleet with ras := t.fleet.ras }
    let poisons := fun (i j : Nat) (t : State) => counts i j false t ∧ (∀ l, l ∈ t.poison ↔ l = line ∨ l ∈ s.poison) ∧
      t = { s with fleet := t.fleet, poison := t.poison }
    let marks := fun (core' : Core) (i : Nat) (t : State) => counts i core false t ∧ t.core core = core' ∧
      (∀ m, m ≠ core → t.core m = s.core m) ∧ t = { s with fleet := t.fleet, cores := t.cores }
    (∀ i j, ((∃ m, site = .register m n ∧ i = 0 ∧ j = m / 32) ∨ (site = .deckWord core n ∧ i = 1 ∧ j = core) ∨
        (site = .operandWord core n ∧ i = 1 ∧ j = core) ∨ (site = .accumulatorWord core n ∧ i = 1 ∧ j = core) ∨
        (site = .l1Line core n ∧ i = 2 ∧ j = core) ∨ (site = .cacheData n ∧ i = 3 ∧ j = s.homeSlice n) ∨
        (site = .cacheTags k n ∧ i = 4 ∧ j = k) ∨ (site = .counterSram k n ∧ i = 5 ∧ j = k) ∨
        (site = .dramLine n ∧ i = 6 ∧ j = homeDie n)) →
      Answers (.softError site true) s fun t => counts i j true t ∧ t = { s with fleet := t.fleet }) ∧
    Answers (.softError (.cacheData n) false) s (poisons 3 (s.homeSlice n)) ∧
    Answers (.softError (.dramLine n) false) s (poisons 6 (homeDie n)) ∧
    Answers (.softError (.deckWord core n) false) s
      (marks { s.core core with badDeck := (s.core core).badDeck ++ [n / 8 * 8] } 1) ∧
    Answers (.softError (.operandWord core n) false) s
      (marks { s.core core with badObuf := (s.core core).badObuf ++ [n / 8 * 8] } 1) ∧
    Answers (.softError (.accumulatorWord core n) false) s
      (marks { s.core core with badAcc := (s.core core).badAcc ++ [n / 2 * 8] } 1) ∧
    (Answers (.softError (.l1Line core n) false) s fun t => counts 2 core true t ∧
      Cells.find (t.core core).l1 n = none ∧ Cells.find (t.core core).icache n = none ∧
      (∀ m, m ≠ n → Cells.find (t.core core).l1 m = Cells.find (s.core core).l1 m) ∧
      t.core core = { s.core core with l1 := (t.core core).l1, icache := (t.core core).icache }) ∧
    (∀ slot c, s.crew? slot = some c → Answers (.softError (.register slot n) false) s fun t =>
      counts 0 (slot / 32) false t ∧ ∃ c', t.crew? slot = some c' ∧ n ∈ c'.badLanes ∧ c' = { c with badLanes := c'.badLanes }) ∧
    (∀ die, (∀ w ∈ (s.die die).ctrs.waiters, w.index ≠ n) → n < 2 ^ 24 → Answers (.softError (.counterSram die n) false) s fun t =>
      counts 5 die false t ∧ ((t.die die).ctrs.ctr n).live = false ∧ ∀ m, m ≠ n → (t.die die).ctrs.ctr m = (s.die die).ctrs.ctr m) ∧
    ∀ slot c reg lane bit, s.crew? slot = some c → reg < c.streams.length → bit < 1024 →
      ∀ right, Answers (.softError (.streamBit slot reg lane bit) right) s fun t => t.fleet = s.fleet ∧ ∃ c', t.crew? slot = some c' ∧
        (∀ j, ((c'.stream reg).lane lane).getLsbD j = (((c.stream reg).lane lane).getLsbD j != decide (j = bit)))

/-! ## Service calls (R380 to R390) -/

/-- R380 to R385, R397, R399: the oldest call is served under its own number only; a host post's block is checked,
CNT first, then the number, the header, the poster; then results and STATUS with DONE are stored and 1 is added
to CNT; a device post's block is at its context's virtual address, and a privileged call from an unprivileged
context, or a frozen one after the lock, ends DENIED. The layout of the event's DATA is the model's (log 9), and
that a host block's address is physical is deduced (log 38). -/
def Claim.CallFrame : Prop :=
  ∀ (s : State) (c : Call) (b : List Byte),
    let a := c.block.toNat
    let p := s.popCall c
    let noted := fun (ctx : Nat) (t : State) => ∃ e, t.cox.events = p.cox.events ++ [e] ∧ e.kind = 2 ∧ e.ctx = ctx ∧ e.data = bytesOf 8 a
    (s.nextCall = none → exec .nop s = .next s) ∧
    (s.nextCall = some c → (c.number ≠ 2 ∨ s.boot.tdi = .error) → exec .nop s = .next s) ∧
    (Posted s 2 c b → Answers .nop s (CallDone a 0 0 [] p)) ∧
    (∀ n, 48 ≤ n → Posted s n c b → Answers .badcall s (CallDone a 1 0 [] p)) ∧
    (s.nextCall = some c → s.boot.tdi ≠ .error → c.device = none → a % 64 = 0 → dramSize ≤ a ∨ s.inOverflow a = true → c.number = 2 →
      Answers .nop s fun t => noted 0xFF t ∧ t = { p with cox := t.cox }) ∧
    (s.nextCall = some c → s.boot.tdi ≠ .error → c.device = none → c.number = 2 → a % 64 = 0 → a + 64 ≤ dramSize → s.inOverflow a = false →
      (∀ l ∈ s.poison, l + 128 ≤ a ∨ a + 64 ≤ l) → s.mem.read a 64 = b →
      let cnt := BitVec.ofNat 64 (blk b 0 8)
      let i := handleIndex cnt
      (cnt ≠ 0 → s.packageHome cnt = none → Answers .nop s (CallDone a 5 0 [] p)) ∧
      (∀ r, cnt ≠ 0 → s.packageHome cnt = some r →
        let k := (s.home r).ctr i
        (k.live = false ∨ k.gen ≠ handleGen cnt → Answers .nop s (CallDone a 5 0 [] p)) ∧
        (k.live = true → k.gen = handleGen cnt → k.value < 2 ^ 64 - 1 → (∀ w ∈ (s.home r).waiters, w.index ≠ i) → i < 65536 →
          blk b 12 1 < 16 → blk b 13 3 = 0 → Answers .nop s fun t => ∃ u w, CallDone a 0 0 [] p u ∧ t = { u with dies := t.dies } ∧
            (t.home r).ctr i = { k with value := k.value + 1, lts := max k.lts w } ∧
            ∀ d, r ≠ .die d → t.die d = u.die d)) ∧
      (cnt = 0 →
        (blk b 13 1 ≠ 0 → Answers .nop s (CallDone a 2 13 [] p)) ∧
        (blk b 13 1 = 0 → blk b 14 1 ≠ 0 → Answers .nop s (CallDone a 2 14 [] p)) ∧
        (blk b 13 2 = 0 → blk b 15 1 ≠ 0 → Answers .nop s (CallDone a 2 15 [] p)) ∧
        (blk b 13 3 = 0 → 16 ≤ blk b 12 1 → Answers .nop s (CallDone a 2 12 [] p)))) ∧
    (∀ x priv g h, s.nextCall = some c → c.device = some (x, priv) → a % 64 = 0 → a < windowBase → x < 16 →
      s.walk x a .read = .ok g → s.walk x a .write = .ok h → h = g →
      let pa := g.pa + (a - g.va)
      pa % 64 = 0 → pa + 64 ≤ dramSize → (∀ l ∈ s.poison, l + 128 ≤ pa ∨ pa + 64 ≤ l) → s.mem.read pa 64 = b → blk b 0 8 = 0 → blk b 13 3 = 0 →
      (c.number = 2 → s.boot.tdi ≠ .error → Answers .nop s (CallDone pa 0 0 [] p)) ∧
      (c.number = 1 → priv = false → s.boot.tdi ≠ .error → Answers .setmod s (CallDone pa 4 0 [] p)) ∧
      (c.number = 1 → priv = true → s.boot.tdi = .locked ∨ s.boot.tdi = .run → Answers .setmod s (CallDone pa 4 0 [] p))) ∧
    (∀ x priv e, s.nextCall = some c → c.device = some (x, priv) → c.number = 2 → s.boot.tdi ≠ .error → a % 64 = 0 → a < windowBase →
      s.walk x a .read = .error e → Answers .nop s fun t => noted x t ∧ t = { p with cox := t.cox })

/-- R386 calls 0, 1 and 3 to 9, R387: what they read of the package; an arena is set when it holds no allocation;
ALLOC returns the lowest aligned free address of the context's arena, FREE and ARESET give allocations back,
AQUERY counts what is free. The answer of another module's PING is free (log 13). -/
def Claim.MemoryCalls : Prop :=
  ∀ (s : State) (c : Call) (b : List Byte),
    let p := s.popCall c
    let arg := fun (off n : Nat) => blk b off n
    let ends := fun (results : List (Nat × List Byte)) (u t : State) => CallDone c.block.toNat 0 0 results u t
    let bad := fun (off : Nat) (t : State) => CallDone c.block.toNat 2 off [] p t
    let fails := fun (code : Nat) (t : State) => CallDone c.block.toNat code 0 [] p t
    let arena := fun (x : Nat) => Cells.get ⟨0, 0, []⟩ s.cox.arenas x
    let setArena := fun (x : Nat) (v : Arena) => { p with cox := { p.cox with arenas := Cells.put s.cox.arenas x v } }
    let x := arg 16 1
    let own := arg 12 1
    let v := arena own
    let stop := v.base + v.size
    let apart := fun (y n : Nat) => v.base ≤ y ∧ y + n ≤ stop ∧ ∀ q ∈ v.allocs, y + n ≤ q.1 ∨ q.1 + q.2 ≤ y
    let tidy := v.allocs.Pairwise (fun q r => q.1 + q.2 ≤ r.1) ∧ ∀ q ∈ v.allocs, v.base ≤ q.1 ∧ q.1 + q.2 ≤ stop ∧ 0 < q.2
    (Posted s 0 c b → Answers .info s (ends [(16, bytesOf 2 s.cox.moduleNo), (20, bytesOf 4 s.boot.fwVersion),
      (24, bytesOf 4 s.boot.fwSvn), (32, bytesOf 8 Config.deviceSerial.toNat)] p)) ∧
    (Posted s 1 c b →
      (2048 ≤ arg 16 2 → Answers .setmod s (bad 16)) ∧
      (arg 16 2 < 2048 → (∃ d ∈ s.dies, ∃ k ∈ d.2.ctrs.ctrs, k.2.live = true ∧ k.2.scope = 5) → Answers .setmod s (fails 6)) ∧
      (arg 16 2 < 2048 → (∀ d ∈ s.dies, ∀ k ∈ d.2.ctrs.ctrs, k.2.live = false ∨ k.2.scope ≠ 5) →
        Answers .setmod s (ends [] { p with cox := { p.cox with moduleNo := arg 16 2 } }))) ∧
    (Posted s 3 c b →
      (2048 ≤ arg 16 2 → Answers .ping s (bad 16)) ∧
      (arg 16 2 = s.cox.moduleNo → arg 16 2 < 2048 → Answers .ping s (ends [(18, [0]), (24, bytesOf 8 0)] p)) ∧
      (arg 16 2 < 2048 → Answers .ping s fun t => (∃ w, ends [(18, [0]), (24, bytesOf 8 w)] p t) ∨ ends [(18, [1])] p t)) ∧
    (Posted s 4 c b →
      (16 ≤ x → Answers .arena s (bad 16)) ∧
      (x < 16 → arg 24 8 % 2 ^ 21 ≠ 0 → Answers .arena s (bad 24)) ∧
      (x < 16 → arg 24 8 % 2 ^ 21 = 0 → arg 32 8 % 2 ^ 21 ≠ 0 → Answers .arena s (bad 32)) ∧
      (x < 16 → arg 24 8 % 2 ^ 21 = 0 → arg 32 8 % 2 ^ 21 = 0 →
        ((arena x).allocs ≠ [] → Answers .arena s (fails 6)) ∧
        ((arena x).allocs = [] → Answers .arena s (ends [] (setArena x ⟨arg 24 8, arg 32 8, []⟩))))) ∧
    (Posted s 5 c b →
      let align := arg 24 8
      let size := (arg 16 8 + 127) / 128 * 128
      (arg 16 8 = 0 → Answers .alloc s (bad 16)) ∧
      (arg 16 8 ≠ 0 → (∀ n, 7 ≤ n → n ≤ 30 → align ≠ 2 ^ n) → Answers .alloc s (bad 24)) ∧
      (arg 16 8 ≠ 0 → tidy → ∀ n, 7 ≤ n → n ≤ 30 → align = 2 ^ n →
        (65536 ≤ v.allocs.length → Answers .alloc s (fails 3)) ∧
        (v.allocs.length < 65536 → (∀ y, apart y size → y % align ≠ 0) → Answers .alloc s (fails 3)) ∧
        (v.allocs.length < 65536 → ∀ y, apart y size → y % align = 0 → (∀ z, apart z size → z % align = 0 → y ≤ z) →
          Answers .alloc s (ends [(32, bytesOf 8 y)] (setArena own { v with allocs := Cells.put v.allocs y size }))))) ∧
    (Posted s 6 c b →
      ((∀ q ∈ v.allocs, q.1 ≠ arg 16 8) → Answers .free s (bad 16)) ∧
      ((∃ q ∈ v.allocs, q.1 = arg 16 8) →
        Answers .free s (ends [] (setArena own { v with allocs := Cells.erase v.allocs (arg 16 8) })))) ∧
    (Posted s 7 c b → tidy → Answers .aquery s fun t => ∃ run,
      (∀ y n, apart y n → n ≤ run) ∧ (∃ y, apart y run) ∧
      ends [(16, bytesOf 8 (v.size - (v.allocs.map (·.2)).sum)), (24, bytesOf 8 run), (32, bytesOf 4 v.allocs.length)] p t) ∧
    (Posted s 8 c b → (16 ≤ x → Answers .areset s (bad 16)) ∧
      (x < 16 → Answers .areset s (ends [] (setArena x { arena x with allocs := [] })))) ∧
    (Posted s 9 c b → (arg 24 8 % 256 ≠ 0 → Answers .slog s (bad 24)) ∧ (arg 24 8 % 256 = 0 →
      Answers .slog s (ends [] { p with cox := { p.cox with slogBase := arg 16 8, slogSize := arg 24 8, slogUsed := 0 } })))

/-- `Claim.CallFrame` and `Claim.MemoryCalls` together; their docstrings name the rules and logs. -/
def Obligations.CallFrameAndMemoryCalls : Prop := Claim.CallFrame ∧ Claim.MemoryCalls

/-- R74, R76, R78, R95, R386 calls 10 to 21, R388: counters are allocated, freed, reported and watched at package
and system scope; the ring, the vectors and the mask of events are set; events are posted and forwarded; a flush
ends when none waits. Which vector a kind without its own signals is deduced (log 41). -/
def Obligations.CounterAndEventCalls : Prop :=
  ∀ (s : State) (c : Call) (b : List Byte),
    let p := s.popCall c
    let arg := fun (off n : Nat) => blk b off n
    let ends := fun (results : List (Nat × List Byte)) (u t : State) => CallDone c.block.toNat 0 0 results u t
    let bad := fun (off : Nat) (t : State) => CallDone c.block.toNat 2 off [] p t
    let h := BitVec.ofNat 64 (arg 16 8)
    let ctr := fun (r : HomeRef) => (s.home r).ctr (handleIndex h)
    let gone := s.packageHome h = none ∨ ∃ r, s.packageHome h = some r ∧ ((ctr r).live = false ∨ (ctr r).gen ≠ handleGen h)
    let live := fun (r : HomeRef) => s.packageHome h = some r ∧ (ctr r).live = true ∧ (ctr r).gen = handleGen h
    let cox := fun (x : Coxswain) => { p with cox := x }
    let raises := fun (kind : Nat) (data : List Byte) (t : State) => ∃ u e, ends [] u t ∧ u = { p with cox := u.cox } ∧
      u.cox = { p.cox with events := p.cox.events ++ [e], stamps := u.cox.stamps } ∧ e.kind = kind ∧ e.ctx = arg 12 1 ∧ e.data = data
    (Posted s 10 c b →
      let scope := arg 16 1
      let d := arg 17 1
      let home := (s.die d).ctrs
      let room := 65536 * (1 + (s.die d).pages)
      (scope ≠ 4 → scope ≠ 5 → Answers .svcCalloc s (bad 16)) ∧
      (scope = 4 ∨ scope = 5 → 4 ≤ d → Answers .svcCalloc s (bad 17)) ∧
      (scope = 4 ∨ scope = 5 → d < 4 → Cells.canonical Counter.reset home.ctrs = true →
        (∀ m, m < room → (∀ j < m, (home.ctr j).live = true) → (home.ctr m).live = false →
          let gen := if (home.ctr m).gen = 0xFFFFFF then 1 else (home.ctr m).gen + 1
          let named := if scope = 5 then 4 * s.cox.moduleNo + d else d
          Answers .svcCalloc s (ends [(24, bytesOf 8 (handleOf scope named m gen).toNat)]
            (p.setDie d { s.die d with ctrs := home.setCtr m ⟨0, true, gen, 0, scope⟩ }))) ∧
        ((∀ j < room, (home.ctr j).live = true) →
          Answers .svcCalloc s fun t => ∃ u, (∀ n, u.die n = s.die n) ∧ u = { p with dies := u.dies } ∧ ends [(24, bytesOf 8 0)] u t))) ∧
    (Posted s 11 c b → (gone → Answers .svcCfree s (bad 16)) ∧
      (∀ r, live r → (∀ w ∈ (s.home r).waiters, w.index ≠ handleIndex h) → Answers .svcCfree s fun t =>
        (t.home r).ctr (handleIndex h) = { ctr r with live := false } ∧ 
        t = { p with dies := t.dies, mem := t.mem, slices := t.slices, hostMem := t.hostMem, msgs := t.msgs })) ∧
    (Posted s 12 c b → (gone → Answers .cnotify s (bad 16)) ∧
      (∀ r, live r → Answers .cnotify s (ends [(40, bytesOf 4 s.cox.nextNote)] (cox { p.cox with
        notes := s.cox.notes ++ [⟨s.cox.nextNote, h, arg 24 8, BitVec.ofNat 32 (arg 32 4)⟩], nextNote := (s.cox.nextNote + 1) % 2 ^ 32 })))) ∧
    (Posted s 13 c b →
      ((∀ n ∈ s.cox.notes, n.id ≠ arg 16 4) → Answers .ccancel s (bad 16)) ∧
      ((∃ n ∈ s.cox.notes, n.id = arg 16 4) →
        Answers .ccancel s (ends [] (cox { p.cox with notes := s.cox.notes.filter fun n => n.id != arg 16 4 })))) ∧
    (Posted s 14 c b →
      let d := arg 16 1
      let n := arg 18 2
      (4 ≤ d → Answers .ovfpages s (bad 16)) ∧
      (d < 4 → 255 < n → Answers .ovfpages s (bad 18)) ∧
      (d < 4 → n < (s.die d).pages → n ≤ 255 → Answers .ovfpages s (CallDone c.block.toNat 6 0 [] p)) ∧
      (d < 4 → n ≤ 255 → (s.die d).pages ≤ n → Answers .ovfpages s (ends [] (p.setDie d { s.die d with pages := n })))) ∧
    (Posted s 15 c b → (s.packageHome h = none → Answers .cinfo s (bad 16)) ∧
      (∀ r, s.packageHome h = some r → Answers .cinfo s (ends [(24, bytesOf 8 (ctr r).value),
        (32, bytesOf 8 ((if (ctr r).live = true then 2 ^ 31 else 0) + (ctr r).scope % 8 * 2 ^ 28 + (ctr r).gen))] p))) ∧
    (Posted s 16 c b →
      ((∀ k, 6 ≤ k → k ≤ 20 → arg 24 4 ≠ 2 ^ k) → Answers .evring s (bad 24)) ∧
      (∀ k, 6 ≤ k → k ≤ 20 → arg 24 4 = 2 ^ k → Answers .evring s (ends [] (cox { p.cox with
        ringBase := arg 16 8, ringRecords := 2 ^ k, head := 0, tail := 0, vectors := Cells.put s.cox.vectors 256 (arg 28 1) })))) ∧
    (Posted s 17 c b → Answers .evpost s (raises 6 ((b.drop 16).take 32))) ∧
    (Posted s 18 c b →
      let r := arg 16 8
      (r + 48 ≤ dramSize → (∀ l ∈ s.poison, l + 128 ≤ r ∨ r + 48 ≤ l) → (∀ y < 48, s.inOverflow (r + y) = false) →
        Answers .trapfwd s (raises 3 (s.mem.read r 48))) ∧
      (dramSize ≤ r → r < 2 ^ 63 → Answers .trapfwd s (bad 16))) ∧
    (Posted s 19 c b → (s.cox.events = [] → Answers .evflush s (ends [] p)) ∧ (s.cox.events ≠ [] → exec .evflush s = .next s)) ∧
    (Posted s 20 c b →
      (64 ≤ arg 17 1 → arg 17 1 ≠ 0xFF → Answers .evvec s (bad 17)) ∧
      (arg 17 1 < 64 ∨ arg 17 1 = 0xFF →
        Answers .evvec s (ends [] (cox { p.cox with vectors := Cells.put s.cox.vectors (arg 16 1) (arg 17 1) })))) ∧
    (Posted s 21 c b → Answers .evmask s (ends [] (cox { p.cox with mask := h })))

/-- R226, R252, R254, R364, R379, R386 calls 22 to 32, R390: a report is answered once, its lanes going on or taking
their fault with CAUSE 5; debuggers attach, detach and resume; a killed context loses its grids, crews and
images; routines that keep to R226's list are installed; groups are defined, deleted, and their waiting
collectives cancelled. That CTXKILL leaves the held flag, and the image of a thread halted for the debugger, are
deduced (logs 39, 23); the layout of the event's DATA is the model's (log 9). -/
def Obligations.ContextCalls : Prop :=
  ∀ (s : State) (c : Call) (b : List Byte),
    let p := s.popCall c
    let arg := fun (off n : Nat) => blk b off n
    let ends := fun (results : List (Nat × List Byte)) (u t : State) => CallDone c.block.toNat 0 0 results u t
    let bad := fun (off : Nat) (t : State) => CallDone c.block.toNat 2 off [] p t
    let busy := fun (t : State) => CallDone c.block.toNat 6 0 [] p t
    let clear := fun (r n : Nat) => r + n ≤ dramSize ∧ (∀ l ∈ s.poison, l + 128 ≤ r ∨ r + n ≤ l) ∧ ∀ y < n, s.inOverflow (r + y) = false
    let x := arg 16 1
    let sets := fun (i : Instr) (v : Context) => (16 ≤ x → Answers i s (bad 16)) ∧ (x < 16 → Answers i s (ends [] (p.setContext x v)))
    let cox := fun (v : Coxswain) => { p with cox := v }
    (Posted s 22 c b →
      let id := arg 16 8
      ((∀ r ∈ s.cox.reports, r.id = id → r.answered = true) → Answers .fltans s (bad 16)) ∧
      (∀ ra (r : Report) rb, s.cox.reports = ra ++ r :: rb → r.id = id → r.answered = false → (∀ q ∈ ra ++ rb, q.id ≠ id) →
        let answered := fun (u : State) => u.cox = { p.cox with reports := ra ++ { r with answered := true } :: rb }
        (1 < arg 24 1 → Answers .fltans s (bad 24)) ∧
        (arg 24 1 = 0 → Answers .fltans s fun t => ∃ u, ends [] u t ∧ answered u ∧ u.mem = s.mem ∧
          ∀ slot d, s.crew? slot = some d → ∃ d', u.crew? slot = some d' ∧ d' = { d with threads := d'.threads } ∧
            ∀ l, (∀ f, (d.thread l).st = .replay f → f.report = id → d'.thread l = { d.thread l with st := .runnable }) ∧
              ((∀ f, (d.thread l).st = .replay f → f.report ≠ id) → d'.thread l = d.thread l)) ∧
        (∀ slot d l f v place, arg 24 1 = 1 → s.crews = [(slot, d)] → s.cores = [] → s.dies = [] → s.rm.saved = [] →
          (∀ n < 64, ∀ g, (d.thread n).st = .replay g → g.report = id → n = l) → d.threads.length = 64 → (d.thread l).st = .replay f →
          f.report = id → (d.thread l).trap = false → d.trapv = some v → (d.thread l).spillb.toNat % 64 = 0 →
          (s.check slot d ((d.thread l).spillb - 64) 64 .write).1 = .ok place → r.code ≠ 0x16 → Answers .fltans s fun t =>
            t.cox.reports = ra ++ { r with answered := true } :: rb ∧ ∃ d', t.crew? slot = some d' ∧
              (d'.thread l).st = .runnable ∧ (d'.thread l).trap = true ∧ (d'.thread l).pc = v ∧ (d'.thread l).trapaddr = f.addr ∧
              (d'.thread l).depth = (d.thread l).depth + 1 ∧
              (d'.thread l).trapinfo = BitVec.ofNat 8 (r.level * 16 + 5) ++ BitVec.ofNat 8 d.lost ++ (0 : BitVec 8) ++ r.code ∧
              ∀ n, n ≠ l → d'.thread n = d.thread n))) ∧
    (Posted s 23 c b → sets .dbgatt { s.context x with debugger := true }) ∧
    (Posted s 24 c b → sets .dbgdet { s.context x with debugger := false }) ∧
    (Posted s 25 c b → sets .dbgres { s.context x with held := false }) ∧
    (Posted s 26 c b → (16 ≤ x → Answers .ctxkill s (bad 16)) ∧
      (x < 16 → (∀ g ∈ s.rm.grids, g.ctx = x → g.done = 0) → (s.crews.map (·.1)).Nodup → Answers .ctxkill s fun t => ∃ u, ends [] u t ∧
        u.rm.grids = s.rm.grids.filter (fun g => g.ctx != x) ∧ u.rm.saved = s.rm.saved.filter (fun v => v.ctx != x) ∧
        (∀ slot d, s.crew? slot = some d → (d.ctx = x → u.crew? slot = none) ∧
          (d.ctx ≠ x → ∃ d', u.crew? slot = some d' ∧ d' = { d with ctrs := d'.ctrs } ∧ d'.ctrs.ctrs = d.ctrs.ctrs)) ∧
        u.mem = s.mem ∧ u.hostMem = s.hostMem ∧ u.cox = p.cox)) ∧
    (Posted s 27 c b → Answers .tlbinv s (ends [] (p.invalidate (BitVec.ofNat 64 (arg 16 8))))) ∧
    (Posted s 28 c b →
      let n := arg 18 1
      let r := arg 24 8
      let legal := fun (i w : Nat) =>
        let op := w % 128
        let f3 := w / 2 ^ 12 % 8
        let f7 := w / 2 ^ 25 % 128
        let jumps := fun (off limit : Nat) => 0 < off ∧ off < limit ∧ off % 4 = 0 ∧ i + off / 4 ≤ 16
        op = 0x37 ∨ (op = 0x13 ∧ (f3 = 1 → f7 = 0) ∧ (f3 = 5 → f7 = 0 ∨ f7 = 32)) ∨
        (op = 0x33 ∧ (f7 = 0 ∨ f7 = 32 ∧ (f3 = 0 ∨ f3 = 5))) ∨ (op = 0x03 ∧ (f3 < 3 ∨ f3 = 4 ∨ f3 = 5)) ∨ (op = 0x23 ∧ f3 < 3) ∨
        (op = 0x63 ∧ f3 ≠ 2 ∧ f3 ≠ 3 ∧ jumps (w / 2 ^ 8 % 16 * 2 + w / 2 ^ 25 % 64 * 32 + w / 2 ^ 7 % 2 * 2 ^ 11 + w / 2 ^ 31 % 2 * 2 ^ 12) (2 ^ 12)) ∨
        (op = 0x6F ∧ w / 2 ^ 7 % 32 = 0 ∧
          jumps (w / 2 ^ 21 % 1024 * 2 + w / 2 ^ 20 % 2 * 2 ^ 11 + w / 2 ^ 12 % 256 * 2 ^ 12 + w / 2 ^ 31 % 2 * 2 ^ 20) (2 ^ 20))
      let word := fun (i : Nat) => natOf (s.mem.read (r + 4 * i) 4)
      (16 ≤ x → Answers .rtninst s (bad 16)) ∧ (x < 16 → 64 ≤ arg 17 1 → Answers .rtninst s (bad 17)) ∧
      (x < 16 → arg 17 1 < 64 → n = 0 ∨ 16 < n → Answers .rtninst s (bad 18)) ∧
      (x < 16 → arg 17 1 < 64 → 0 < n → n ≤ 16 → (dramSize ≤ r → r < 2 ^ 63 → Answers .rtninst s (bad 24)) ∧
        (clear r (4 * n) → (∃ i < n, ¬legal i (word i)) → Answers .rtninst s (bad 24)) ∧
        (clear r (4 * n) → (∀ i < n, legal i (word i)) → Answers .rtninst s (ends [] (cox { p.cox with
          routines := Cells.put s.cox.routines (64 * x + arg 17 1) ((List.range n).map fun i => BitVec.ofNat 32 (word i)) }))))) ∧
    (Posted s 29 c b →
      (16 ≤ x → Answers .rtndel s (bad 16)) ∧ (x < 16 → 64 ≤ arg 17 1 → Answers .rtndel s (bad 17)) ∧
      (x < 16 → arg 17 1 < 64 →
        Answers .rtndel s (ends [] (cox { p.cox with routines := Cells.erase s.cox.routines (64 * x + arg 17 1) })))) ∧
    (Posted s 30 c b →
      let n := arg 20 2
      let r := arg 24 8
      let member := fun (i : Nat) => (s.mem.read (r + 4 * i) 4)
      (n = 0 ∨ 4096 < n → Answers .grpdef s (bad 20)) ∧
      (0 < n → n ≤ 4096 → dramSize ≤ r → r < 2 ^ 63 → Answers .grpdef s (bad 24)) ∧
      (0 < n → n ≤ 4096 → clear r (4 * n) →
        ((∃ g ∈ s.cox.groups, g.id = arg 16 4) → Answers .grpdef s busy) ∧
        ((∀ g ∈ s.cox.groups, g.id ≠ arg 16 4) → Answers .grpdef s (ends [] { cox { p.cox with groups := s.cox.groups ++
          [⟨arg 16 4, (List.range n).map fun i => (natOf (member i) / 4 % 2048, natOf (member i) % 4)⟩] } with
            dies := s.dies.map fun e => (e.1, { e.2 with collDone := e.2.collDone.filter fun k => k.1 != arg 16 4 }) })))) ∧
    (Posted s 31 c b →
      let queued := ∃ d < 4, ∃ m ∈ (s.die d).collq, m.group = arg 16 4
      ((∀ g ∈ s.cox.groups, g.id ≠ arg 16 4) → Answers .grpdel s (bad 16)) ∧
      ((∃ g ∈ s.cox.groups, g.id = arg 16 4) → queued → Answers .grpdel s busy) ∧
      ((∃ g ∈ s.cox.groups, g.id = arg 16 4) → ¬queued →
        Answers .grpdel s (ends [] (cox { p.cox with groups := s.cox.groups.filter fun g => g.id != arg 16 4 })))) ∧
    (Posted s 32 c b →
      let waits := fun (m : CollCmd) => m.group = arg 16 4 ∧ m.started = false ∧ m.seq = arg 20 4
      ((∀ g ∈ s.cox.groups, g.id ≠ arg 16 4) → Answers .grpcancel s (bad 16)) ∧
      ((∃ g ∈ s.cox.groups, g.id = arg 16 4) → (∀ d < 4, ∀ m ∈ (s.die d).collq, ¬waits m) → Answers .grpcancel s (ends [] p)) ∧
      (∀ d qa m qb v, (∃ g ∈ s.cox.groups, g.id = arg 16 4) → d < 4 → (s.die d).collq = qa ++ m :: qb → waits m →
        (∀ y ∈ qa ++ qb, ¬waits y) → (∀ e < 4, e ≠ d → ∀ y ∈ (s.die e).collq, ¬waits y) → s.crew? m.slot = some v → v.efault = none →
        (∀ l k n i, (v.thread l).st ≠ .waitTicket k n i) →
        Answers .grpcancel s fun t => (t.die d).collq = qa ++ qb ∧
          (∀ e, e ≠ d → t.die e = { s.die e with llc := (t.die e).llc, llcDirty := (t.die e).llcDirty }) ∧
          ∃ v', t.crew? m.slot = some v' ∧ v'.efault.map (·.code) = some 0x1C ∧ v'.threads = v.threads))

/-- R290, R291, R386 calls 33 to 47, R394, R401, R409, R415, R423, R426, R429, R433, R436, R437: ports are reported;
a slice map is set, or a slice retired, to act 1,024 c later; error counts are written out and cleared; sampling
starts and stops; the power limit, the log's base and mode and STOPCYC are set; temperatures, measurements,
their signature and the interface report are stored; an accepted firmware image goes to the spare flash slot.
The layouts of measurements and report, the new owners of a retired slice's buckets and the units of the error
counts are the model's (logs 42, 43, 44). -/
def Obligations.FleetCalls : Prop :=
  ∀ (s : State) (c : Call) (b : List Byte),
    let p := s.popCall c
    let arg := fun (off n : Nat) => blk b off n
    let ends := fun (results : List (Nat × List Byte)) (u t : State) => CallDone c.block.toNat 0 0 results u t
    let bad := fun (off : Nat) (t : State) => CallDone c.block.toNat 2 off [] p t
    let busy := fun (t : State) => CallDone c.block.toNat 6 0 [] p t
    let clear := fun (r n : Nat) => r + n ≤ dramSize ∧ (∀ l ∈ s.poison, l + 128 ≤ r ∨ r + n ≤ l) ∧ ∀ y < n, s.inOverflow (r + y) = false
    let f := s.fleet
    let fleet := fun (v : Fleet) => { p with fleet := v }
    let granted := fun (r n : Nat) => r + n ≤ dramSize ∧ ∀ y < n, s.inOverflow (r + y) = false
    let stores := fun (r : Nat) (data : List Byte) (t : State) => ∃ u, ends [] u t ∧
      u = { p with mem := u.mem, slices := u.slices, dies := u.dies, hostMem := u.hostMem } ∧
      (∀ n, u.die n = { s.die n with llc := (u.die n).llc, llcDirty := (u.die n).llcDirty }) ∧
      ((∀ n l, hostBase ≤ l → ((s.slice n).line l).dirty = false) → u.hostMem = s.hostMem) ∧
      ∀ y, u.mem.byte y = if r ≤ y ∧ y < r + data.length then data.getD (y - r) 0 else s.mem.byte y
    let r := arg 16 8
    let due := s.cycle + 1024
    (Posted s 33 c b → (16 ≤ arg 16 1 → Answers .rport s (bad 16)) ∧
      (arg 16 1 < 16 →
        let v := Cells.get (0, 0, 0) f.ports (arg 16 1)
        Answers .rport s (ends [(24, bytesOf 1 v.1), (26, bytesOf 2 v.2.1), (28, bytesOf 4 v.2.2)] p))) ∧
    (Posted s 34 c b →
      let d := arg 16 1
      let m := s.mem.read (arg 24 8) 768
      (4 ≤ d → Answers .mapset s (bad 16)) ∧
      (d < 4 → dramSize ≤ arg 24 8 → arg 24 8 < 2 ^ 63 → Answers .mapset s (bad 24)) ∧
      (d < 4 → clear (arg 24 8) 768 →
        ((∃ v ∈ m, 48 ≤ v.toNat) → Answers .mapset s (bad 24)) ∧
        ((∀ v ∈ m, v.toNat < 48) → (s.die d).pending ≠ none → Answers .mapset s busy) ∧
        ((∀ v ∈ m, v.toNat < 48) → (s.die d).pending = none → Answers .mapset s (ends [(32, bytesOf 8 due)]
          (p.setDie d { s.die d with pending := some ⟨m.map (·.toNat), ((s.die d).gen + 1) % 256, due⟩ }))))) ∧
    (Posted s 35 c b →
      let e := arg 16 2
      let d := s.die (e / 48)
      (192 ≤ e → Answers .slretire s (bad 16)) ∧
      (e < 192 → d.pending ≠ none → Answers .slretire s busy) ∧
      (e < 192 → d.pending = none → (s.slice e).serving = [] →
        (∀ x ∈ (s.slice e).lines, x.1 < hostBase → x.2.dirty = false) → (∃ k < 48, k ≠ e % 48 ∧ (s.slice (e / 48 * 48 + k)).retired = false) →
        Answers .slretire s fun t => ∃ u m, ends [(24, bytesOf 8 due)] u t ∧ u = { p with slices := u.slices, dies := u.dies } ∧
          u.slice e = { s.slice e with retired := true } ∧ (∀ n, n ≠ e → u.slice n = s.slice n) ∧
          (∀ n, n ≠ e / 48 → u.die n = s.die n) ∧ u.die (e / 48) = { d with pending := some ⟨m, (d.gen + 1) % 256, due⟩ } ∧
          m.length = 768 ∧ ∀ k < 768, if d.mapped k = e % 48
            then m.getD k 48 < 48 ∧ m.getD k 48 ≠ e % 48 ∧ (s.slice (e / 48 * 48 + m.getD k 48)).retired = false
            else m.getD k 48 = d.mapped k)) ∧
    (Posted s 36 c b →
      let n := min (arg 24 4 / 32) rasOrder.length
      let entry := fun (k : Nat) =>
        let q := rasOrder.getD k (0, 0)
        let v := Cells.get (0, 0, 0, 0) f.ras (4096 * q.1 + q.2)
        let soft := if q.1 = 7 then min 0xFFFFFFFF (s.core q.2).softErrors else v.1
        [BitVec.ofNat 8 q.1, 0] ++ bytesOf 2 q.2 ++ bytesOf 4 soft ++ bytesOf 4 v.2.1 ++ [0, 0, 0, 0] ++ bytesOf 8 v.2.2.1 ++ bytesOf 8 v.2.2.2
      (granted r (32 * n) → Answers .rasread s (stores r (((List.range n).map entry).flatten))) ∧
      (dramSize ≤ r → r < 2 ^ 63 → 0 < n → Answers .rasread s (bad 16))) ∧
    (Posted s 37 c b → Answers .rasclr s fun t => ∃ u, ends [] u t ∧ (∀ k, u.core k = { s.core k with softErrors := 0 }) ∧
      u = { p with fleet := { f with ras := [] }, cores := u.cores }) ∧
    (Posted s 38 c b →
      let size := arg 24 4
      let period := arg 28 4
      (r % 32 ≠ 0 ∨ dramSize ≤ r → Answers .smpstart s (bad 16)) ∧
      (r % 32 = 0 → r < dramSize → size % 32 ≠ 0 ∨ size < 64 ∨ 2 ^ 30 < size ∨ dramSize < r + size → Answers .smpstart s (bad 24)) ∧
      (r % 32 = 0 → r + size ≤ dramSize → size % 32 = 0 → 64 ≤ size → size ≤ 2 ^ 30 →
        (period < 16 ∨ 2 ^ 24 < period → Answers .smpstart s (bad 28)) ∧
        (16 ≤ period → period ≤ 2 ^ 24 → f.smpActive = true → Answers .smpstart s busy) ∧
        (16 ≤ period → period ≤ 2 ^ 24 → f.smpActive = false → Answers .smpstart s (ends [] (fleet { f with
          smpBase := due, smpHead := 0, smpDrop := 0, smpActive := true, smpBuf := r, smpSize := size, smpPeriod := period, smpK := 0 }))))) ∧
    (Posted s 39 c b → Answers .smpstop s (ends [(16, bytesOf 4 f.smpDrop)] (fleet { f with smpActive := false }))) ∧
    (Posted s 40 c b → (arg 16 4 < 600 ∨ 2600 < arg 16 4 → Answers .pwrcap s (bad 16)) ∧
      (600 ≤ arg 16 4 → arg 16 4 ≤ 2600 → Answers .pwrcap s (ends [] (fleet { f with pwrcap := arg 16 4 })))) ∧
    (Posted s 41 c b → Answers .therm s fun t => ∃ l u, l.length = 16 ∧ ends [(16, l)] u t ∧ u = { p with fresh := u.fresh }) ∧
    (Posted s 42 c b → (2 < arg 24 1 → Answers .rplcfg s (bad 24)) ∧
      (arg 24 1 ≤ 2 → Answers .rplcfg s (ends [] { p with rpl := { s.rpl with base := r / 2 ^ 30 % 2 ^ 22, mode := arg 24 1 } }))) ∧
    (Posted s 43 c b → Answers .stopset s (ends [] { p with rpl := { s.rpl with stopcyc := r, armed := true } })) ∧
    (Posted s 44 c b → (arg 24 1 = 0 ∨ 5 < arg 24 1 → Answers .attmeas s (bad 24)) ∧
      (granted r 64 →
        (arg 24 1 = 2 → Answers .attmeas s (stores r (bytesOf 64 s.boot.meas2.toNat))) ∧
        (arg 24 1 = 5 → Answers .attmeas s (stores r (bytesOf 64 s.boot.meas5.toNat))) ∧
        (1 ≤ arg 24 1 → arg 24 1 ≤ 5 → Answers .attmeas s (stores r (bytesOf 64 (s.measurement (arg 24 1)).toNat))))) ∧
    (Posted s 45 c b →
      let sig := Config.leafSign s.boot.meas2 (Config.sha512 ((b.drop 16).take 32 ++ s.measurements))
      granted (arg 48 8) sig.length → Answers .attsign s (stores (arg 48 8) sig)) ∧
    (Posted s 46 c b → granted r s.interfaceReport.length → Answers .tdireport s (stores r s.interfaceReport)) ∧
    (Posted s 47 c b →
      (dramSize ≤ r → r < 2 ^ 63 → 0 < arg 24 4 → Answers .fwstage s (bad 16)) ∧
      (clear r (arg 24 4) →
        let image := s.mem.read r (arg 24 4)
        Answers .fwstage s fun t => (firmwareAccepted s.boot.minSvn image = true → ends [] { p with cox := { p.cox with flash := image } } t) ∧
          (firmwareAccepted s.boot.minSvn image = false → bad 16 t)))

/-! ## The machine as a whole -/

/-- R167, R130, R132 to R135: decoding the word of a well-formed instruction gives that instruction, with every operand at every value
the encoding admits. -/
def Obligations.DecodeOfEncode : Prop :=
  ∀ (i : Instr) (w : BitVec 32), i.wellFormed = true → encode i = some w → decode w = .ok i

/-- R129 to R141, R167: an instruction that the decoder reads from a word is well formed and its word is that one, so that no bit of
a decoded word is dropped and no two words mean the same. -/
def Obligations.EncodeOfDecode : Prop :=
  ∀ (i : Instr) (w : BitVec 32), decode w = .ok i → i.wellFormed = true ∧ encode i = some w

/-- Every step of the package keeps the memories of package and host in canonical form, from every state. -/
def Obligations.StepKeepsMemories : Prop := ∀ (s t : State), s.Inv → step s = .next t → t.Inv

/-- R23, R72, R272, R276, R327, R328, R342, R384, R391, R396, R409, R426, R433, R436: what the spec says the machine holds at reset
release. -/
def Obligations.ResetValues : Prop :=
  let s := State.reset
  s.Inv ∧ s.cycle = 0 ∧ (∀ a, s.mem.byte a = 0) ∧ (∀ a, s.poisoned a = false) ∧ (∀ n, s.crew? n = none) ∧
  (∀ r i, (∀ n, r ≠ .crew n) → ((s.home r).ctr i).live = false ∧ ((s.home r).ctr i).gen = 0) ∧
  (∀ d b, (s.die d).mapped b = b % 48 ∧ (s.die d).pages = 0) ∧ (∀ n l, ((s.slice n).line l).present = false) ∧
  (∀ q, s.queue q = ⟨false, false, 0, 0, [], [], [], 0⟩) ∧ s.rm.serial = 0 ∧ s.rm.grids = [] ∧
  (∀ x, (s.context x).pool = 0 ∧ (s.context x).pcrews = 0 ∧ (s.context x).slice = 0 ∧ (s.context x).root = 0 ∧
    (s.context x).priv = false ∧ (s.context x).replay = false ∧ (s.context x).img = 0) ∧
  s.boot.stage = 0x81 ∧ s.boot.recov = false ∧ s.boot.tdi = .unlocked ∧ s.boot.meas5 = 0 ∧
  s.readCox 0x08 = some 0 ∧ s.cox.head = 0 ∧ s.cox.tail = 0 ∧ s.cox.moduleNo = 0 ∧
  s.rpl.rplctl = 0 ∧ s.rpl.base = 0 ∧ s.rpl.head = 0 ∧ s.rpl.dcycle = 0 ∧ s.rpl.xmode = 1 ∧ s.rpl.stopcyc = 2 ^ 64 - 1 ∧
  s.rpl.frozen = false ∧ s.rpl.cause = 0 ∧ s.rpl.epoch = 0 ∧ s.rpl.sysoff = 0 ∧
  s.fleet.smpBase = 0 ∧ s.fleet.smpHead = 0 ∧ s.fleet.smpDrop = 0 ∧ s.fleet.smpActive = false ∧ s.fleet.pwrcap = 2600

/-- R36, R42, R43, R127, R131, R185: when a resident crew may issue, nothing holds its word and its waiting period is the
earliest of its subcore, a step fetches the four
bytes at the code base plus the head run's PC, little-endian, and is exec of the instruction they decode to,
over the run's lanes, followed only by what goes with every step (`settled`: the lines that walkers read used at their homes, slice timers, image credit, egress
digests, due events). Which crew a step issues, and the cycles it lets pass, are the model's (logs 1, 2). -/
def Obligations.StepRunsTheWord : Prop :=
  ∀ (s s1 : State) (slot pa : Nat) (rest : List Move) (c : Crew) (pc : Word) (w : BitVec 32) (i : Instr),
    s.agenda = .issue slot :: rest →
    let s0 := ({ s with agenda := rest } : State).refresh
    let core := coreOf slot
    let lanes := c.runAt pc
    s0.running = true → (s0.core core).preempt = false → (s0.core core).stopped = false → (s0.core core).ldet = false →
    (s0.context c.ctx).held = false → c.startAt ≤ s0.cycle → (s0.sub (slot / 8)).forced = none → s0.crew? slot = some c →
    earliestOf (s0.subCrews (slot / 8)) = some slot → c.fetched = none → c.lowestPc = some pc → (∀ l ∈ lanes, l ∉ c.badLanes) → c.codeAddr pc % 4 = 0 →
    s0.codePlace slot c (c.codeAddr pc) = (.ok pa, s1) → pa % 4 = 0 → pa < dramSize → Cells.find (s1.core core).icache (pa / 128 * 128) = none →
    natOf (s.mem.read pa 4) = w.toNat → decode w = .ok i → (s1.codeWord core pa).2.holdOf slot c lanes i = none →
    ∃ t, step s = settled s.cycle (exec i t) ∧ t.cur = ⟨slot, lanes⟩ ∧ t.mem = s.mem ∧ t.hostMem = s.hostMem ∧ t.cycle = s.cycle ∧
      (∀ k, k ≠ slot → (t.crew? k).map (fun d => { d with period := none }) = (s.crew? k).map fun d => { d with period := none }) ∧
      ∃ c', t.crew? slot = some c' ∧ c' = { c with fetched := none, steps := c'.steps, period := c'.period }

/-- R143 to R165 and the worked examples' encoding tables: words written out there decode to the instruction they stand for, and the
three undefined ones to none. -/
def Obligations.KnownWordsDecode : Prop :=
  decode 0x08165801 = .ok (.addImm 0 22 22 1) ∧ decode 0x10155141 = .ok (.shl32Imm 0 21 20 1) ∧
  decode 0x04145150 = .ok (.addI32 0 20 20 21) ∧ decode 0x0C545330 = .ok (.addI64 1 20 20 51) ∧
  decode 0x14184100 = .ok (.mullo 0 24 16 16) ∧ decode 0x1C114884 = .ok (.icmpReg 0 17 18 2 0 1) ∧
  decode 0x1C100710 = .ok (.icmpImm 0 16 1 4 0 16) ∧ decode 0x20125678 = .ok (.movi 0 18 0x5678) ∧
  decode 0x2C0300C0 = .ok (.elect 0 3) ∧ decode 0x507FFFD9 = .ok (.bra 1 0x3FFFD9) ∧ decode 0x58140000 = .ok (.brx 0 20) ∧
  decode 0x5E400000 = .ok (.exit 9) ∧ decode 0x5C000100 = .ok (.eret 0) ∧ decode 0x60248854 = .ok (.ldN8 0 36 34 0x54) ∧
  decode 0x641ACA00 = .ok (.st32 0 26 50 0) ∧ decode 0x6C165010 = .ok (.atomAdd 0 22 20 0 1) ∧
  decode 0x7028A880 = .ok (.scadd 0 40 42 1) ∧ decode 0x78000003 = .ok (.fence 0 3) ∧ decode 0x8833C800 = .ok (.cwait 0 51 50) ∧
  decode 0x84C0CD01 = .ok (.caddImm 3 51 1) ∧ decode 0x8C000200 = .ok (.xcopyK 0) ∧ decode 0x9000D100 = .ok (.mxtab 0 52 0) ∧
  decode 0x94006801 = .ok (.obres 0 26 1) ∧ decode 0xA4102000 = .ok (.sand 2 0 1) ∧ decode 0xA81B0094 = .ok (.sregen 3 3 5) ∧
  decode 0xC0006841 = .ok (.csrw 0 26 0x041) ∧ decode 0xFC001234 = .ok (.immx 0x1234) ∧
  decode? 0x18000008 = none ∧ decode? 0x52000000 = none ∧ decode? 0xA4502000 = none

/-! ## Three rules stated whole -/

/-- R58: a 32-bit source that names %k reads bits [31:0] of it; a 32-bit result clears bits [63:32]; a 64-bit one writes all; and
the rule's example, which reads %k3 whole. %k0 reads 0. -/
def Obligations.UniformRegisterWidths : Prop :=
  (∀ (c : Crew) (t : Thread) (f : Reg) (v : DWord), 48 ≤ f.toNat →
    let k := f.toNat - 48
    c.read32 t f = BitVec.ofNat 32 ((c.kreg k).toNat % 2 ^ 32) ∧ c.read64 t f = c.kreg k ∧
    (f = 48 → c.kreg k = 0 ∧ ∀ wide n, (c.writeK f wide v).kreg n = c.kreg n) ∧
    (f ≠ 48 → (c.writeK f false v).kreg k = BitVec.ofNat 64 (v.toNat % 2 ^ 32) ∧ (c.writeK f true v).kreg k = v ∧
      ∀ wide n, n ≠ k → (c.writeK f wide v).kreg n = c.kreg n)) ∧
  decode 0x0C545330 = .ok (.addI64 1 20 20 51)

/-- R354: clearing CLD or PLD after the link is up again ends LINKDOWN for that path (which the interface lock holds for the CXL
path by another rule, R398); nothing is re-sent and no entry of the log is replayed: nothing else changes. -/
def Obligations.LinkdownEnds : Prop :=
  ∀ (s : State) (w : BitVec 64), s.boot.tdi = .unlocked → Answers (.linkstatClear w) s fun t =>
    (w.getLsbD 0 = true → s.links.pup = true → t.linkdown false = false) ∧
    (w.getLsbD 1 = true → s.links.cup = true → t.linkdown true = false) ∧
    (w.getLsbD 0 = false ∨ s.links.pup = false → t.linkdown false = s.linkdown false) ∧
    (w.getLsbD 1 = false ∨ s.links.cup = false → t.linkdown true = s.linkdown true) ∧
    t = { s with links := { s.links with pld := t.links.pld, cld := t.links.cld } }

/-- R420: while the interface is not unlocked, every SCANCMD write is dropped with code 6, whoever makes it, and a write to STOPCYC
or RPLCTL is one to a frozen register: not applied, and the interface goes from CONFIG_LOCKED or RUN to ERROR. -/
def Obligations.ScansUnderLock : Prop :=
  ∀ (s : State) (w : BitVec 64) (tee : Bool) (a : Arrival) (off : Nat), s.boot.tdi ≠ .unlocked → s.boot.stage = 0 →
    s.boot.lockstep = false → s.rpl.arrivals = [a] →
    (s.rpl.frozen = true ∨ s.fleet.clockStopped = false ∧ a.cycle + 33 ≤ s.cycle) →
    let s1 := { s with rpl := { s.rpl with arrivals := [] } }
    let answers := fun (t : State) => t.egress = s.egress ∨ ∃ x, t.egress = s.egress ++ [x]
    (∀ h i, i = .scanOut h ∨ i = .scanIn h ∨ i = .release → Answers i s fun t => t = { s with rpl := { s.rpl with scanCode := 6 } }) ∧
    (a.access = .bar0Write 0x300040 w tee → Answers .arrivalPresent s fun t => answers t ∧
      t = { s1 with rpl := { s1.rpl with scanCode := 6 }, egress := t.egress }) ∧
    (a.access = .bar0Write off w tee → off = 0x300000 ∨ off = 0x300030 →
      (s.boot.tdi = .locked ∨ s.boot.tdi = .run → Answers .arrivalPresent s fun t => answers t ∧
        t = { s1 with boot := { s.boot with tdi := .error }, cox := t.cox, egress := t.egress } ∧
        ∃ e, t.cox.events = s.cox.events ++ [e] ∧ e.kind = 13) ∧
      (s.boot.tdi = .error → Answers .arrivalPresent s fun t => answers t ∧ t = { s1 with egress := t.egress }))

/-! ## Where forms complete, on conditions that can be read off the state -/

/-- R185, R187 to R189, R192, R194: for a run with no pending IMMX, BRA, EXIT and YIELD take each active lane to the target, out,
and on; CALL and RET do where each active lane may move its window; BRX and CALLX of one active lane go to a target that
`Claim.IndirectBranchTargets` admits. No byte of any space changes. -/
def Claim.BranchesComplete : Prop :=
  ∀ (s : State) (c : Crew) (g : Guard) (i : BitVec 22) (x : Reg), s.Runs c → s.Plain c →
    let act := s.activeLanes c g
    let goes := fun (w : Instr) (p : Thread → Thread → Prop) => Answers w s fun t => (∀ sp a, t.byteAt sp a = s.byteAt sp a) ∧
      ∃ c', t.crew? s.cur.slot = some c' ∧ ∀ l ∈ act, p (c.thread l) (c'.thread l)
    let mayCall := fun (t : Thread) => t.trap = false ∧ t.depth + 2 ≤ 5 + t.lo ∧ t.depth ≤ 1020
    let called := fun (t t1 : Thread) => t1.depth = t.depth + 1 ∧ t1.get (t1.entry 31) = t.pc + 4
    goes (.bra g i) (fun t t1 => t1.pc = t.pc + i.signExtend 32 * 4) ∧
    ((∀ l ∈ act, mayCall (c.thread l)) → goes (.call g i) fun t t1 => t1.pc = t.pc + i.signExtend 32 * 4 ∧ called t t1) ∧
    ((∀ l ∈ act, (c.thread l).trap = false ∧ (c.thread l).lo < (c.thread l).depth ∧
        ((c.thread l).get ((c.thread l).entry 31)).toNat % 4 = 0) →
      goes (.ret g) fun t t1 => t1.pc = t.get (t.entry 31) ∧ t1.depth + 1 = t.depth) ∧
    goes (.exit g) (fun _ t1 => t1.st = .exited) ∧
    goes (.yield g) (fun t t1 => t1.pc = t.pc + 4) ∧
    ∀ l pc, act = [l] →
      ((s.landing s.cur.slot c (c.read64 (c.thread l) x) 0).1 = .ok pc → goes (.brx g x) fun _ t1 => t1.pc = pc) ∧
      ((s.landing s.cur.slot c (c.read64 (c.thread l) x) 1).1 = .ok pc → mayCall (c.thread l) →
        goes (.callx g x) fun t t1 => t1.pc = pc ∧ called t t1)

/-- R199, R201, R202, R440: a crew's only step, of one lane, whose read has come back, ends: ERET's lane resumes where its record
says, FILLF's goes on with LO one lower, LAUNCH's goes on and its record joins a child list. -/
def Claim.StepReturnsComplete : Prop :=
  ∀ (s : State) (slot l : Nat) (c : Crew) (p : Pending) (b : List Byte),
    s.crew? slot = some c → c.steps = [p] → p.lanes = [l] → p.due = [] → p.got = [(l, .bytes b)] → l < c.threads.length →
    (c.thread l).outside = true →
    let word := fun (off : Nat) => BitVec.ofNat 32 (natOf ((b.drop off).take 4))
    let ends := fun (i : Instr) (q : State → Thread → Prop) => Answers i s fun t =>
      ∃ c', t.crew? slot = some c' ∧ c'.steps = [] ∧ (c'.thread l).outside = false ∧ q t (c'.thread l)
    (p.kind = .eret → (word 16).toNat % 4 = 0 → natOf ((b.drop 24).take 1) < 32 →
      ends (.eretRecordReturn slot) fun _ t1 => t1.pc = word 16 ∧ t1.trap = false ∧ t1.depth = (c.thread l).depth - 1) ∧
    (p.kind = .fillf → ends (.fillfReturn slot) fun _ t1 => t1.pc = (c.thread l).pc + 4 ∧ t1.lo = (c.thread l).lo - 1) ∧
    ∀ a g, p.kind = .launch a → s.rm.grids = [g] → g.serial = c.grid.toNat → ends (.launchRecordReturn slot) fun t t1 =>
      t1.pc = (c.thread l).pc + 4 ∧
      (t.queue g.queue).children.map (·.bits) = (s.queue g.queue).children.map (·.bits) ++ [BitVec.ofNat 512 (natOf b)]

/-- R206, R218, R222, R225, R284, R287, R290, R292: requests at slices and decks: a NACK and both resends move the request, a load
that misses is recorded and its fill answers it, an atomic add and a routine of one word that stand first are applied and answered,
a deck answers its oldest load, a slice sends its oldest multicast list. -/
def Claim.RequestsComplete : Prop :=
  ∀ (s : State) (n core slot id : Nat) (c : Crew) (q : Req), s.crew? slot = some c →
    let v := s.slice n
    let sent := fun (m : Msg) (t : State) => Cells.find t.msgs s.nextId = some m
    (∀ rest, s.slices = [(n, v)] → v.ingress = q :: rest → q.id = id → q.core = core →
      Answers (.nack core id) s fun t => (t.slice n).ingress = rest ∧
        (t.core core).retry.map (·.req.id) = (s.core core).retry.map (·.req.id) ++ [id]) ∧
    (∀ r, (s.core core).retry = [r] → r.req.id = id → r.req.core = core → r.due ≤ s.cycle → (s.slice (s.firstSlice r.req)).ingress = [] →
      Answers (if r.remap = true then .remapNack core id else .retryResend core id) s fun t => (t.core core).retry = [] ∧
        (t.slice (s.firstSlice r.req)).ingress.map (·.id) = [id]) ∧
    (n = s.homeSlice q.line → q.line < hostBase → q.line % 128 = 0 → (v.line q.line).present = false → v.serving = [] →
      q.kind = .load slot id false →
      (v.off = false → v.ingress = [q] → v.mshr = [] → Answers (.sliceRequest n) s fun t =>
        (t.slice n).ingress = [] ∧ (t.slice n).mshr = [(q.line, [q])]) ∧
      (v.mshr = [(q.line, [q])] → q.line ∉ s.poison → Answers (.lineFill n q.line none) s fun t =>
        (t.slice n).mshr = [] ∧ sent (.load slot id (.bytes (s.bytesAt .global q.line 128))) t)) ∧
    (∀ e i, v.serving = [⟨q⟩] → q.kind = .entry slot e.id → c.entry? e.id = some e → e.items = [i] → e.line % 128 = 0 →
      e.line + 128 ≤ hostBase → n = s.homeSlice e.line → e.line ∉ s.poison → v.replay = [] →
      (e.op = .atom 0 false true → e.size = 4 → e.line ≤ i.addr → i.addr + 4 ≤ e.line + 128 → Answers (.sliceAtomic n) s fun t =>
        (t.slice n).serving = [] ∧ sent (.atomic slot e.id [(i.lane, BitVec.ofNat 64 (natOf (s.bytesAt .global i.addr 4)))] none) t ∧
        t.bytesAt .global i.addr 4 = bytesOf 4 ((natOf (s.bytesAt .global i.addr 4) + i.data.toNat % 2 ^ 32) % 2 ^ 32)) ∧
      ∀ r, e.op = .atomr r → Cells.find s.cox.routines (64 * c.ctx + r) = some [0x00150513] → Answers (.atomrRoutine n) s fun t =>
        (t.slice n).serving = [] ∧ sent (.atomic slot e.id [(i.lane, (i.data.setWidth 32 + 1).setWidth 64)] none) t) ∧
    (∀ l, (s.core core).deckq = [.load slot l.id] → c.loads = [l] → l.space = .deck core → (s.core core).badDeck = [] →
      Answers (.deckRequest core) s fun t => (t.core core).deckq = [] ∧
        sent (.load slot l.id (.partly (s.bytesAt (.deck core) l.line 128) [])) t) ∧
    ∀ line dst doff lts, v.mcast = [⟨line, [(slot, id, lts)], [(id, dst, doff)]⟩] → line ∉ s.poison → line % 128 = 0 →
      line + 128 ≤ hostBase → Answers (.multicastResponse n) s fun t => (t.slice n).mcast = [] ∧ sent (.ack slot id 0) t

/-- R231, R236 to R238, R241, R245: with nothing older to wait for on a core that no request to stop has reached, a one-row copy
between places of the accumulator store moves its row, a carousel of such rows reads FILLED and moves an item, a command that
names no counter ends once moved, an item's end adds to FILLED, a matrix command without bias starts and, once done, ends; the
engines of a core with nothing queued stop at once for pre-emption. -/
def Claim.EngineFormsComplete : Prop :=
  (∀ (s : State) (core chan : Nat) (c : Crew) (slot : Nat), s.crew? slot = some c → coreOf slot = core → c.fifo = [] → c.early = [] →
    c.done = [0, 0, 0] → (s.core core).preempt = false → (s.core core).stopped = false → (s.core core).badAcc = [] →
    (s.core core).beats = [] → s.cores = [(core, s.core core)] → s.links.pcie = [] →
    (∀ cmd, (s.core core).channel chan = [cmd] → cmd.slot = slot → cmd.ticket = 1 → cmd.held = none → cmd.part = none →
      cmd.pcieWrites = false →
      let b := copyBlock cmd.block
      let head := fun (p : CopyCmd → Prop) (t : State) => ∃ x, (t.core core).channel chan = [x] ∧ p x
      (b.car = false → cmd.moved = false → cmd.row = 0 → b.srck = 1 → b.dstk = 1 → b.c1 = 1 → b.c2 = 1 → b.c3 = 1 →
        Answers (.copyCommandStart core chan) s (head fun x => x.moved = true ∧ x.row = 1)) ∧
      (b.car = false → cmd.moved = true → cmd.cnt = 0 → Answers (.copyCommandComplete core chan) s fun t =>
        (t.core core).channel chan = [] ∧ ∃ c', t.crew? slot = some c' ∧ c'.done = [1, 0, 0]) ∧
      (∀ k h, b.car = true → s.reach slot c b.cnt = some (.core core) → s.reach slot c b.freed = some (.core core) →
        (s.core core).ctrs = h → (h.stale b.cnt = false ∧ h.stale b.freed = false) → h.waiters = [] → h.served = (k, 0) → k < s.cycle →
        cmd.moved = false →
        (cmd.started = false → Answers (.copyCommandStart core chan) s
          (head fun x => x.started = true ∧ x.i0 = (h.ctr (handleIndex b.cnt)).value)) ∧
        (cmd.started = true → cmd.itemMoved = false → cmd.waiting = false → cmd.row = 0 → b.split = 0 → b.srck = 1 → b.dstk = 1 →
          cmd.i0 + cmd.item + 1 ≤ (h.ctr (handleIndex b.freed)).value + b.c3 →
          Answers (.carouselItemStart core chan) s (head fun x => x.itemMoved = true ∧ x.row = 0)) ∧
        (cmd.itemMoved = true → (h.ctr (handleIndex b.cnt)).value < 2 ^ 64 - 1 → Answers (.carouselItemDone core chan) s fun t =>
          head (fun x => x.itemMoved = false ∧ x.item = cmd.item + 1) t ∧
          ((t.core core).ctrs.ctr (handleIndex b.cnt)).value = (h.ctr (handleIndex b.cnt)).value + 1))) ∧
    (∀ cmd, (s.core core).matrixq = [cmd] → cmd.slot = slot → cmd.ticket = 1 → cmd.held = none → cmd.table = none →
      cmd.pcieWrites = false →
      let b := mxBlock cmd.block
      (cmd.started = false → cmd.bias = [] → b.ctrl.testBit 1 = false → Answers (.mxcmdStart core) s fun t =>
        (t.core core).matrixq = [{ cmd with started := true }]) ∧
      (cmd.started = true → cmd.done = true → b.cnt = 0 → Answers (.mxcmdComplete core) s fun t =>
        (t.core core).matrixq = [] ∧ ∃ c', t.crew? slot = some c' ∧ c'.done = [0, 1, 0]))) ∧
  ∀ (s : State) (n : Nat), (s.core n).preempt = true → (s.core n).stopped = false → (s.core n).streamq = [] → (s.core n).copyq = [] →
    (s.core n).matrixq = [] → Answers (.engineSplitStop n) s fun t => (t.core n).stopped = true

/-- R27, R30, R53, R193, R321, R324 to R326, R331: with one queue and one record that passes every check the record becomes a grid and
starts; a grid that depends on nothing more starts; one whose counter was freed is dropped; a started grid whose teams have ended
retires; its team is dispatched to core 0 when every core is free; a crew that has nothing left is released, and one of a
pre-empted core that is settled is saved. -/
def Claim.LaunchFormsComplete : Prop :=
  ∀ (s : State),
    (∀ q v r, s.rm.queues = [(q, v)] → v.children = [] → v.records = [r] → s.rm.grids = [] →
      let f := launchOf r.bits
      f.reserved = false → f.streams ≤ 8 → f.deck ≤ 4096 * 128 → f.crews * f.streams ≤ 32 → f.teams ≠ 0 → f.cluster = false →
      f.done = 0 → f.deps = [] → f.crews ≤ (s.context v.ctx).pcrews → Answers .launchRecordCheck s fun t =>
        (t.queue q).records = [] ∧ ∃ g, t.rm.grids = [g] ∧ g.started = true ∧ g.bits = r.bits ∧ g.serial = s.rm.serial) ∧
    (∀ g, s.rm.grids = [g] →
      (g.started = false → g.unmet = [] → Answers (.gridStart g.serial) s fun t => t.rm.grids = [{ g with started := true }]) ∧
      (∀ d n, g.started = false → g.unmet = [d] → s.depWake g.serial d.1 = some (n, true) →
        Answers (.gridDependenceStale g.serial) s fun t => t.rm.grids = []) ∧
      (g.started = true → (launchOf g.bits).teams = g.exited → g.parent = none → s.rm.queues = [] →
        Answers (.gridRetire g.serial) s fun t => t.rm.grids = []) ∧
      (let f := launchOf g.bits
       g.started = true → g.dispatched < f.teams → f.cluster = false → 1 ≤ f.crews → f.crews ≤ 32 → f.crews * f.streams ≤ 32 →
       f.deck ≤ 4096 * 128 → s.rm.areas = [] → f.crews ≤ (s.context g.ctx).pcrews → (s.context g.ctx).held = false →
       (s.context g.ctx).saving = false → s.rm.saved = [] → s.crews = [] → (s.core 0).freeAt ≤ s.cycle → (s.core 0).placed = [] →
       Answers .teamDispatch s fun t => t.rm.grids = [{ g with dispatched := g.dispatched + 1 }] ∧
         ∃ c, t.crew? 0 = some c ∧ c.grid = BitVec.ofNat 32 g.serial ∧ c.team = g.dispatched ∧ c.crew = 0 ∧
           ∀ l, l < 64 → (c.thread l).pc = f.entry ∧ (c.thread l).st = .runnable)) ∧
    ∀ slot c, s.crews = [(slot, c)] → (s.core (coreOf slot)).streamq = [] → c.fifo = [] → c.ctrOps = [] → s.rm.saved = [] →
      (c.threads.all (fun t => t.st == .exited) = true → c.done = c.issued → Answers (.crewRelease slot) s fun t => t.crews = []) ∧
      (c.threads.any (fun t => t.st != .exited) = true → (s.core (coreOf slot)).preempt = true → (s.core (coreOf slot)).stopped = true →
        (s.core (coreOf slot)).deckq = [] → (s.core (coreOf slot)).beats = [] → c.loads = [] → c.steps = [] → s.msgs = [] →
        s.links.pcie = [] → (s.die (dieOf (coreOf slot))).collq = [] → s.cores = [(coreOf slot, s.core (coreOf slot))] → c.cluster = false →
        Answers (.crewSave slot) s fun t => t.crews = [] ∧ ∃ u w, t.rm.saved = [u] ∧ u.crews = [w] ∧ w.oldSlot = slot ∧ w.crew.regsAs c)

/-- `Claim.BranchesComplete`, `Claim.StepReturnsComplete`, `Claim.RequestsComplete`, `Claim.EngineFormsComplete` and
`Claim.LaunchFormsComplete` together; their docstrings name the rules. -/
def Obligations.FormsComplete : Prop :=
  Claim.BranchesComplete ∧ Claim.StepReturnsComplete ∧ Claim.RequestsComplete ∧ Claim.EngineFormsComplete ∧ Claim.LaunchFormsComplete
end

