-- ==== Sys2Proof/Laws/Cells.lean ====
section
/-! SUPPORT. The laws of sparse tables: reading after writing, and that every operation keeps the canonical form. -/

namespace Sys2Proof.Machine

variable {α : Type}

@[simp] theorem Cells.find_erase (m : List (Nat × α)) (k j : Nat) :
    Cells.find (Cells.erase m k) j = if j = k then none else Cells.find m j := by
  induction m with
  | nil => simp [Cells.erase, Cells.find]
  | cons e t ih =>
    by_cases h : e.1 = k
    · by_cases hj : j = k
      · subst hj; simpa [Cells.erase, h] using ih
      · have : ¬ k = j := fun h' => hj h'.symm
        simp [Cells.erase, Cells.find, h, ih, hj, this]
    · by_cases hj : j = k
      · subst hj; simp [Cells.erase, Cells.find, h, ih]
      · simp [Cells.erase, Cells.find, h, ih, hj]

theorem Cells.find_insert (m : List (Nat × α)) (k j : Nat) (v : α) (h : Cells.find m k = none) :
    Cells.find (Cells.insert k v m) j = if j = k then some v else Cells.find m j := by
  induction m with
  | nil => by_cases hj : j = k <;> simp [Cells.insert, Cells.find, eq_comm, hj]
  | cons e t ih =>
    have hne : e.1 ≠ k := by
      intro he; simp [Cells.find, he] at h
    have ht : Cells.find t k = none := by simpa [Cells.find, hne] using h
    by_cases hl : e.1 < k
    · by_cases he : e.1 = j
      · have : j ≠ k := he ▸ hne
        have hl' : j < k := he ▸ hl
        simp [Cells.insert, Cells.find, he, this, hl']
      · simp [Cells.insert, Cells.find, hl, he, ih ht]
    · by_cases hj : j = k
      · simp [Cells.insert, Cells.find, hl, hj]
      · have : ¬ k = j := fun h' => hj h'.symm
        simp [Cells.insert, Cells.find, hl, this, hj]

@[simp] theorem Cells.find_put (m : List (Nat × α)) (k j : Nat) (v : α) :
    Cells.find (Cells.put m k v) j = if j = k then some v else Cells.find m j := by
  rw [Cells.put, Cells.find_insert _ _ _ _ (by simp)]
  by_cases h : j = k <;> simp [h]

@[simp] theorem Cells.get_put (d : α) (m : List (Nat × α)) (k j : Nat) (v : α) :
    Cells.get d (Cells.put m k v) j = if j = k then v else Cells.get d m j := by
  by_cases h : j = k <;> simp [Cells.get, h]

@[simp] theorem Cells.get_set [DecidableEq α] (d : α) (m : List (Nat × α)) (k j : Nat) (v : α) :
    Cells.get d (Cells.set d m k v) j = if j = k then v else Cells.get d m j := by
  unfold Cells.set
  by_cases hv : v = d
  · by_cases h : j = k <;> simp [Cells.get, h, hv]
  · simp [hv]

@[simp] theorem Cells.find_nil (k : Nat) : Cells.find ([] : List (Nat × α)) k = none := rfl
@[simp] theorem Cells.get_nil (d : α) (k : Nat) : Cells.get d [] k = d := rfl

theorem Cells.erase_erase (m : List (Nat × α)) (k : Nat) : Cells.erase (Cells.erase m k) k = Cells.erase m k := by
  induction m with
  | nil => rfl
  | cons e t ih => by_cases h : e.1 = k <;> simp [Cells.erase, h, ih]

theorem Cells.erase_insert (m : List (Nat × α)) (k : Nat) (v : α) (h : Cells.find m k = none) :
    Cells.erase (Cells.insert k v m) k = m := by
  induction m with
  | nil => simp [Cells.insert, Cells.erase]
  | cons e t ih =>
    have hne : e.1 ≠ k := by intro he; simp [Cells.find, he] at h
    have ht : Cells.find t k = none := by simpa [Cells.find, hne] using h
    have hid : Cells.erase t k = t := by
      clear ih h
      induction t with
      | nil => rfl
      | cons f u ih =>
        have hf : f.1 ≠ k := by intro he; simp [Cells.find, he] at ht
        have hu : Cells.find u k = none := by simpa [Cells.find, hf] using ht
        simp [Cells.erase, hf, ih hu]
    by_cases hl : e.1 < k
    · simp [Cells.insert, hl, Cells.erase, hne, ih ht]
    · simp [Cells.insert, hl, Cells.erase, hne, hid]

@[simp] theorem Cells.put_put (m : List (Nat × α)) (k : Nat) (v w : α) :
    Cells.put (Cells.put m k v) k w = Cells.put m k w := by
  unfold Cells.put
  rw [Cells.erase_insert _ _ _ (by simp)]

/-! ## The canonical form -/

theorem Cells.above_mono {b b' : Nat} (h : b ≤ b') (m : List (Nat × α)) (hm : Cells.above b' m = true) :
    Cells.above b m = true := by
  cases m with
  | nil => rfl
  | cons e t =>
    simp only [Cells.above, Bool.and_eq_true, decide_eq_true_eq] at hm ⊢
    exact ⟨by omega, hm.2⟩

theorem Cells.above_tail {b : Nat} {e : Nat × α} {t : List (Nat × α)} (h : Cells.above b (e :: t) = true) :
    Cells.above b t = true := by
  simp only [Cells.above, Bool.and_eq_true, decide_eq_true_eq] at h
  exact Cells.above_mono (by omega) t h.2

theorem Cells.above_erase (b k : Nat) (m : List (Nat × α)) (h : Cells.above b m = true) :
    Cells.above b (Cells.erase m k) = true := by
  induction m generalizing b with
  | nil => rfl
  | cons e t ih =>
    by_cases he : e.1 = k
    · simp only [Cells.erase, he, if_true]
      exact ih b (Cells.above_tail h)
    · simp only [Cells.erase, he, if_false]
      simp only [Cells.above, Bool.and_eq_true, decide_eq_true_eq] at h ⊢
      exact ⟨h.1, ih _ h.2⟩

theorem Cells.above_insert (b k : Nat) (v : α) (m : List (Nat × α)) (hb : b < k) (h : Cells.above b m = true)
    (hk : Cells.find m k = none) : Cells.above b (Cells.insert k v m) = true := by
  induction m generalizing b with
  | nil => simp [Cells.insert, Cells.above, hb]
  | cons e t ih =>
    have hne : e.1 ≠ k := by intro he; simp [Cells.find, he] at hk
    have ht : Cells.find t k = none := by simpa [Cells.find, hne] using hk
    simp only [Cells.above, Bool.and_eq_true, decide_eq_true_eq] at h
    by_cases hl : e.1 < k
    · simp only [Cells.insert, hl, if_true, Cells.above, Bool.and_eq_true, decide_eq_true_eq]
      exact ⟨h.1, ih _ hl h.2 ht⟩
    · simp only [Cells.insert, hl, if_false, Cells.above, Bool.and_eq_true, decide_eq_true_eq]
      exact ⟨hb, by omega, h.2⟩

theorem Cells.rising_erase (k : Nat) (m : List (Nat × α)) (h : Cells.rising m = true) :
    Cells.rising (Cells.erase m k) = true := by
  induction m with
  | nil => rfl
  | cons e t ih =>
    have hr : Cells.rising t = true := by
      cases t with
      | nil => rfl
      | cons f u =>
        simp only [Cells.rising, Cells.above, Bool.and_eq_true] at h
        exact h.2
    by_cases he : e.1 = k
    · simp only [Cells.erase, he, if_true]; exact ih hr
    · simp only [Cells.erase, he, if_false]
      exact Cells.above_erase _ _ _ h

theorem Cells.rising_put (k : Nat) (v : α) (m : List (Nat × α)) (h : Cells.rising m = true) :
    Cells.rising (Cells.put m k v) = true := by
  have h' := Cells.rising_erase k m h
  have hk : Cells.find (Cells.erase m k) k = none := by simp
  unfold Cells.put
  generalize Cells.erase m k = n at h' hk
  cases n with
  | nil => rfl
  | cons e t =>
    have hne : e.1 ≠ k := by intro he; simp [Cells.find, he] at hk
    have ht : Cells.find t k = none := by simpa [Cells.find, hne] using hk
    by_cases hl : e.1 < k
    · simp only [Cells.insert, hl, if_true]
      exact Cells.above_insert _ _ _ _ hl h' ht
    · simp only [Cells.insert, hl, if_false, Cells.rising, Cells.above, Bool.and_eq_true, decide_eq_true_eq]
      exact ⟨by omega, h'⟩

theorem Cells.mem_erase {m : List (Nat × α)} {k : Nat} {e : Nat × α} (h : e ∈ Cells.erase m k) : e ∈ m := by
  induction m with
  | nil => simp [Cells.erase] at h
  | cons f t ih =>
    by_cases hf : f.1 = k
    · simp only [Cells.erase, hf, if_true] at h
      exact List.mem_cons_of_mem _ (ih h)
    · simp only [Cells.erase, hf, if_false, List.mem_cons] at h
      rcases h with h | h
      · simp [h]
      · exact List.mem_cons_of_mem _ (ih h)

theorem Cells.mem_insert {m : List (Nat × α)} {k : Nat} {v : α} {e : Nat × α} (h : e ∈ Cells.insert k v m) :
    e = (k, v) ∨ e ∈ m := by
  induction m with
  | nil => simpa [Cells.insert] using h
  | cons f t ih =>
    by_cases hf : f.1 < k
    · simp only [Cells.insert, hf, if_true, List.mem_cons] at h
      rcases h with h | h
      · exact .inr (by simp [h])
      · rcases ih h with h | h
        · exact .inl h
        · exact .inr (List.mem_cons_of_mem _ h)
    · simpa [Cells.insert, hf] using h

theorem Cells.canonical_set [DecidableEq α] (d : α) (m : List (Nat × α)) (k : Nat) (v : α)
    (h : Cells.canonical d m = true) : Cells.canonical d (Cells.set d m k v) = true := by
  simp only [Cells.canonical, Bool.and_eq_true, List.all_eq_true, decide_eq_true_eq] at h ⊢
  unfold Cells.set
  by_cases hv : v = d
  · simp only [hv, if_true]
    exact ⟨Cells.rising_erase _ _ h.1, fun e he => h.2 e (Cells.mem_erase he)⟩
  · simp only [hv, if_false]
    refine ⟨Cells.rising_put _ _ _ h.1, fun e he => ?_⟩
    rcases Cells.mem_insert he with rfl | he
    · exact hv
    · exact h.2 e (Cells.mem_erase he)

theorem Cells.find_above {b k : Nat} {m : List (Nat × α)} (h : Cells.above b m = true) (hk : k ≤ b) :
    Cells.find m k = none := by
  induction m generalizing b with
  | nil => rfl
  | cons e t ih =>
    simp only [Cells.above, Bool.and_eq_true, decide_eq_true_eq] at h
    have : e.1 ≠ k := by omega
    simp [Cells.find, this, ih h.2 (by omega)]

theorem Cells.get_above {b k : Nat} {d : α} {m : List (Nat × α)} (h : Cells.above b m = true) (hk : k ≤ b) :
    Cells.get d m k = d := by simp [Cells.get, Cells.find_above h hk]

theorem Cells.rising_tail {e : Nat × α} {t : List (Nat × α)} (h : Cells.rising (e :: t) = true) :
    Cells.rising t = true := by
  cases t with
  | nil => rfl
  | cons f u =>
    simp only [Cells.rising, Cells.above, Bool.and_eq_true] at h
    exact h.2

/-- Tables in canonical form that read alike are the same data. -/
theorem Cells.canonical_ext [DecidableEq α] (d : α) (m n : List (Nat × α)) (hm : Cells.canonical d m = true)
    (hn : Cells.canonical d n = true) (h : ∀ k, Cells.get d m k = Cells.get d n k) : m = n := by
  simp only [Cells.canonical, Bool.and_eq_true, List.all_eq_true, decide_eq_true_eq] at hm hn
  induction m generalizing n with
  | nil =>
    cases n with
    | nil => rfl
    | cons e t =>
      have := h e.1
      simp [Cells.get, Cells.find] at this
      exact absurd this.symm (hn.2 e (by simp))
  | cons e t ih =>
    cases n with
    | nil =>
      have := h e.1
      simp [Cells.get, Cells.find] at this
      exact absurd this (hm.2 e (by simp))
    | cons f u =>
      have h1 : Cells.get d (e :: t) e.1 = e.2 := by simp [Cells.get, Cells.find]
      have h2 : Cells.get d (f :: u) f.1 = f.2 := by simp [Cells.get, Cells.find]
      have key : e.1 = f.1 := by
        rcases Nat.lt_trichotomy e.1 f.1 with hlt | heq | hgt
        · have : Cells.get d (f :: u) e.1 = d := by
            have hne : f.1 ≠ e.1 := by omega
            have := Cells.find_above (k := e.1) hn.1 (by omega)
            simp [Cells.get, Cells.find, hne, this]
          exact absurd (h1.symm.trans ((h e.1).trans this)) (hm.2 e (by simp))
        · exact heq
        · have : Cells.get d (e :: t) f.1 = d := by
            have hne : e.1 ≠ f.1 := by omega
            have := Cells.find_above (k := f.1) hm.1 (by omega)
            simp [Cells.get, Cells.find, hne, this]
          exact absurd (h2.symm.trans ((h f.1).symm.trans this)) (hn.2 f (by simp))
      have val : e.2 = f.2 := by rw [← h1, h e.1, key, h2]
      have ef : e = f := Prod.ext key val
      subst ef
      congr 1
      refine ih u ?_ ⟨Cells.rising_tail hm.1, fun x hx => hm.2 x (List.mem_cons_of_mem _ hx)⟩
        ⟨Cells.rising_tail hn.1, fun x hx => hn.2 x (List.mem_cons_of_mem _ hx)⟩
      intro k
      by_cases hk : e.1 = k
      · rw [Cells.get_above hm.1 (by omega), Cells.get_above hn.1 (by omega)]
      · have := h k
        simpa [Cells.get, Cells.find, hk] using this

end Sys2Proof.Machine
end

