-- ==== Sys2Proof/Laws/State.lean ====
section
/-! SUPPORT. What each named update of the state leaves alone, one lemma per field, so that no later proof unfolds
a record update. -/

namespace Sys2Proof.Machine

/-! State.setCrew changes crews only. -/

@[simp] theorem State.setCrew_cycle (x : State) (n : Nat) (c : Crew) : (x.setCrew n c).cycle = x.cycle := rfl
@[simp] theorem State.setCrew_ticks (x : State) (n : Nat) (c : Crew) : (x.setCrew n c).ticks = x.ticks := rfl
@[simp] theorem State.setCrew_fresh (x : State) (n : Nat) (c : Crew) : (x.setCrew n c).fresh = x.fresh := rfl
@[simp] theorem State.setCrew_agenda (x : State) (n : Nat) (c : Crew) : (x.setCrew n c).agenda = x.agenda := rfl
@[simp] theorem State.setCrew_cur (x : State) (n : Nat) (c : Crew) : (x.setCrew n c).cur = x.cur := rfl
@[simp] theorem State.setCrew_egress (x : State) (n : Nat) (c : Crew) : (x.setCrew n c).egress = x.egress := rfl
@[simp] theorem State.setCrew_nextId (x : State) (n : Nat) (c : Crew) : (x.setCrew n c).nextId = x.nextId := rfl
@[simp] theorem State.setCrew_mem (x : State) (n : Nat) (c : Crew) : (x.setCrew n c).mem = x.mem := rfl
@[simp] theorem State.setCrew_poison (x : State) (n : Nat) (c : Crew) : (x.setCrew n c).poison = x.poison := rfl
@[simp] theorem State.setCrew_hostMem (x : State) (n : Nat) (c : Crew) : (x.setCrew n c).hostMem = x.hostMem := rfl
@[simp] theorem State.setCrew_cores (x : State) (n : Nat) (c : Crew) : (x.setCrew n c).cores = x.cores := rfl
@[simp] theorem State.setCrew_clusters (x : State) (n : Nat) (c : Crew) : (x.setCrew n c).clusters = x.clusters := rfl
@[simp] theorem State.setCrew_dies (x : State) (n : Nat) (c : Crew) : (x.setCrew n c).dies = x.dies := rfl
@[simp] theorem State.setCrew_slices (x : State) (n : Nat) (c : Crew) : (x.setCrew n c).slices = x.slices := rfl
@[simp] theorem State.setCrew_msgs (x : State) (n : Nat) (c : Crew) : (x.setCrew n c).msgs = x.msgs := rfl
@[simp] theorem State.setCrew_rm (x : State) (n : Nat) (c : Crew) : (x.setCrew n c).rm = x.rm := rfl
@[simp] theorem State.setCrew_cox (x : State) (n : Nat) (c : Crew) : (x.setCrew n c).cox = x.cox := rfl
@[simp] theorem State.setCrew_links (x : State) (n : Nat) (c : Crew) : (x.setCrew n c).links = x.links := rfl
@[simp] theorem State.setCrew_boot (x : State) (n : Nat) (c : Crew) : (x.setCrew n c).boot = x.boot := rfl
@[simp] theorem State.setCrew_rpl (x : State) (n : Nat) (c : Crew) : (x.setCrew n c).rpl = x.rpl := rfl
@[simp] theorem State.setCrew_fleet (x : State) (n : Nat) (c : Crew) : (x.setCrew n c).fleet = x.fleet := rfl
@[simp] theorem State.setCrew_images (x : State) (n : Nat) (c : Crew) : (x.setCrew n c).images = x.images := rfl

/-! State.setCore changes cores only. -/

@[simp] theorem State.setCore_cycle (x : State) (n : Nat) (c : Core) : (x.setCore n c).cycle = x.cycle := rfl
@[simp] theorem State.setCore_ticks (x : State) (n : Nat) (c : Core) : (x.setCore n c).ticks = x.ticks := rfl
@[simp] theorem State.setCore_fresh (x : State) (n : Nat) (c : Core) : (x.setCore n c).fresh = x.fresh := rfl
@[simp] theorem State.setCore_agenda (x : State) (n : Nat) (c : Core) : (x.setCore n c).agenda = x.agenda := rfl
@[simp] theorem State.setCore_cur (x : State) (n : Nat) (c : Core) : (x.setCore n c).cur = x.cur := rfl
@[simp] theorem State.setCore_egress (x : State) (n : Nat) (c : Core) : (x.setCore n c).egress = x.egress := rfl
@[simp] theorem State.setCore_nextId (x : State) (n : Nat) (c : Core) : (x.setCore n c).nextId = x.nextId := rfl
@[simp] theorem State.setCore_mem (x : State) (n : Nat) (c : Core) : (x.setCore n c).mem = x.mem := rfl
@[simp] theorem State.setCore_poison (x : State) (n : Nat) (c : Core) : (x.setCore n c).poison = x.poison := rfl
@[simp] theorem State.setCore_hostMem (x : State) (n : Nat) (c : Core) : (x.setCore n c).hostMem = x.hostMem := rfl
@[simp] theorem State.setCore_crews (x : State) (n : Nat) (c : Core) : (x.setCore n c).crews = x.crews := rfl
@[simp] theorem State.setCore_clusters (x : State) (n : Nat) (c : Core) : (x.setCore n c).clusters = x.clusters := rfl
@[simp] theorem State.setCore_dies (x : State) (n : Nat) (c : Core) : (x.setCore n c).dies = x.dies := rfl
@[simp] theorem State.setCore_slices (x : State) (n : Nat) (c : Core) : (x.setCore n c).slices = x.slices := rfl
@[simp] theorem State.setCore_msgs (x : State) (n : Nat) (c : Core) : (x.setCore n c).msgs = x.msgs := rfl
@[simp] theorem State.setCore_rm (x : State) (n : Nat) (c : Core) : (x.setCore n c).rm = x.rm := rfl
@[simp] theorem State.setCore_cox (x : State) (n : Nat) (c : Core) : (x.setCore n c).cox = x.cox := rfl
@[simp] theorem State.setCore_links (x : State) (n : Nat) (c : Core) : (x.setCore n c).links = x.links := rfl
@[simp] theorem State.setCore_boot (x : State) (n : Nat) (c : Core) : (x.setCore n c).boot = x.boot := rfl
@[simp] theorem State.setCore_rpl (x : State) (n : Nat) (c : Core) : (x.setCore n c).rpl = x.rpl := rfl
@[simp] theorem State.setCore_fleet (x : State) (n : Nat) (c : Core) : (x.setCore n c).fleet = x.fleet := rfl
@[simp] theorem State.setCore_images (x : State) (n : Nat) (c : Core) : (x.setCore n c).images = x.images := rfl

/-! State.modCore changes cores only. -/

@[simp] theorem State.modCore_cycle (x : State) (n : Nat) (f : Core → Core) : (x.modCore n f).cycle = x.cycle := rfl
@[simp] theorem State.modCore_ticks (x : State) (n : Nat) (f : Core → Core) : (x.modCore n f).ticks = x.ticks := rfl
@[simp] theorem State.modCore_fresh (x : State) (n : Nat) (f : Core → Core) : (x.modCore n f).fresh = x.fresh := rfl
@[simp] theorem State.modCore_agenda (x : State) (n : Nat) (f : Core → Core) : (x.modCore n f).agenda = x.agenda := rfl
@[simp] theorem State.modCore_cur (x : State) (n : Nat) (f : Core → Core) : (x.modCore n f).cur = x.cur := rfl
@[simp] theorem State.modCore_egress (x : State) (n : Nat) (f : Core → Core) : (x.modCore n f).egress = x.egress := rfl
@[simp] theorem State.modCore_nextId (x : State) (n : Nat) (f : Core → Core) : (x.modCore n f).nextId = x.nextId := rfl
@[simp] theorem State.modCore_mem (x : State) (n : Nat) (f : Core → Core) : (x.modCore n f).mem = x.mem := rfl
@[simp] theorem State.modCore_poison (x : State) (n : Nat) (f : Core → Core) : (x.modCore n f).poison = x.poison := rfl
@[simp] theorem State.modCore_hostMem (x : State) (n : Nat) (f : Core → Core) : (x.modCore n f).hostMem = x.hostMem := rfl
@[simp] theorem State.modCore_crews (x : State) (n : Nat) (f : Core → Core) : (x.modCore n f).crews = x.crews := rfl
@[simp] theorem State.modCore_clusters (x : State) (n : Nat) (f : Core → Core) : (x.modCore n f).clusters = x.clusters := rfl
@[simp] theorem State.modCore_dies (x : State) (n : Nat) (f : Core → Core) : (x.modCore n f).dies = x.dies := rfl
@[simp] theorem State.modCore_slices (x : State) (n : Nat) (f : Core → Core) : (x.modCore n f).slices = x.slices := rfl
@[simp] theorem State.modCore_msgs (x : State) (n : Nat) (f : Core → Core) : (x.modCore n f).msgs = x.msgs := rfl
@[simp] theorem State.modCore_rm (x : State) (n : Nat) (f : Core → Core) : (x.modCore n f).rm = x.rm := rfl
@[simp] theorem State.modCore_cox (x : State) (n : Nat) (f : Core → Core) : (x.modCore n f).cox = x.cox := rfl
@[simp] theorem State.modCore_links (x : State) (n : Nat) (f : Core → Core) : (x.modCore n f).links = x.links := rfl
@[simp] theorem State.modCore_boot (x : State) (n : Nat) (f : Core → Core) : (x.modCore n f).boot = x.boot := rfl
@[simp] theorem State.modCore_rpl (x : State) (n : Nat) (f : Core → Core) : (x.modCore n f).rpl = x.rpl := rfl
@[simp] theorem State.modCore_fleet (x : State) (n : Nat) (f : Core → Core) : (x.modCore n f).fleet = x.fleet := rfl
@[simp] theorem State.modCore_images (x : State) (n : Nat) (f : Core → Core) : (x.modCore n f).images = x.images := rfl

/-! State.setCluster changes clusters only. -/

@[simp] theorem State.setCluster_cycle (x : State) (n : Nat) (c : Cluster) : (x.setCluster n c).cycle = x.cycle := rfl
@[simp] theorem State.setCluster_ticks (x : State) (n : Nat) (c : Cluster) : (x.setCluster n c).ticks = x.ticks := rfl
@[simp] theorem State.setCluster_fresh (x : State) (n : Nat) (c : Cluster) : (x.setCluster n c).fresh = x.fresh := rfl
@[simp] theorem State.setCluster_agenda (x : State) (n : Nat) (c : Cluster) : (x.setCluster n c).agenda = x.agenda := rfl
@[simp] theorem State.setCluster_cur (x : State) (n : Nat) (c : Cluster) : (x.setCluster n c).cur = x.cur := rfl
@[simp] theorem State.setCluster_egress (x : State) (n : Nat) (c : Cluster) : (x.setCluster n c).egress = x.egress := rfl
@[simp] theorem State.setCluster_nextId (x : State) (n : Nat) (c : Cluster) : (x.setCluster n c).nextId = x.nextId := rfl
@[simp] theorem State.setCluster_mem (x : State) (n : Nat) (c : Cluster) : (x.setCluster n c).mem = x.mem := rfl
@[simp] theorem State.setCluster_poison (x : State) (n : Nat) (c : Cluster) : (x.setCluster n c).poison = x.poison := rfl
@[simp] theorem State.setCluster_hostMem (x : State) (n : Nat) (c : Cluster) : (x.setCluster n c).hostMem = x.hostMem := rfl
@[simp] theorem State.setCluster_crews (x : State) (n : Nat) (c : Cluster) : (x.setCluster n c).crews = x.crews := rfl
@[simp] theorem State.setCluster_cores (x : State) (n : Nat) (c : Cluster) : (x.setCluster n c).cores = x.cores := rfl
@[simp] theorem State.setCluster_dies (x : State) (n : Nat) (c : Cluster) : (x.setCluster n c).dies = x.dies := rfl
@[simp] theorem State.setCluster_slices (x : State) (n : Nat) (c : Cluster) : (x.setCluster n c).slices = x.slices := rfl
@[simp] theorem State.setCluster_msgs (x : State) (n : Nat) (c : Cluster) : (x.setCluster n c).msgs = x.msgs := rfl
@[simp] theorem State.setCluster_rm (x : State) (n : Nat) (c : Cluster) : (x.setCluster n c).rm = x.rm := rfl
@[simp] theorem State.setCluster_cox (x : State) (n : Nat) (c : Cluster) : (x.setCluster n c).cox = x.cox := rfl
@[simp] theorem State.setCluster_links (x : State) (n : Nat) (c : Cluster) : (x.setCluster n c).links = x.links := rfl
@[simp] theorem State.setCluster_boot (x : State) (n : Nat) (c : Cluster) : (x.setCluster n c).boot = x.boot := rfl
@[simp] theorem State.setCluster_rpl (x : State) (n : Nat) (c : Cluster) : (x.setCluster n c).rpl = x.rpl := rfl
@[simp] theorem State.setCluster_fleet (x : State) (n : Nat) (c : Cluster) : (x.setCluster n c).fleet = x.fleet := rfl
@[simp] theorem State.setCluster_images (x : State) (n : Nat) (c : Cluster) : (x.setCluster n c).images = x.images := rfl

/-! State.setDie changes dies only. -/

@[simp] theorem State.setDie_cycle (x : State) (n : Nat) (d : Die) : (x.setDie n d).cycle = x.cycle := rfl
@[simp] theorem State.setDie_ticks (x : State) (n : Nat) (d : Die) : (x.setDie n d).ticks = x.ticks := rfl
@[simp] theorem State.setDie_fresh (x : State) (n : Nat) (d : Die) : (x.setDie n d).fresh = x.fresh := rfl
@[simp] theorem State.setDie_agenda (x : State) (n : Nat) (d : Die) : (x.setDie n d).agenda = x.agenda := rfl
@[simp] theorem State.setDie_cur (x : State) (n : Nat) (d : Die) : (x.setDie n d).cur = x.cur := rfl
@[simp] theorem State.setDie_egress (x : State) (n : Nat) (d : Die) : (x.setDie n d).egress = x.egress := rfl
@[simp] theorem State.setDie_nextId (x : State) (n : Nat) (d : Die) : (x.setDie n d).nextId = x.nextId := rfl
@[simp] theorem State.setDie_mem (x : State) (n : Nat) (d : Die) : (x.setDie n d).mem = x.mem := rfl
@[simp] theorem State.setDie_poison (x : State) (n : Nat) (d : Die) : (x.setDie n d).poison = x.poison := rfl
@[simp] theorem State.setDie_hostMem (x : State) (n : Nat) (d : Die) : (x.setDie n d).hostMem = x.hostMem := rfl
@[simp] theorem State.setDie_crews (x : State) (n : Nat) (d : Die) : (x.setDie n d).crews = x.crews := rfl
@[simp] theorem State.setDie_cores (x : State) (n : Nat) (d : Die) : (x.setDie n d).cores = x.cores := rfl
@[simp] theorem State.setDie_clusters (x : State) (n : Nat) (d : Die) : (x.setDie n d).clusters = x.clusters := rfl
@[simp] theorem State.setDie_slices (x : State) (n : Nat) (d : Die) : (x.setDie n d).slices = x.slices := rfl
@[simp] theorem State.setDie_msgs (x : State) (n : Nat) (d : Die) : (x.setDie n d).msgs = x.msgs := rfl
@[simp] theorem State.setDie_rm (x : State) (n : Nat) (d : Die) : (x.setDie n d).rm = x.rm := rfl
@[simp] theorem State.setDie_cox (x : State) (n : Nat) (d : Die) : (x.setDie n d).cox = x.cox := rfl
@[simp] theorem State.setDie_links (x : State) (n : Nat) (d : Die) : (x.setDie n d).links = x.links := rfl
@[simp] theorem State.setDie_boot (x : State) (n : Nat) (d : Die) : (x.setDie n d).boot = x.boot := rfl
@[simp] theorem State.setDie_rpl (x : State) (n : Nat) (d : Die) : (x.setDie n d).rpl = x.rpl := rfl
@[simp] theorem State.setDie_fleet (x : State) (n : Nat) (d : Die) : (x.setDie n d).fleet = x.fleet := rfl
@[simp] theorem State.setDie_images (x : State) (n : Nat) (d : Die) : (x.setDie n d).images = x.images := rfl

/-! State.modDie changes dies only. -/

@[simp] theorem State.modDie_cycle (x : State) (n : Nat) (f : Die → Die) : (x.modDie n f).cycle = x.cycle := rfl
@[simp] theorem State.modDie_ticks (x : State) (n : Nat) (f : Die → Die) : (x.modDie n f).ticks = x.ticks := rfl
@[simp] theorem State.modDie_fresh (x : State) (n : Nat) (f : Die → Die) : (x.modDie n f).fresh = x.fresh := rfl
@[simp] theorem State.modDie_agenda (x : State) (n : Nat) (f : Die → Die) : (x.modDie n f).agenda = x.agenda := rfl
@[simp] theorem State.modDie_cur (x : State) (n : Nat) (f : Die → Die) : (x.modDie n f).cur = x.cur := rfl
@[simp] theorem State.modDie_egress (x : State) (n : Nat) (f : Die → Die) : (x.modDie n f).egress = x.egress := rfl
@[simp] theorem State.modDie_nextId (x : State) (n : Nat) (f : Die → Die) : (x.modDie n f).nextId = x.nextId := rfl
@[simp] theorem State.modDie_mem (x : State) (n : Nat) (f : Die → Die) : (x.modDie n f).mem = x.mem := rfl
@[simp] theorem State.modDie_poison (x : State) (n : Nat) (f : Die → Die) : (x.modDie n f).poison = x.poison := rfl
@[simp] theorem State.modDie_hostMem (x : State) (n : Nat) (f : Die → Die) : (x.modDie n f).hostMem = x.hostMem := rfl
@[simp] theorem State.modDie_crews (x : State) (n : Nat) (f : Die → Die) : (x.modDie n f).crews = x.crews := rfl
@[simp] theorem State.modDie_cores (x : State) (n : Nat) (f : Die → Die) : (x.modDie n f).cores = x.cores := rfl
@[simp] theorem State.modDie_clusters (x : State) (n : Nat) (f : Die → Die) : (x.modDie n f).clusters = x.clusters := rfl
@[simp] theorem State.modDie_slices (x : State) (n : Nat) (f : Die → Die) : (x.modDie n f).slices = x.slices := rfl
@[simp] theorem State.modDie_msgs (x : State) (n : Nat) (f : Die → Die) : (x.modDie n f).msgs = x.msgs := rfl
@[simp] theorem State.modDie_rm (x : State) (n : Nat) (f : Die → Die) : (x.modDie n f).rm = x.rm := rfl
@[simp] theorem State.modDie_cox (x : State) (n : Nat) (f : Die → Die) : (x.modDie n f).cox = x.cox := rfl
@[simp] theorem State.modDie_links (x : State) (n : Nat) (f : Die → Die) : (x.modDie n f).links = x.links := rfl
@[simp] theorem State.modDie_boot (x : State) (n : Nat) (f : Die → Die) : (x.modDie n f).boot = x.boot := rfl
@[simp] theorem State.modDie_rpl (x : State) (n : Nat) (f : Die → Die) : (x.modDie n f).rpl = x.rpl := rfl
@[simp] theorem State.modDie_fleet (x : State) (n : Nat) (f : Die → Die) : (x.modDie n f).fleet = x.fleet := rfl
@[simp] theorem State.modDie_images (x : State) (n : Nat) (f : Die → Die) : (x.modDie n f).images = x.images := rfl

/-! State.setSlice changes slices only. -/

@[simp] theorem State.setSlice_cycle (x : State) (n : Nat) (v : Slice) : (x.setSlice n v).cycle = x.cycle := rfl
@[simp] theorem State.setSlice_ticks (x : State) (n : Nat) (v : Slice) : (x.setSlice n v).ticks = x.ticks := rfl
@[simp] theorem State.setSlice_fresh (x : State) (n : Nat) (v : Slice) : (x.setSlice n v).fresh = x.fresh := rfl
@[simp] theorem State.setSlice_agenda (x : State) (n : Nat) (v : Slice) : (x.setSlice n v).agenda = x.agenda := rfl
@[simp] theorem State.setSlice_cur (x : State) (n : Nat) (v : Slice) : (x.setSlice n v).cur = x.cur := rfl
@[simp] theorem State.setSlice_egress (x : State) (n : Nat) (v : Slice) : (x.setSlice n v).egress = x.egress := rfl
@[simp] theorem State.setSlice_nextId (x : State) (n : Nat) (v : Slice) : (x.setSlice n v).nextId = x.nextId := rfl
@[simp] theorem State.setSlice_mem (x : State) (n : Nat) (v : Slice) : (x.setSlice n v).mem = x.mem := rfl
@[simp] theorem State.setSlice_poison (x : State) (n : Nat) (v : Slice) : (x.setSlice n v).poison = x.poison := rfl
@[simp] theorem State.setSlice_hostMem (x : State) (n : Nat) (v : Slice) : (x.setSlice n v).hostMem = x.hostMem := rfl
@[simp] theorem State.setSlice_crews (x : State) (n : Nat) (v : Slice) : (x.setSlice n v).crews = x.crews := rfl
@[simp] theorem State.setSlice_cores (x : State) (n : Nat) (v : Slice) : (x.setSlice n v).cores = x.cores := rfl
@[simp] theorem State.setSlice_clusters (x : State) (n : Nat) (v : Slice) : (x.setSlice n v).clusters = x.clusters := rfl
@[simp] theorem State.setSlice_dies (x : State) (n : Nat) (v : Slice) : (x.setSlice n v).dies = x.dies := rfl
@[simp] theorem State.setSlice_msgs (x : State) (n : Nat) (v : Slice) : (x.setSlice n v).msgs = x.msgs := rfl
@[simp] theorem State.setSlice_rm (x : State) (n : Nat) (v : Slice) : (x.setSlice n v).rm = x.rm := rfl
@[simp] theorem State.setSlice_cox (x : State) (n : Nat) (v : Slice) : (x.setSlice n v).cox = x.cox := rfl
@[simp] theorem State.setSlice_links (x : State) (n : Nat) (v : Slice) : (x.setSlice n v).links = x.links := rfl
@[simp] theorem State.setSlice_boot (x : State) (n : Nat) (v : Slice) : (x.setSlice n v).boot = x.boot := rfl
@[simp] theorem State.setSlice_rpl (x : State) (n : Nat) (v : Slice) : (x.setSlice n v).rpl = x.rpl := rfl
@[simp] theorem State.setSlice_fleet (x : State) (n : Nat) (v : Slice) : (x.setSlice n v).fleet = x.fleet := rfl
@[simp] theorem State.setSlice_images (x : State) (n : Nat) (v : Slice) : (x.setSlice n v).images = x.images := rfl

/-! State.modSlice changes slices only. -/

@[simp] theorem State.modSlice_cycle (x : State) (n : Nat) (f : Slice → Slice) : (x.modSlice n f).cycle = x.cycle := rfl
@[simp] theorem State.modSlice_ticks (x : State) (n : Nat) (f : Slice → Slice) : (x.modSlice n f).ticks = x.ticks := rfl
@[simp] theorem State.modSlice_fresh (x : State) (n : Nat) (f : Slice → Slice) : (x.modSlice n f).fresh = x.fresh := rfl
@[simp] theorem State.modSlice_agenda (x : State) (n : Nat) (f : Slice → Slice) : (x.modSlice n f).agenda = x.agenda := rfl
@[simp] theorem State.modSlice_cur (x : State) (n : Nat) (f : Slice → Slice) : (x.modSlice n f).cur = x.cur := rfl
@[simp] theorem State.modSlice_egress (x : State) (n : Nat) (f : Slice → Slice) : (x.modSlice n f).egress = x.egress := rfl
@[simp] theorem State.modSlice_nextId (x : State) (n : Nat) (f : Slice → Slice) : (x.modSlice n f).nextId = x.nextId := rfl
@[simp] theorem State.modSlice_mem (x : State) (n : Nat) (f : Slice → Slice) : (x.modSlice n f).mem = x.mem := rfl
@[simp] theorem State.modSlice_poison (x : State) (n : Nat) (f : Slice → Slice) : (x.modSlice n f).poison = x.poison := rfl
@[simp] theorem State.modSlice_hostMem (x : State) (n : Nat) (f : Slice → Slice) : (x.modSlice n f).hostMem = x.hostMem := rfl
@[simp] theorem State.modSlice_crews (x : State) (n : Nat) (f : Slice → Slice) : (x.modSlice n f).crews = x.crews := rfl
@[simp] theorem State.modSlice_cores (x : State) (n : Nat) (f : Slice → Slice) : (x.modSlice n f).cores = x.cores := rfl
@[simp] theorem State.modSlice_clusters (x : State) (n : Nat) (f : Slice → Slice) : (x.modSlice n f).clusters = x.clusters := rfl
@[simp] theorem State.modSlice_dies (x : State) (n : Nat) (f : Slice → Slice) : (x.modSlice n f).dies = x.dies := rfl
@[simp] theorem State.modSlice_msgs (x : State) (n : Nat) (f : Slice → Slice) : (x.modSlice n f).msgs = x.msgs := rfl
@[simp] theorem State.modSlice_rm (x : State) (n : Nat) (f : Slice → Slice) : (x.modSlice n f).rm = x.rm := rfl
@[simp] theorem State.modSlice_cox (x : State) (n : Nat) (f : Slice → Slice) : (x.modSlice n f).cox = x.cox := rfl
@[simp] theorem State.modSlice_links (x : State) (n : Nat) (f : Slice → Slice) : (x.modSlice n f).links = x.links := rfl
@[simp] theorem State.modSlice_boot (x : State) (n : Nat) (f : Slice → Slice) : (x.modSlice n f).boot = x.boot := rfl
@[simp] theorem State.modSlice_rpl (x : State) (n : Nat) (f : Slice → Slice) : (x.modSlice n f).rpl = x.rpl := rfl
@[simp] theorem State.modSlice_fleet (x : State) (n : Nat) (f : Slice → Slice) : (x.modSlice n f).fleet = x.fleet := rfl
@[simp] theorem State.modSlice_images (x : State) (n : Nat) (f : Slice → Slice) : (x.modSlice n f).images = x.images := rfl

/-! State.setContext changes rm only. -/

@[simp] theorem State.setContext_cycle (x : State) (n : Nat) (c : Context) : (x.setContext n c).cycle = x.cycle := rfl
@[simp] theorem State.setContext_ticks (x : State) (n : Nat) (c : Context) : (x.setContext n c).ticks = x.ticks := rfl
@[simp] theorem State.setContext_fresh (x : State) (n : Nat) (c : Context) : (x.setContext n c).fresh = x.fresh := rfl
@[simp] theorem State.setContext_agenda (x : State) (n : Nat) (c : Context) : (x.setContext n c).agenda = x.agenda := rfl
@[simp] theorem State.setContext_cur (x : State) (n : Nat) (c : Context) : (x.setContext n c).cur = x.cur := rfl
@[simp] theorem State.setContext_egress (x : State) (n : Nat) (c : Context) : (x.setContext n c).egress = x.egress := rfl
@[simp] theorem State.setContext_nextId (x : State) (n : Nat) (c : Context) : (x.setContext n c).nextId = x.nextId := rfl
@[simp] theorem State.setContext_mem (x : State) (n : Nat) (c : Context) : (x.setContext n c).mem = x.mem := rfl
@[simp] theorem State.setContext_poison (x : State) (n : Nat) (c : Context) : (x.setContext n c).poison = x.poison := rfl
@[simp] theorem State.setContext_hostMem (x : State) (n : Nat) (c : Context) : (x.setContext n c).hostMem = x.hostMem := rfl
@[simp] theorem State.setContext_crews (x : State) (n : Nat) (c : Context) : (x.setContext n c).crews = x.crews := rfl
@[simp] theorem State.setContext_cores (x : State) (n : Nat) (c : Context) : (x.setContext n c).cores = x.cores := rfl
@[simp] theorem State.setContext_clusters (x : State) (n : Nat) (c : Context) : (x.setContext n c).clusters = x.clusters := rfl
@[simp] theorem State.setContext_dies (x : State) (n : Nat) (c : Context) : (x.setContext n c).dies = x.dies := rfl
@[simp] theorem State.setContext_slices (x : State) (n : Nat) (c : Context) : (x.setContext n c).slices = x.slices := rfl
@[simp] theorem State.setContext_msgs (x : State) (n : Nat) (c : Context) : (x.setContext n c).msgs = x.msgs := rfl
@[simp] theorem State.setContext_cox (x : State) (n : Nat) (c : Context) : (x.setContext n c).cox = x.cox := rfl
@[simp] theorem State.setContext_links (x : State) (n : Nat) (c : Context) : (x.setContext n c).links = x.links := rfl
@[simp] theorem State.setContext_boot (x : State) (n : Nat) (c : Context) : (x.setContext n c).boot = x.boot := rfl
@[simp] theorem State.setContext_rpl (x : State) (n : Nat) (c : Context) : (x.setContext n c).rpl = x.rpl := rfl
@[simp] theorem State.setContext_fleet (x : State) (n : Nat) (c : Context) : (x.setContext n c).fleet = x.fleet := rfl
@[simp] theorem State.setContext_images (x : State) (n : Nat) (c : Context) : (x.setContext n c).images = x.images := rfl

/-! State.setQueue changes rm only. -/

@[simp] theorem State.setQueue_cycle (x : State) (n : Nat) (c : Queue) : (x.setQueue n c).cycle = x.cycle := rfl
@[simp] theorem State.setQueue_ticks (x : State) (n : Nat) (c : Queue) : (x.setQueue n c).ticks = x.ticks := rfl
@[simp] theorem State.setQueue_fresh (x : State) (n : Nat) (c : Queue) : (x.setQueue n c).fresh = x.fresh := rfl
@[simp] theorem State.setQueue_agenda (x : State) (n : Nat) (c : Queue) : (x.setQueue n c).agenda = x.agenda := rfl
@[simp] theorem State.setQueue_cur (x : State) (n : Nat) (c : Queue) : (x.setQueue n c).cur = x.cur := rfl
@[simp] theorem State.setQueue_egress (x : State) (n : Nat) (c : Queue) : (x.setQueue n c).egress = x.egress := rfl
@[simp] theorem State.setQueue_nextId (x : State) (n : Nat) (c : Queue) : (x.setQueue n c).nextId = x.nextId := rfl
@[simp] theorem State.setQueue_mem (x : State) (n : Nat) (c : Queue) : (x.setQueue n c).mem = x.mem := rfl
@[simp] theorem State.setQueue_poison (x : State) (n : Nat) (c : Queue) : (x.setQueue n c).poison = x.poison := rfl
@[simp] theorem State.setQueue_hostMem (x : State) (n : Nat) (c : Queue) : (x.setQueue n c).hostMem = x.hostMem := rfl
@[simp] theorem State.setQueue_crews (x : State) (n : Nat) (c : Queue) : (x.setQueue n c).crews = x.crews := rfl
@[simp] theorem State.setQueue_cores (x : State) (n : Nat) (c : Queue) : (x.setQueue n c).cores = x.cores := rfl
@[simp] theorem State.setQueue_clusters (x : State) (n : Nat) (c : Queue) : (x.setQueue n c).clusters = x.clusters := rfl
@[simp] theorem State.setQueue_dies (x : State) (n : Nat) (c : Queue) : (x.setQueue n c).dies = x.dies := rfl
@[simp] theorem State.setQueue_slices (x : State) (n : Nat) (c : Queue) : (x.setQueue n c).slices = x.slices := rfl
@[simp] theorem State.setQueue_msgs (x : State) (n : Nat) (c : Queue) : (x.setQueue n c).msgs = x.msgs := rfl
@[simp] theorem State.setQueue_cox (x : State) (n : Nat) (c : Queue) : (x.setQueue n c).cox = x.cox := rfl
@[simp] theorem State.setQueue_links (x : State) (n : Nat) (c : Queue) : (x.setQueue n c).links = x.links := rfl
@[simp] theorem State.setQueue_boot (x : State) (n : Nat) (c : Queue) : (x.setQueue n c).boot = x.boot := rfl
@[simp] theorem State.setQueue_rpl (x : State) (n : Nat) (c : Queue) : (x.setQueue n c).rpl = x.rpl := rfl
@[simp] theorem State.setQueue_fleet (x : State) (n : Nat) (c : Queue) : (x.setQueue n c).fleet = x.fleet := rfl
@[simp] theorem State.setQueue_images (x : State) (n : Nat) (c : Queue) : (x.setQueue n c).images = x.images := rfl

/-! State.spend changes cycle, fresh only. -/

@[simp] theorem State.spend_ticks (x : State) (c : Nat) : (x.spend c).ticks = x.ticks := rfl
@[simp] theorem State.spend_agenda (x : State) (c : Nat) : (x.spend c).agenda = x.agenda := rfl
@[simp] theorem State.spend_cur (x : State) (c : Nat) : (x.spend c).cur = x.cur := rfl
@[simp] theorem State.spend_egress (x : State) (c : Nat) : (x.spend c).egress = x.egress := rfl
@[simp] theorem State.spend_nextId (x : State) (c : Nat) : (x.spend c).nextId = x.nextId := rfl
@[simp] theorem State.spend_mem (x : State) (c : Nat) : (x.spend c).mem = x.mem := rfl
@[simp] theorem State.spend_poison (x : State) (c : Nat) : (x.spend c).poison = x.poison := rfl
@[simp] theorem State.spend_hostMem (x : State) (c : Nat) : (x.spend c).hostMem = x.hostMem := rfl
@[simp] theorem State.spend_crews (x : State) (c : Nat) : (x.spend c).crews = x.crews := rfl
@[simp] theorem State.spend_cores (x : State) (c : Nat) : (x.spend c).cores = x.cores := rfl
@[simp] theorem State.spend_clusters (x : State) (c : Nat) : (x.spend c).clusters = x.clusters := rfl
@[simp] theorem State.spend_dies (x : State) (c : Nat) : (x.spend c).dies = x.dies := rfl
@[simp] theorem State.spend_slices (x : State) (c : Nat) : (x.spend c).slices = x.slices := rfl
@[simp] theorem State.spend_msgs (x : State) (c : Nat) : (x.spend c).msgs = x.msgs := rfl
@[simp] theorem State.spend_rm (x : State) (c : Nat) : (x.spend c).rm = x.rm := rfl
@[simp] theorem State.spend_cox (x : State) (c : Nat) : (x.spend c).cox = x.cox := rfl
@[simp] theorem State.spend_links (x : State) (c : Nat) : (x.spend c).links = x.links := rfl
@[simp] theorem State.spend_boot (x : State) (c : Nat) : (x.spend c).boot = x.boot := rfl
@[simp] theorem State.spend_rpl (x : State) (c : Nat) : (x.spend c).rpl = x.rpl := rfl
@[simp] theorem State.spend_fleet (x : State) (c : Nat) : (x.spend c).fleet = x.fleet := rfl
@[simp] theorem State.spend_images (x : State) (c : Nat) : (x.spend c).images = x.images := rfl

/-! State.post changes msgs, nextId only. -/

@[simp] theorem State.post_cycle (x : State) (m : Msg) : (x.post m).cycle = x.cycle := rfl
@[simp] theorem State.post_ticks (x : State) (m : Msg) : (x.post m).ticks = x.ticks := rfl
@[simp] theorem State.post_fresh (x : State) (m : Msg) : (x.post m).fresh = x.fresh := rfl
@[simp] theorem State.post_agenda (x : State) (m : Msg) : (x.post m).agenda = x.agenda := rfl
@[simp] theorem State.post_cur (x : State) (m : Msg) : (x.post m).cur = x.cur := rfl
@[simp] theorem State.post_egress (x : State) (m : Msg) : (x.post m).egress = x.egress := rfl
@[simp] theorem State.post_mem (x : State) (m : Msg) : (x.post m).mem = x.mem := rfl
@[simp] theorem State.post_poison (x : State) (m : Msg) : (x.post m).poison = x.poison := rfl
@[simp] theorem State.post_hostMem (x : State) (m : Msg) : (x.post m).hostMem = x.hostMem := rfl
@[simp] theorem State.post_crews (x : State) (m : Msg) : (x.post m).crews = x.crews := rfl
@[simp] theorem State.post_cores (x : State) (m : Msg) : (x.post m).cores = x.cores := rfl
@[simp] theorem State.post_clusters (x : State) (m : Msg) : (x.post m).clusters = x.clusters := rfl
@[simp] theorem State.post_dies (x : State) (m : Msg) : (x.post m).dies = x.dies := rfl
@[simp] theorem State.post_slices (x : State) (m : Msg) : (x.post m).slices = x.slices := rfl
@[simp] theorem State.post_rm (x : State) (m : Msg) : (x.post m).rm = x.rm := rfl
@[simp] theorem State.post_cox (x : State) (m : Msg) : (x.post m).cox = x.cox := rfl
@[simp] theorem State.post_links (x : State) (m : Msg) : (x.post m).links = x.links := rfl
@[simp] theorem State.post_boot (x : State) (m : Msg) : (x.post m).boot = x.boot := rfl
@[simp] theorem State.post_rpl (x : State) (m : Msg) : (x.post m).rpl = x.rpl := rfl
@[simp] theorem State.post_fleet (x : State) (m : Msg) : (x.post m).fleet = x.fleet := rfl
@[simp] theorem State.post_images (x : State) (m : Msg) : (x.post m).images = x.images := rfl

/-! State.emit changes egress only. -/

@[simp] theorem State.emit_cycle (x : State) (e : Egress) : (x.emit e).cycle = x.cycle := rfl
@[simp] theorem State.emit_ticks (x : State) (e : Egress) : (x.emit e).ticks = x.ticks := rfl
@[simp] theorem State.emit_fresh (x : State) (e : Egress) : (x.emit e).fresh = x.fresh := rfl
@[simp] theorem State.emit_agenda (x : State) (e : Egress) : (x.emit e).agenda = x.agenda := rfl
@[simp] theorem State.emit_cur (x : State) (e : Egress) : (x.emit e).cur = x.cur := rfl
@[simp] theorem State.emit_nextId (x : State) (e : Egress) : (x.emit e).nextId = x.nextId := rfl
@[simp] theorem State.emit_mem (x : State) (e : Egress) : (x.emit e).mem = x.mem := rfl
@[simp] theorem State.emit_poison (x : State) (e : Egress) : (x.emit e).poison = x.poison := rfl
@[simp] theorem State.emit_hostMem (x : State) (e : Egress) : (x.emit e).hostMem = x.hostMem := rfl
@[simp] theorem State.emit_crews (x : State) (e : Egress) : (x.emit e).crews = x.crews := rfl
@[simp] theorem State.emit_cores (x : State) (e : Egress) : (x.emit e).cores = x.cores := rfl
@[simp] theorem State.emit_clusters (x : State) (e : Egress) : (x.emit e).clusters = x.clusters := rfl
@[simp] theorem State.emit_dies (x : State) (e : Egress) : (x.emit e).dies = x.dies := rfl
@[simp] theorem State.emit_slices (x : State) (e : Egress) : (x.emit e).slices = x.slices := rfl
@[simp] theorem State.emit_msgs (x : State) (e : Egress) : (x.emit e).msgs = x.msgs := rfl
@[simp] theorem State.emit_rm (x : State) (e : Egress) : (x.emit e).rm = x.rm := rfl
@[simp] theorem State.emit_cox (x : State) (e : Egress) : (x.emit e).cox = x.cox := rfl
@[simp] theorem State.emit_links (x : State) (e : Egress) : (x.emit e).links = x.links := rfl
@[simp] theorem State.emit_boot (x : State) (e : Egress) : (x.emit e).boot = x.boot := rfl
@[simp] theorem State.emit_rpl (x : State) (e : Egress) : (x.emit e).rpl = x.rpl := rfl
@[simp] theorem State.emit_fleet (x : State) (e : Egress) : (x.emit e).fleet = x.fleet := rfl
@[simp] theorem State.emit_images (x : State) (e : Egress) : (x.emit e).images = x.images := rfl

/-! State.event changes cox only. -/

@[simp] theorem State.event_cycle (x : State) (a b c : Nat) (d : List Byte) : (x.event a b c d).cycle = x.cycle := rfl
@[simp] theorem State.event_ticks (x : State) (a b c : Nat) (d : List Byte) : (x.event a b c d).ticks = x.ticks := rfl
@[simp] theorem State.event_fresh (x : State) (a b c : Nat) (d : List Byte) : (x.event a b c d).fresh = x.fresh := rfl
@[simp] theorem State.event_agenda (x : State) (a b c : Nat) (d : List Byte) : (x.event a b c d).agenda = x.agenda := rfl
@[simp] theorem State.event_cur (x : State) (a b c : Nat) (d : List Byte) : (x.event a b c d).cur = x.cur := rfl
@[simp] theorem State.event_egress (x : State) (a b c : Nat) (d : List Byte) : (x.event a b c d).egress = x.egress := rfl
@[simp] theorem State.event_nextId (x : State) (a b c : Nat) (d : List Byte) : (x.event a b c d).nextId = x.nextId := rfl
@[simp] theorem State.event_mem (x : State) (a b c : Nat) (d : List Byte) : (x.event a b c d).mem = x.mem := rfl
@[simp] theorem State.event_poison (x : State) (a b c : Nat) (d : List Byte) : (x.event a b c d).poison = x.poison := rfl
@[simp] theorem State.event_hostMem (x : State) (a b c : Nat) (d : List Byte) : (x.event a b c d).hostMem = x.hostMem := rfl
@[simp] theorem State.event_crews (x : State) (a b c : Nat) (d : List Byte) : (x.event a b c d).crews = x.crews := rfl
@[simp] theorem State.event_cores (x : State) (a b c : Nat) (d : List Byte) : (x.event a b c d).cores = x.cores := rfl
@[simp] theorem State.event_clusters (x : State) (a b c : Nat) (d : List Byte) : (x.event a b c d).clusters = x.clusters := rfl
@[simp] theorem State.event_dies (x : State) (a b c : Nat) (d : List Byte) : (x.event a b c d).dies = x.dies := rfl
@[simp] theorem State.event_slices (x : State) (a b c : Nat) (d : List Byte) : (x.event a b c d).slices = x.slices := rfl
@[simp] theorem State.event_msgs (x : State) (a b c : Nat) (d : List Byte) : (x.event a b c d).msgs = x.msgs := rfl
@[simp] theorem State.event_rm (x : State) (a b c : Nat) (d : List Byte) : (x.event a b c d).rm = x.rm := rfl
@[simp] theorem State.event_links (x : State) (a b c : Nat) (d : List Byte) : (x.event a b c d).links = x.links := rfl
@[simp] theorem State.event_boot (x : State) (a b c : Nat) (d : List Byte) : (x.event a b c d).boot = x.boot := rfl
@[simp] theorem State.event_rpl (x : State) (a b c : Nat) (d : List Byte) : (x.event a b c d).rpl = x.rpl := rfl
@[simp] theorem State.event_fleet (x : State) (a b c : Nat) (d : List Byte) : (x.event a b c d).fleet = x.fleet := rfl
@[simp] theorem State.event_images (x : State) (a b c : Nat) (d : List Byte) : (x.event a b c d).images = x.images := rfl

/-! State.countError changes fleet only. -/

@[simp] theorem State.countError_cycle (x : State) (a b : Nat) (c : Bool) : (x.countError a b c).cycle = x.cycle := rfl
@[simp] theorem State.countError_ticks (x : State) (a b : Nat) (c : Bool) : (x.countError a b c).ticks = x.ticks := rfl
@[simp] theorem State.countError_fresh (x : State) (a b : Nat) (c : Bool) : (x.countError a b c).fresh = x.fresh := rfl
@[simp] theorem State.countError_agenda (x : State) (a b : Nat) (c : Bool) : (x.countError a b c).agenda = x.agenda := rfl
@[simp] theorem State.countError_cur (x : State) (a b : Nat) (c : Bool) : (x.countError a b c).cur = x.cur := rfl
@[simp] theorem State.countError_egress (x : State) (a b : Nat) (c : Bool) : (x.countError a b c).egress = x.egress := rfl
@[simp] theorem State.countError_nextId (x : State) (a b : Nat) (c : Bool) : (x.countError a b c).nextId = x.nextId := rfl
@[simp] theorem State.countError_mem (x : State) (a b : Nat) (c : Bool) : (x.countError a b c).mem = x.mem := rfl
@[simp] theorem State.countError_poison (x : State) (a b : Nat) (c : Bool) : (x.countError a b c).poison = x.poison := rfl
@[simp] theorem State.countError_hostMem (x : State) (a b : Nat) (c : Bool) : (x.countError a b c).hostMem = x.hostMem := rfl
@[simp] theorem State.countError_crews (x : State) (a b : Nat) (c : Bool) : (x.countError a b c).crews = x.crews := rfl
@[simp] theorem State.countError_cores (x : State) (a b : Nat) (c : Bool) : (x.countError a b c).cores = x.cores := rfl
@[simp] theorem State.countError_clusters (x : State) (a b : Nat) (c : Bool) : (x.countError a b c).clusters = x.clusters := rfl
@[simp] theorem State.countError_dies (x : State) (a b : Nat) (c : Bool) : (x.countError a b c).dies = x.dies := rfl
@[simp] theorem State.countError_slices (x : State) (a b : Nat) (c : Bool) : (x.countError a b c).slices = x.slices := rfl
@[simp] theorem State.countError_msgs (x : State) (a b : Nat) (c : Bool) : (x.countError a b c).msgs = x.msgs := rfl
@[simp] theorem State.countError_rm (x : State) (a b : Nat) (c : Bool) : (x.countError a b c).rm = x.rm := rfl
@[simp] theorem State.countError_cox (x : State) (a b : Nat) (c : Bool) : (x.countError a b c).cox = x.cox := rfl
@[simp] theorem State.countError_links (x : State) (a b : Nat) (c : Bool) : (x.countError a b c).links = x.links := rfl
@[simp] theorem State.countError_boot (x : State) (a b : Nat) (c : Bool) : (x.countError a b c).boot = x.boot := rfl
@[simp] theorem State.countError_rpl (x : State) (a b : Nat) (c : Bool) : (x.countError a b c).rpl = x.rpl := rfl
@[simp] theorem State.countError_images (x : State) (a b : Nat) (c : Bool) : (x.countError a b c).images = x.images := rfl

/-! State.modCrew changes crews only. -/

@[simp] theorem State.modCrew_cycle (x : State) (n : Nat) (f : Crew → Crew) : (x.modCrew n f).cycle = x.cycle := by
  unfold State.modCrew; split <;> rfl
@[simp] theorem State.modCrew_ticks (x : State) (n : Nat) (f : Crew → Crew) : (x.modCrew n f).ticks = x.ticks := by
  unfold State.modCrew; split <;> rfl
@[simp] theorem State.modCrew_fresh (x : State) (n : Nat) (f : Crew → Crew) : (x.modCrew n f).fresh = x.fresh := by
  unfold State.modCrew; split <;> rfl
@[simp] theorem State.modCrew_agenda (x : State) (n : Nat) (f : Crew → Crew) : (x.modCrew n f).agenda = x.agenda := by
  unfold State.modCrew; split <;> rfl
@[simp] theorem State.modCrew_cur (x : State) (n : Nat) (f : Crew → Crew) : (x.modCrew n f).cur = x.cur := by
  unfold State.modCrew; split <;> rfl
@[simp] theorem State.modCrew_egress (x : State) (n : Nat) (f : Crew → Crew) : (x.modCrew n f).egress = x.egress := by
  unfold State.modCrew; split <;> rfl
@[simp] theorem State.modCrew_nextId (x : State) (n : Nat) (f : Crew → Crew) : (x.modCrew n f).nextId = x.nextId := by
  unfold State.modCrew; split <;> rfl
@[simp] theorem State.modCrew_mem (x : State) (n : Nat) (f : Crew → Crew) : (x.modCrew n f).mem = x.mem := by
  unfold State.modCrew; split <;> rfl
@[simp] theorem State.modCrew_poison (x : State) (n : Nat) (f : Crew → Crew) : (x.modCrew n f).poison = x.poison := by
  unfold State.modCrew; split <;> rfl
@[simp] theorem State.modCrew_hostMem (x : State) (n : Nat) (f : Crew → Crew) : (x.modCrew n f).hostMem = x.hostMem := by
  unfold State.modCrew; split <;> rfl
@[simp] theorem State.modCrew_cores (x : State) (n : Nat) (f : Crew → Crew) : (x.modCrew n f).cores = x.cores := by
  unfold State.modCrew; split <;> rfl
@[simp] theorem State.modCrew_clusters (x : State) (n : Nat) (f : Crew → Crew) : (x.modCrew n f).clusters = x.clusters := by
  unfold State.modCrew; split <;> rfl
@[simp] theorem State.modCrew_dies (x : State) (n : Nat) (f : Crew → Crew) : (x.modCrew n f).dies = x.dies := by
  unfold State.modCrew; split <;> rfl
@[simp] theorem State.modCrew_slices (x : State) (n : Nat) (f : Crew → Crew) : (x.modCrew n f).slices = x.slices := by
  unfold State.modCrew; split <;> rfl
@[simp] theorem State.modCrew_msgs (x : State) (n : Nat) (f : Crew → Crew) : (x.modCrew n f).msgs = x.msgs := by
  unfold State.modCrew; split <;> rfl
@[simp] theorem State.modCrew_rm (x : State) (n : Nat) (f : Crew → Crew) : (x.modCrew n f).rm = x.rm := by
  unfold State.modCrew; split <;> rfl
@[simp] theorem State.modCrew_cox (x : State) (n : Nat) (f : Crew → Crew) : (x.modCrew n f).cox = x.cox := by
  unfold State.modCrew; split <;> rfl
@[simp] theorem State.modCrew_links (x : State) (n : Nat) (f : Crew → Crew) : (x.modCrew n f).links = x.links := by
  unfold State.modCrew; split <;> rfl
@[simp] theorem State.modCrew_boot (x : State) (n : Nat) (f : Crew → Crew) : (x.modCrew n f).boot = x.boot := by
  unfold State.modCrew; split <;> rfl
@[simp] theorem State.modCrew_rpl (x : State) (n : Nat) (f : Crew → Crew) : (x.modCrew n f).rpl = x.rpl := by
  unfold State.modCrew; split <;> rfl
@[simp] theorem State.modCrew_fleet (x : State) (n : Nat) (f : Crew → Crew) : (x.modCrew n f).fleet = x.fleet := by
  unfold State.modCrew; split <;> rfl
@[simp] theorem State.modCrew_images (x : State) (n : Nat) (f : Crew → Crew) : (x.modCrew n f).images = x.images := by
  unfold State.modCrew; split <;> rfl

/-! Crew.setThread changes threads only. -/

@[simp] theorem Crew.setThread_grid (x : Crew) (l : Nat) (t : Thread) : (x.setThread l t).grid = x.grid := rfl
@[simp] theorem Crew.setThread_team (x : Crew) (l : Nat) (t : Thread) : (x.setThread l t).team = x.team := rfl
@[simp] theorem Crew.setThread_crew (x : Crew) (l : Nat) (t : Thread) : (x.setThread l t).crew = x.crew := rfl
@[simp] theorem Crew.setThread_nCrew (x : Crew) (l : Nat) (t : Thread) : (x.setThread l t).nCrew = x.nCrew := rfl
@[simp] theorem Crew.setThread_nTeam (x : Crew) (l : Nat) (t : Thread) : (x.setThread l t).nTeam = x.nTeam := rfl
@[simp] theorem Crew.setThread_depth (x : Crew) (l : Nat) (t : Thread) : (x.setThread l t).depth = x.depth := rfl
@[simp] theorem Crew.setThread_ctx (x : Crew) (l : Nat) (t : Thread) : (x.setThread l t).ctx = x.ctx := rfl
@[simp] theorem Crew.setThread_cluster (x : Crew) (l : Nat) (t : Thread) : (x.setThread l t).cluster = x.cluster := rfl
@[simp] theorem Crew.setThread_ldet (x : Crew) (l : Nat) (t : Thread) : (x.setThread l t).ldet = x.ldet := rfl
@[simp] theorem Crew.setThread_cb (x : Crew) (l : Nat) (t : Thread) : (x.setThread l t).cb = x.cb := rfl
@[simp] theorem Crew.setThread_trapv (x : Crew) (l : Nat) (t : Thread) : (x.setThread l t).trapv = x.trapv := rfl
@[simp] theorem Crew.setThread_deckBase (x : Crew) (l : Nat) (t : Thread) : (x.setThread l t).deckBase = x.deckBase := rfl
@[simp] theorem Crew.setThread_deckSize (x : Crew) (l : Nat) (t : Thread) : (x.setThread l t).deckSize = x.deckSize := rfl
@[simp] theorem Crew.setThread_nStreams (x : Crew) (l : Nat) (t : Thread) : (x.setThread l t).nStreams = x.nStreams := rfl
@[simp] theorem Crew.setThread_area (x : Crew) (l : Nat) (t : Thread) : (x.setThread l t).area = x.area := rfl
@[simp] theorem Crew.setThread_kregs (x : Crew) (l : Nat) (t : Thread) : (x.setThread l t).kregs = x.kregs := rfl
@[simp] theorem Crew.setThread_utags (x : Crew) (l : Nat) (t : Thread) : (x.setThread l t).utags = x.utags := rfl
@[simp] theorem Crew.setThread_ctrs (x : Crew) (l : Nat) (t : Thread) : (x.setThread l t).ctrs = x.ctrs := rfl
@[simp] theorem Crew.setThread_issued (x : Crew) (l : Nat) (t : Thread) : (x.setThread l t).issued = x.issued := rfl
@[simp] theorem Crew.setThread_done (x : Crew) (l : Nat) (t : Thread) : (x.setThread l t).done = x.done := rfl
@[simp] theorem Crew.setThread_efault (x : Crew) (l : Nat) (t : Thread) : (x.setThread l t).efault = x.efault := rfl
@[simp] theorem Crew.setThread_lost (x : Crew) (l : Nat) (t : Thread) : (x.setThread l t).lost = x.lost := rfl
@[simp] theorem Crew.setThread_fifo (x : Crew) (l : Nat) (t : Thread) : (x.setThread l t).fifo = x.fifo := rfl
@[simp] theorem Crew.setThread_loads (x : Crew) (l : Nat) (t : Thread) : (x.setThread l t).loads = x.loads := rfl
@[simp] theorem Crew.setThread_ctrOps (x : Crew) (l : Nat) (t : Thread) : (x.setThread l t).ctrOps = x.ctrOps := rfl
@[simp] theorem Crew.setThread_steps (x : Crew) (l : Nat) (t : Thread) : (x.setThread l t).steps = x.steps := rfl
@[simp] theorem Crew.setThread_lts (x : Crew) (l : Nat) (t : Thread) : (x.setThread l t).lts = x.lts := rfl
@[simp] theorem Crew.setThread_slen (x : Crew) (l : Nat) (t : Thread) : (x.setThread l t).slen = x.slen := rfl
@[simp] theorem Crew.setThread_streams (x : Crew) (l : Nat) (t : Thread) : (x.setThread l t).streams = x.streams := rfl
@[simp] theorem Crew.setThread_scopyLen (x : Crew) (l : Nat) (t : Thread) : (x.setThread l t).scopyLen = x.scopyLen := rfl
@[simp] theorem Crew.setThread_scopy (x : Crew) (l : Nat) (t : Thread) : (x.setThread l t).scopy = x.scopy := rfl
@[simp] theorem Crew.setThread_watch (x : Crew) (l : Nat) (t : Thread) : (x.setThread l t).watch = x.watch := rfl
@[simp] theorem Crew.setThread_join (x : Crew) (l : Nat) (t : Thread) : (x.setThread l t).join = x.join := rfl
@[simp] theorem Crew.setThread_pcieWrites (x : Crew) (l : Nat) (t : Thread) : (x.setThread l t).pcieWrites = x.pcieWrites := rfl
@[simp] theorem Crew.setThread_cmdTime (x : Crew) (l : Nat) (t : Thread) : (x.setThread l t).cmdTime = x.cmdTime := rfl
@[simp] theorem Crew.setThread_early (x : Crew) (l : Nat) (t : Thread) : (x.setThread l t).early = x.early := rfl
@[simp] theorem Crew.setThread_period (x : Crew) (l : Nat) (t : Thread) : (x.setThread l t).period = x.period := rfl
@[simp] theorem Crew.setThread_startAt (x : Crew) (l : Nat) (t : Thread) : (x.setThread l t).startAt = x.startAt := rfl
@[simp] theorem Crew.setThread_badLanes (x : Crew) (l : Nat) (t : Thread) : (x.setThread l t).badLanes = x.badLanes := rfl
@[simp] theorem Crew.setThread_fetched (x : Crew) (l : Nat) (t : Thread) : (x.setThread l t).fetched = x.fetched := rfl

/-! Crew.modLanes changes threads only. -/

@[simp] theorem Crew.modLanes_grid (x : Crew) (ls : List Nat) (f : Nat → Thread → Thread) : (x.modLanes ls f).grid = x.grid := rfl
@[simp] theorem Crew.modLanes_team (x : Crew) (ls : List Nat) (f : Nat → Thread → Thread) : (x.modLanes ls f).team = x.team := rfl
@[simp] theorem Crew.modLanes_crew (x : Crew) (ls : List Nat) (f : Nat → Thread → Thread) : (x.modLanes ls f).crew = x.crew := rfl
@[simp] theorem Crew.modLanes_nCrew (x : Crew) (ls : List Nat) (f : Nat → Thread → Thread) : (x.modLanes ls f).nCrew = x.nCrew := rfl
@[simp] theorem Crew.modLanes_nTeam (x : Crew) (ls : List Nat) (f : Nat → Thread → Thread) : (x.modLanes ls f).nTeam = x.nTeam := rfl
@[simp] theorem Crew.modLanes_depth (x : Crew) (ls : List Nat) (f : Nat → Thread → Thread) : (x.modLanes ls f).depth = x.depth := rfl
@[simp] theorem Crew.modLanes_ctx (x : Crew) (ls : List Nat) (f : Nat → Thread → Thread) : (x.modLanes ls f).ctx = x.ctx := rfl
@[simp] theorem Crew.modLanes_cluster (x : Crew) (ls : List Nat) (f : Nat → Thread → Thread) : (x.modLanes ls f).cluster = x.cluster := rfl
@[simp] theorem Crew.modLanes_ldet (x : Crew) (ls : List Nat) (f : Nat → Thread → Thread) : (x.modLanes ls f).ldet = x.ldet := rfl
@[simp] theorem Crew.modLanes_cb (x : Crew) (ls : List Nat) (f : Nat → Thread → Thread) : (x.modLanes ls f).cb = x.cb := rfl
@[simp] theorem Crew.modLanes_trapv (x : Crew) (ls : List Nat) (f : Nat → Thread → Thread) : (x.modLanes ls f).trapv = x.trapv := rfl
@[simp] theorem Crew.modLanes_deckBase (x : Crew) (ls : List Nat) (f : Nat → Thread → Thread) : (x.modLanes ls f).deckBase = x.deckBase := rfl
@[simp] theorem Crew.modLanes_deckSize (x : Crew) (ls : List Nat) (f : Nat → Thread → Thread) : (x.modLanes ls f).deckSize = x.deckSize := rfl
@[simp] theorem Crew.modLanes_nStreams (x : Crew) (ls : List Nat) (f : Nat → Thread → Thread) : (x.modLanes ls f).nStreams = x.nStreams := rfl
@[simp] theorem Crew.modLanes_area (x : Crew) (ls : List Nat) (f : Nat → Thread → Thread) : (x.modLanes ls f).area = x.area := rfl
@[simp] theorem Crew.modLanes_kregs (x : Crew) (ls : List Nat) (f : Nat → Thread → Thread) : (x.modLanes ls f).kregs = x.kregs := rfl
@[simp] theorem Crew.modLanes_utags (x : Crew) (ls : List Nat) (f : Nat → Thread → Thread) : (x.modLanes ls f).utags = x.utags := rfl
@[simp] theorem Crew.modLanes_ctrs (x : Crew) (ls : List Nat) (f : Nat → Thread → Thread) : (x.modLanes ls f).ctrs = x.ctrs := rfl
@[simp] theorem Crew.modLanes_issued (x : Crew) (ls : List Nat) (f : Nat → Thread → Thread) : (x.modLanes ls f).issued = x.issued := rfl
@[simp] theorem Crew.modLanes_done (x : Crew) (ls : List Nat) (f : Nat → Thread → Thread) : (x.modLanes ls f).done = x.done := rfl
@[simp] theorem Crew.modLanes_efault (x : Crew) (ls : List Nat) (f : Nat → Thread → Thread) : (x.modLanes ls f).efault = x.efault := rfl
@[simp] theorem Crew.modLanes_lost (x : Crew) (ls : List Nat) (f : Nat → Thread → Thread) : (x.modLanes ls f).lost = x.lost := rfl
@[simp] theorem Crew.modLanes_fifo (x : Crew) (ls : List Nat) (f : Nat → Thread → Thread) : (x.modLanes ls f).fifo = x.fifo := rfl
@[simp] theorem Crew.modLanes_loads (x : Crew) (ls : List Nat) (f : Nat → Thread → Thread) : (x.modLanes ls f).loads = x.loads := rfl
@[simp] theorem Crew.modLanes_ctrOps (x : Crew) (ls : List Nat) (f : Nat → Thread → Thread) : (x.modLanes ls f).ctrOps = x.ctrOps := rfl
@[simp] theorem Crew.modLanes_steps (x : Crew) (ls : List Nat) (f : Nat → Thread → Thread) : (x.modLanes ls f).steps = x.steps := rfl
@[simp] theorem Crew.modLanes_lts (x : Crew) (ls : List Nat) (f : Nat → Thread → Thread) : (x.modLanes ls f).lts = x.lts := rfl
@[simp] theorem Crew.modLanes_slen (x : Crew) (ls : List Nat) (f : Nat → Thread → Thread) : (x.modLanes ls f).slen = x.slen := rfl
@[simp] theorem Crew.modLanes_streams (x : Crew) (ls : List Nat) (f : Nat → Thread → Thread) : (x.modLanes ls f).streams = x.streams := rfl
@[simp] theorem Crew.modLanes_scopyLen (x : Crew) (ls : List Nat) (f : Nat → Thread → Thread) : (x.modLanes ls f).scopyLen = x.scopyLen := rfl
@[simp] theorem Crew.modLanes_scopy (x : Crew) (ls : List Nat) (f : Nat → Thread → Thread) : (x.modLanes ls f).scopy = x.scopy := rfl
@[simp] theorem Crew.modLanes_watch (x : Crew) (ls : List Nat) (f : Nat → Thread → Thread) : (x.modLanes ls f).watch = x.watch := rfl
@[simp] theorem Crew.modLanes_join (x : Crew) (ls : List Nat) (f : Nat → Thread → Thread) : (x.modLanes ls f).join = x.join := rfl
@[simp] theorem Crew.modLanes_pcieWrites (x : Crew) (ls : List Nat) (f : Nat → Thread → Thread) : (x.modLanes ls f).pcieWrites = x.pcieWrites := rfl
@[simp] theorem Crew.modLanes_cmdTime (x : Crew) (ls : List Nat) (f : Nat → Thread → Thread) : (x.modLanes ls f).cmdTime = x.cmdTime := rfl
@[simp] theorem Crew.modLanes_early (x : Crew) (ls : List Nat) (f : Nat → Thread → Thread) : (x.modLanes ls f).early = x.early := rfl
@[simp] theorem Crew.modLanes_period (x : Crew) (ls : List Nat) (f : Nat → Thread → Thread) : (x.modLanes ls f).period = x.period := rfl
@[simp] theorem Crew.modLanes_startAt (x : Crew) (ls : List Nat) (f : Nat → Thread → Thread) : (x.modLanes ls f).startAt = x.startAt := rfl
@[simp] theorem Crew.modLanes_badLanes (x : Crew) (ls : List Nat) (f : Nat → Thread → Thread) : (x.modLanes ls f).badLanes = x.badLanes := rfl
@[simp] theorem Crew.modLanes_fetched (x : Crew) (ls : List Nat) (f : Nat → Thread → Thread) : (x.modLanes ls f).fetched = x.fetched := rfl

/-! Crew.next changes threads only. -/

@[simp] theorem Crew.next_grid (x : Crew) (ls : List Nat) : (x.next ls).grid = x.grid := rfl
@[simp] theorem Crew.next_team (x : Crew) (ls : List Nat) : (x.next ls).team = x.team := rfl
@[simp] theorem Crew.next_crew (x : Crew) (ls : List Nat) : (x.next ls).crew = x.crew := rfl
@[simp] theorem Crew.next_nCrew (x : Crew) (ls : List Nat) : (x.next ls).nCrew = x.nCrew := rfl
@[simp] theorem Crew.next_nTeam (x : Crew) (ls : List Nat) : (x.next ls).nTeam = x.nTeam := rfl
@[simp] theorem Crew.next_depth (x : Crew) (ls : List Nat) : (x.next ls).depth = x.depth := rfl
@[simp] theorem Crew.next_ctx (x : Crew) (ls : List Nat) : (x.next ls).ctx = x.ctx := rfl
@[simp] theorem Crew.next_cluster (x : Crew) (ls : List Nat) : (x.next ls).cluster = x.cluster := rfl
@[simp] theorem Crew.next_ldet (x : Crew) (ls : List Nat) : (x.next ls).ldet = x.ldet := rfl
@[simp] theorem Crew.next_cb (x : Crew) (ls : List Nat) : (x.next ls).cb = x.cb := rfl
@[simp] theorem Crew.next_trapv (x : Crew) (ls : List Nat) : (x.next ls).trapv = x.trapv := rfl
@[simp] theorem Crew.next_deckBase (x : Crew) (ls : List Nat) : (x.next ls).deckBase = x.deckBase := rfl
@[simp] theorem Crew.next_deckSize (x : Crew) (ls : List Nat) : (x.next ls).deckSize = x.deckSize := rfl
@[simp] theorem Crew.next_nStreams (x : Crew) (ls : List Nat) : (x.next ls).nStreams = x.nStreams := rfl
@[simp] theorem Crew.next_area (x : Crew) (ls : List Nat) : (x.next ls).area = x.area := rfl
@[simp] theorem Crew.next_kregs (x : Crew) (ls : List Nat) : (x.next ls).kregs = x.kregs := rfl
@[simp] theorem Crew.next_utags (x : Crew) (ls : List Nat) : (x.next ls).utags = x.utags := rfl
@[simp] theorem Crew.next_ctrs (x : Crew) (ls : List Nat) : (x.next ls).ctrs = x.ctrs := rfl
@[simp] theorem Crew.next_issued (x : Crew) (ls : List Nat) : (x.next ls).issued = x.issued := rfl
@[simp] theorem Crew.next_done (x : Crew) (ls : List Nat) : (x.next ls).done = x.done := rfl
@[simp] theorem Crew.next_efault (x : Crew) (ls : List Nat) : (x.next ls).efault = x.efault := rfl
@[simp] theorem Crew.next_lost (x : Crew) (ls : List Nat) : (x.next ls).lost = x.lost := rfl
@[simp] theorem Crew.next_fifo (x : Crew) (ls : List Nat) : (x.next ls).fifo = x.fifo := rfl
@[simp] theorem Crew.next_loads (x : Crew) (ls : List Nat) : (x.next ls).loads = x.loads := rfl
@[simp] theorem Crew.next_ctrOps (x : Crew) (ls : List Nat) : (x.next ls).ctrOps = x.ctrOps := rfl
@[simp] theorem Crew.next_steps (x : Crew) (ls : List Nat) : (x.next ls).steps = x.steps := rfl
@[simp] theorem Crew.next_lts (x : Crew) (ls : List Nat) : (x.next ls).lts = x.lts := rfl
@[simp] theorem Crew.next_slen (x : Crew) (ls : List Nat) : (x.next ls).slen = x.slen := rfl
@[simp] theorem Crew.next_streams (x : Crew) (ls : List Nat) : (x.next ls).streams = x.streams := rfl
@[simp] theorem Crew.next_scopyLen (x : Crew) (ls : List Nat) : (x.next ls).scopyLen = x.scopyLen := rfl
@[simp] theorem Crew.next_scopy (x : Crew) (ls : List Nat) : (x.next ls).scopy = x.scopy := rfl
@[simp] theorem Crew.next_watch (x : Crew) (ls : List Nat) : (x.next ls).watch = x.watch := rfl
@[simp] theorem Crew.next_join (x : Crew) (ls : List Nat) : (x.next ls).join = x.join := rfl
@[simp] theorem Crew.next_pcieWrites (x : Crew) (ls : List Nat) : (x.next ls).pcieWrites = x.pcieWrites := rfl
@[simp] theorem Crew.next_cmdTime (x : Crew) (ls : List Nat) : (x.next ls).cmdTime = x.cmdTime := rfl
@[simp] theorem Crew.next_early (x : Crew) (ls : List Nat) : (x.next ls).early = x.early := rfl
@[simp] theorem Crew.next_period (x : Crew) (ls : List Nat) : (x.next ls).period = x.period := rfl
@[simp] theorem Crew.next_startAt (x : Crew) (ls : List Nat) : (x.next ls).startAt = x.startAt := rfl
@[simp] theorem Crew.next_badLanes (x : Crew) (ls : List Nat) : (x.next ls).badLanes = x.badLanes := rfl
@[simp] theorem Crew.next_fetched (x : Crew) (ls : List Nat) : (x.next ls).fetched = x.fetched := rfl

/-! Crew.tagP changes utags only. -/

@[simp] theorem Crew.tagP_grid (x : Crew) (es : List Nat) : (x.tagP es).grid = x.grid := rfl
@[simp] theorem Crew.tagP_team (x : Crew) (es : List Nat) : (x.tagP es).team = x.team := rfl
@[simp] theorem Crew.tagP_crew (x : Crew) (es : List Nat) : (x.tagP es).crew = x.crew := rfl
@[simp] theorem Crew.tagP_nCrew (x : Crew) (es : List Nat) : (x.tagP es).nCrew = x.nCrew := rfl
@[simp] theorem Crew.tagP_nTeam (x : Crew) (es : List Nat) : (x.tagP es).nTeam = x.nTeam := rfl
@[simp] theorem Crew.tagP_depth (x : Crew) (es : List Nat) : (x.tagP es).depth = x.depth := rfl
@[simp] theorem Crew.tagP_ctx (x : Crew) (es : List Nat) : (x.tagP es).ctx = x.ctx := rfl
@[simp] theorem Crew.tagP_cluster (x : Crew) (es : List Nat) : (x.tagP es).cluster = x.cluster := rfl
@[simp] theorem Crew.tagP_ldet (x : Crew) (es : List Nat) : (x.tagP es).ldet = x.ldet := rfl
@[simp] theorem Crew.tagP_cb (x : Crew) (es : List Nat) : (x.tagP es).cb = x.cb := rfl
@[simp] theorem Crew.tagP_trapv (x : Crew) (es : List Nat) : (x.tagP es).trapv = x.trapv := rfl
@[simp] theorem Crew.tagP_deckBase (x : Crew) (es : List Nat) : (x.tagP es).deckBase = x.deckBase := rfl
@[simp] theorem Crew.tagP_deckSize (x : Crew) (es : List Nat) : (x.tagP es).deckSize = x.deckSize := rfl
@[simp] theorem Crew.tagP_nStreams (x : Crew) (es : List Nat) : (x.tagP es).nStreams = x.nStreams := rfl
@[simp] theorem Crew.tagP_area (x : Crew) (es : List Nat) : (x.tagP es).area = x.area := rfl
@[simp] theorem Crew.tagP_threads (x : Crew) (es : List Nat) : (x.tagP es).threads = x.threads := rfl
@[simp] theorem Crew.tagP_kregs (x : Crew) (es : List Nat) : (x.tagP es).kregs = x.kregs := rfl
@[simp] theorem Crew.tagP_ctrs (x : Crew) (es : List Nat) : (x.tagP es).ctrs = x.ctrs := rfl
@[simp] theorem Crew.tagP_issued (x : Crew) (es : List Nat) : (x.tagP es).issued = x.issued := rfl
@[simp] theorem Crew.tagP_done (x : Crew) (es : List Nat) : (x.tagP es).done = x.done := rfl
@[simp] theorem Crew.tagP_efault (x : Crew) (es : List Nat) : (x.tagP es).efault = x.efault := rfl
@[simp] theorem Crew.tagP_lost (x : Crew) (es : List Nat) : (x.tagP es).lost = x.lost := rfl
@[simp] theorem Crew.tagP_fifo (x : Crew) (es : List Nat) : (x.tagP es).fifo = x.fifo := rfl
@[simp] theorem Crew.tagP_loads (x : Crew) (es : List Nat) : (x.tagP es).loads = x.loads := rfl
@[simp] theorem Crew.tagP_ctrOps (x : Crew) (es : List Nat) : (x.tagP es).ctrOps = x.ctrOps := rfl
@[simp] theorem Crew.tagP_steps (x : Crew) (es : List Nat) : (x.tagP es).steps = x.steps := rfl
@[simp] theorem Crew.tagP_lts (x : Crew) (es : List Nat) : (x.tagP es).lts = x.lts := rfl
@[simp] theorem Crew.tagP_slen (x : Crew) (es : List Nat) : (x.tagP es).slen = x.slen := rfl
@[simp] theorem Crew.tagP_streams (x : Crew) (es : List Nat) : (x.tagP es).streams = x.streams := rfl
@[simp] theorem Crew.tagP_scopyLen (x : Crew) (es : List Nat) : (x.tagP es).scopyLen = x.scopyLen := rfl
@[simp] theorem Crew.tagP_scopy (x : Crew) (es : List Nat) : (x.tagP es).scopy = x.scopy := rfl
@[simp] theorem Crew.tagP_watch (x : Crew) (es : List Nat) : (x.tagP es).watch = x.watch := rfl
@[simp] theorem Crew.tagP_join (x : Crew) (es : List Nat) : (x.tagP es).join = x.join := rfl
@[simp] theorem Crew.tagP_pcieWrites (x : Crew) (es : List Nat) : (x.tagP es).pcieWrites = x.pcieWrites := rfl
@[simp] theorem Crew.tagP_cmdTime (x : Crew) (es : List Nat) : (x.tagP es).cmdTime = x.cmdTime := rfl
@[simp] theorem Crew.tagP_early (x : Crew) (es : List Nat) : (x.tagP es).early = x.early := rfl
@[simp] theorem Crew.tagP_period (x : Crew) (es : List Nat) : (x.tagP es).period = x.period := rfl
@[simp] theorem Crew.tagP_startAt (x : Crew) (es : List Nat) : (x.tagP es).startAt = x.startAt := rfl
@[simp] theorem Crew.tagP_badLanes (x : Crew) (es : List Nat) : (x.tagP es).badLanes = x.badLanes := rfl
@[simp] theorem Crew.tagP_fetched (x : Crew) (es : List Nat) : (x.tagP es).fetched = x.fetched := rfl

/-! Crew.setKreg changes kregs only. -/

@[simp] theorem Crew.setKreg_grid (x : Crew) (k : Nat) (v : DWord) : (x.setKreg k v).grid = x.grid := by
  unfold Crew.setKreg; split <;> rfl
@[simp] theorem Crew.setKreg_team (x : Crew) (k : Nat) (v : DWord) : (x.setKreg k v).team = x.team := by
  unfold Crew.setKreg; split <;> rfl
@[simp] theorem Crew.setKreg_crew (x : Crew) (k : Nat) (v : DWord) : (x.setKreg k v).crew = x.crew := by
  unfold Crew.setKreg; split <;> rfl
@[simp] theorem Crew.setKreg_nCrew (x : Crew) (k : Nat) (v : DWord) : (x.setKreg k v).nCrew = x.nCrew := by
  unfold Crew.setKreg; split <;> rfl
@[simp] theorem Crew.setKreg_nTeam (x : Crew) (k : Nat) (v : DWord) : (x.setKreg k v).nTeam = x.nTeam := by
  unfold Crew.setKreg; split <;> rfl
@[simp] theorem Crew.setKreg_depth (x : Crew) (k : Nat) (v : DWord) : (x.setKreg k v).depth = x.depth := by
  unfold Crew.setKreg; split <;> rfl
@[simp] theorem Crew.setKreg_ctx (x : Crew) (k : Nat) (v : DWord) : (x.setKreg k v).ctx = x.ctx := by
  unfold Crew.setKreg; split <;> rfl
@[simp] theorem Crew.setKreg_cluster (x : Crew) (k : Nat) (v : DWord) : (x.setKreg k v).cluster = x.cluster := by
  unfold Crew.setKreg; split <;> rfl
@[simp] theorem Crew.setKreg_ldet (x : Crew) (k : Nat) (v : DWord) : (x.setKreg k v).ldet = x.ldet := by
  unfold Crew.setKreg; split <;> rfl
@[simp] theorem Crew.setKreg_cb (x : Crew) (k : Nat) (v : DWord) : (x.setKreg k v).cb = x.cb := by
  unfold Crew.setKreg; split <;> rfl
@[simp] theorem Crew.setKreg_trapv (x : Crew) (k : Nat) (v : DWord) : (x.setKreg k v).trapv = x.trapv := by
  unfold Crew.setKreg; split <;> rfl
@[simp] theorem Crew.setKreg_deckBase (x : Crew) (k : Nat) (v : DWord) : (x.setKreg k v).deckBase = x.deckBase := by
  unfold Crew.setKreg; split <;> rfl
@[simp] theorem Crew.setKreg_deckSize (x : Crew) (k : Nat) (v : DWord) : (x.setKreg k v).deckSize = x.deckSize := by
  unfold Crew.setKreg; split <;> rfl
@[simp] theorem Crew.setKreg_nStreams (x : Crew) (k : Nat) (v : DWord) : (x.setKreg k v).nStreams = x.nStreams := by
  unfold Crew.setKreg; split <;> rfl
@[simp] theorem Crew.setKreg_area (x : Crew) (k : Nat) (v : DWord) : (x.setKreg k v).area = x.area := by
  unfold Crew.setKreg; split <;> rfl
@[simp] theorem Crew.setKreg_threads (x : Crew) (k : Nat) (v : DWord) : (x.setKreg k v).threads = x.threads := by
  unfold Crew.setKreg; split <;> rfl
@[simp] theorem Crew.setKreg_utags (x : Crew) (k : Nat) (v : DWord) : (x.setKreg k v).utags = x.utags := by
  unfold Crew.setKreg; split <;> rfl
@[simp] theorem Crew.setKreg_ctrs (x : Crew) (k : Nat) (v : DWord) : (x.setKreg k v).ctrs = x.ctrs := by
  unfold Crew.setKreg; split <;> rfl
@[simp] theorem Crew.setKreg_issued (x : Crew) (k : Nat) (v : DWord) : (x.setKreg k v).issued = x.issued := by
  unfold Crew.setKreg; split <;> rfl
@[simp] theorem Crew.setKreg_done (x : Crew) (k : Nat) (v : DWord) : (x.setKreg k v).done = x.done := by
  unfold Crew.setKreg; split <;> rfl
@[simp] theorem Crew.setKreg_efault (x : Crew) (k : Nat) (v : DWord) : (x.setKreg k v).efault = x.efault := by
  unfold Crew.setKreg; split <;> rfl
@[simp] theorem Crew.setKreg_lost (x : Crew) (k : Nat) (v : DWord) : (x.setKreg k v).lost = x.lost := by
  unfold Crew.setKreg; split <;> rfl
@[simp] theorem Crew.setKreg_fifo (x : Crew) (k : Nat) (v : DWord) : (x.setKreg k v).fifo = x.fifo := by
  unfold Crew.setKreg; split <;> rfl
@[simp] theorem Crew.setKreg_loads (x : Crew) (k : Nat) (v : DWord) : (x.setKreg k v).loads = x.loads := by
  unfold Crew.setKreg; split <;> rfl
@[simp] theorem Crew.setKreg_ctrOps (x : Crew) (k : Nat) (v : DWord) : (x.setKreg k v).ctrOps = x.ctrOps := by
  unfold Crew.setKreg; split <;> rfl
@[simp] theorem Crew.setKreg_steps (x : Crew) (k : Nat) (v : DWord) : (x.setKreg k v).steps = x.steps := by
  unfold Crew.setKreg; split <;> rfl
@[simp] theorem Crew.setKreg_lts (x : Crew) (k : Nat) (v : DWord) : (x.setKreg k v).lts = x.lts := by
  unfold Crew.setKreg; split <;> rfl
@[simp] theorem Crew.setKreg_slen (x : Crew) (k : Nat) (v : DWord) : (x.setKreg k v).slen = x.slen := by
  unfold Crew.setKreg; split <;> rfl
@[simp] theorem Crew.setKreg_streams (x : Crew) (k : Nat) (v : DWord) : (x.setKreg k v).streams = x.streams := by
  unfold Crew.setKreg; split <;> rfl
@[simp] theorem Crew.setKreg_scopyLen (x : Crew) (k : Nat) (v : DWord) : (x.setKreg k v).scopyLen = x.scopyLen := by
  unfold Crew.setKreg; split <;> rfl
@[simp] theorem Crew.setKreg_scopy (x : Crew) (k : Nat) (v : DWord) : (x.setKreg k v).scopy = x.scopy := by
  unfold Crew.setKreg; split <;> rfl
@[simp] theorem Crew.setKreg_watch (x : Crew) (k : Nat) (v : DWord) : (x.setKreg k v).watch = x.watch := by
  unfold Crew.setKreg; split <;> rfl
@[simp] theorem Crew.setKreg_join (x : Crew) (k : Nat) (v : DWord) : (x.setKreg k v).join = x.join := by
  unfold Crew.setKreg; split <;> rfl
@[simp] theorem Crew.setKreg_pcieWrites (x : Crew) (k : Nat) (v : DWord) : (x.setKreg k v).pcieWrites = x.pcieWrites := by
  unfold Crew.setKreg; split <;> rfl
@[simp] theorem Crew.setKreg_cmdTime (x : Crew) (k : Nat) (v : DWord) : (x.setKreg k v).cmdTime = x.cmdTime := by
  unfold Crew.setKreg; split <;> rfl
@[simp] theorem Crew.setKreg_early (x : Crew) (k : Nat) (v : DWord) : (x.setKreg k v).early = x.early := by
  unfold Crew.setKreg; split <;> rfl
@[simp] theorem Crew.setKreg_period (x : Crew) (k : Nat) (v : DWord) : (x.setKreg k v).period = x.period := by
  unfold Crew.setKreg; split <;> rfl
@[simp] theorem Crew.setKreg_startAt (x : Crew) (k : Nat) (v : DWord) : (x.setKreg k v).startAt = x.startAt := by
  unfold Crew.setKreg; split <;> rfl
@[simp] theorem Crew.setKreg_badLanes (x : Crew) (k : Nat) (v : DWord) : (x.setKreg k v).badLanes = x.badLanes := by
  unfold Crew.setKreg; split <;> rfl
@[simp] theorem Crew.setKreg_fetched (x : Crew) (k : Nat) (v : DWord) : (x.setKreg k v).fetched = x.fetched := by
  unfold Crew.setKreg; split <;> rfl

/-! Thread.next changes pc, hints only. -/

@[simp] theorem Thread.next_st (x : Thread) : (x.next).st = x.st := rfl
@[simp] theorem Thread.next_outside (x : Thread) : (x.next).outside = x.outside := rfl
@[simp] theorem Thread.next_regs (x : Thread) : (x.next).regs = x.regs := rfl
@[simp] theorem Thread.next_preds (x : Thread) : (x.next).preds = x.preds := rfl
@[simp] theorem Thread.next_fpflags (x : Thread) : (x.next).fpflags = x.fpflags := rfl
@[simp] theorem Thread.next_trap (x : Thread) : (x.next).trap = x.trap := rfl
@[simp] theorem Thread.next_limit (x : Thread) : (x.next).limit = x.limit := rfl
@[simp] theorem Thread.next_lo (x : Thread) : (x.next).lo = x.lo := rfl
@[simp] theorem Thread.next_depth (x : Thread) : (x.next).depth = x.depth := rfl
@[simp] theorem Thread.next_spillb (x : Thread) : (x.next).spillb = x.spillb := rfl
@[simp] theorem Thread.next_trapinfo (x : Thread) : (x.next).trapinfo = x.trapinfo := rfl
@[simp] theorem Thread.next_trappc (x : Thread) : (x.next).trappc = x.trappc := rfl
@[simp] theorem Thread.next_trapaddr (x : Thread) : (x.next).trapaddr = x.trapaddr := rfl

/-! Thread.put changes regs only. -/

@[simp] theorem Thread.put_pc (x : Thread) (e : Nat) (v : Word) : (x.put e v).pc = x.pc := by
  unfold Thread.put; split <;> rfl
@[simp] theorem Thread.put_st (x : Thread) (e : Nat) (v : Word) : (x.put e v).st = x.st := by
  unfold Thread.put; split <;> rfl
@[simp] theorem Thread.put_outside (x : Thread) (e : Nat) (v : Word) : (x.put e v).outside = x.outside := by
  unfold Thread.put; split <;> rfl
@[simp] theorem Thread.put_preds (x : Thread) (e : Nat) (v : Word) : (x.put e v).preds = x.preds := by
  unfold Thread.put; split <;> rfl
@[simp] theorem Thread.put_fpflags (x : Thread) (e : Nat) (v : Word) : (x.put e v).fpflags = x.fpflags := by
  unfold Thread.put; split <;> rfl
@[simp] theorem Thread.put_trap (x : Thread) (e : Nat) (v : Word) : (x.put e v).trap = x.trap := by
  unfold Thread.put; split <;> rfl
@[simp] theorem Thread.put_limit (x : Thread) (e : Nat) (v : Word) : (x.put e v).limit = x.limit := by
  unfold Thread.put; split <;> rfl
@[simp] theorem Thread.put_lo (x : Thread) (e : Nat) (v : Word) : (x.put e v).lo = x.lo := by
  unfold Thread.put; split <;> rfl
@[simp] theorem Thread.put_depth (x : Thread) (e : Nat) (v : Word) : (x.put e v).depth = x.depth := by
  unfold Thread.put; split <;> rfl
@[simp] theorem Thread.put_spillb (x : Thread) (e : Nat) (v : Word) : (x.put e v).spillb = x.spillb := by
  unfold Thread.put; split <;> rfl
@[simp] theorem Thread.put_trapinfo (x : Thread) (e : Nat) (v : Word) : (x.put e v).trapinfo = x.trapinfo := by
  unfold Thread.put; split <;> rfl
@[simp] theorem Thread.put_trappc (x : Thread) (e : Nat) (v : Word) : (x.put e v).trappc = x.trappc := by
  unfold Thread.put; split <;> rfl
@[simp] theorem Thread.put_trapaddr (x : Thread) (e : Nat) (v : Word) : (x.put e v).trapaddr = x.trapaddr := by
  unfold Thread.put; split <;> rfl
@[simp] theorem Thread.put_hints (x : Thread) (e : Nat) (v : Word) : (x.put e v).hints = x.hints := by
  unfold Thread.put; split <;> rfl

/-! Thread.setPred changes preds only. -/

@[simp] theorem Thread.setPred_pc (x : Thread) (n : Nat) (v : Bool) : (x.setPred n v).pc = x.pc := by
  unfold Thread.setPred; split <;> rfl
@[simp] theorem Thread.setPred_st (x : Thread) (n : Nat) (v : Bool) : (x.setPred n v).st = x.st := by
  unfold Thread.setPred; split <;> rfl
@[simp] theorem Thread.setPred_outside (x : Thread) (n : Nat) (v : Bool) : (x.setPred n v).outside = x.outside := by
  unfold Thread.setPred; split <;> rfl
@[simp] theorem Thread.setPred_regs (x : Thread) (n : Nat) (v : Bool) : (x.setPred n v).regs = x.regs := by
  unfold Thread.setPred; split <;> rfl
@[simp] theorem Thread.setPred_fpflags (x : Thread) (n : Nat) (v : Bool) : (x.setPred n v).fpflags = x.fpflags := by
  unfold Thread.setPred; split <;> rfl
@[simp] theorem Thread.setPred_trap (x : Thread) (n : Nat) (v : Bool) : (x.setPred n v).trap = x.trap := by
  unfold Thread.setPred; split <;> rfl
@[simp] theorem Thread.setPred_limit (x : Thread) (n : Nat) (v : Bool) : (x.setPred n v).limit = x.limit := by
  unfold Thread.setPred; split <;> rfl
@[simp] theorem Thread.setPred_lo (x : Thread) (n : Nat) (v : Bool) : (x.setPred n v).lo = x.lo := by
  unfold Thread.setPred; split <;> rfl
@[simp] theorem Thread.setPred_depth (x : Thread) (n : Nat) (v : Bool) : (x.setPred n v).depth = x.depth := by
  unfold Thread.setPred; split <;> rfl
@[simp] theorem Thread.setPred_spillb (x : Thread) (n : Nat) (v : Bool) : (x.setPred n v).spillb = x.spillb := by
  unfold Thread.setPred; split <;> rfl
@[simp] theorem Thread.setPred_trapinfo (x : Thread) (n : Nat) (v : Bool) : (x.setPred n v).trapinfo = x.trapinfo := by
  unfold Thread.setPred; split <;> rfl
@[simp] theorem Thread.setPred_trappc (x : Thread) (n : Nat) (v : Bool) : (x.setPred n v).trappc = x.trappc := by
  unfold Thread.setPred; split <;> rfl
@[simp] theorem Thread.setPred_trapaddr (x : Thread) (n : Nat) (v : Bool) : (x.setPred n v).trapaddr = x.trapaddr := by
  unfold Thread.setPred; split <;> rfl
@[simp] theorem Thread.setPred_hints (x : Thread) (n : Nat) (v : Bool) : (x.setPred n v).hints = x.hints := by
  unfold Thread.setPred; split <;> rfl

/-! Thread.write changes regs only. -/

@[simp] theorem Thread.write_pc (x : Thread) (r : Reg) (w : Bool) (v : DWord) : (x.write r w v).pc = x.pc := by
  unfold Thread.write; split <;> (try split) <;> simp
@[simp] theorem Thread.write_st (x : Thread) (r : Reg) (w : Bool) (v : DWord) : (x.write r w v).st = x.st := by
  unfold Thread.write; split <;> (try split) <;> simp
@[simp] theorem Thread.write_outside (x : Thread) (r : Reg) (w : Bool) (v : DWord) : (x.write r w v).outside = x.outside := by
  unfold Thread.write; split <;> (try split) <;> simp
@[simp] theorem Thread.write_preds (x : Thread) (r : Reg) (w : Bool) (v : DWord) : (x.write r w v).preds = x.preds := by
  unfold Thread.write; split <;> (try split) <;> simp
@[simp] theorem Thread.write_fpflags (x : Thread) (r : Reg) (w : Bool) (v : DWord) : (x.write r w v).fpflags = x.fpflags := by
  unfold Thread.write; split <;> (try split) <;> simp
@[simp] theorem Thread.write_trap (x : Thread) (r : Reg) (w : Bool) (v : DWord) : (x.write r w v).trap = x.trap := by
  unfold Thread.write; split <;> (try split) <;> simp
@[simp] theorem Thread.write_limit (x : Thread) (r : Reg) (w : Bool) (v : DWord) : (x.write r w v).limit = x.limit := by
  unfold Thread.write; split <;> (try split) <;> simp
@[simp] theorem Thread.write_lo (x : Thread) (r : Reg) (w : Bool) (v : DWord) : (x.write r w v).lo = x.lo := by
  unfold Thread.write; split <;> (try split) <;> simp
@[simp] theorem Thread.write_depth (x : Thread) (r : Reg) (w : Bool) (v : DWord) : (x.write r w v).depth = x.depth := by
  unfold Thread.write; split <;> (try split) <;> simp
@[simp] theorem Thread.write_spillb (x : Thread) (r : Reg) (w : Bool) (v : DWord) : (x.write r w v).spillb = x.spillb := by
  unfold Thread.write; split <;> (try split) <;> simp
@[simp] theorem Thread.write_trapinfo (x : Thread) (r : Reg) (w : Bool) (v : DWord) : (x.write r w v).trapinfo = x.trapinfo := by
  unfold Thread.write; split <;> (try split) <;> simp
@[simp] theorem Thread.write_trappc (x : Thread) (r : Reg) (w : Bool) (v : DWord) : (x.write r w v).trappc = x.trappc := by
  unfold Thread.write; split <;> (try split) <;> simp
@[simp] theorem Thread.write_trapaddr (x : Thread) (r : Reg) (w : Bool) (v : DWord) : (x.write r w v).trapaddr = x.trapaddr := by
  unfold Thread.write; split <;> (try split) <;> simp
@[simp] theorem Thread.write_hints (x : Thread) (r : Reg) (w : Bool) (v : DWord) : (x.write r w v).hints = x.hints := by
  unfold Thread.write; split <;> (try split) <;> simp
end Sys2Proof.Machine
end

