-- ==== Sys2Proof/Laws/Words.lean ====
section
/-! SUPPORT. What the shared operations of words do, said once: crews and threads read after they are written, and the
frame of a word with one result, of a floating-point word and of a word that writes a predicate. -/

namespace Sys2Proof.Machine

/-! ## Reading units after writing them -/

@[simp] theorem State.crew?_setCrew (s : State) (n m : Nat) (c : Crew) :
    (s.setCrew n c).crew? m = if m = n then some c else s.crew? m := by
  simp [State.crew?, State.setCrew]

@[simp] theorem State.crew?_spend (s : State) (n m : Nat) : (s.spend n).crew? m = s.crew? m := rfl

@[simp] theorem State.crew?_modCrew (s : State) (n m : Nat) (f : Crew → Crew) :
    (s.modCrew n f).crew? m = if m = n then (s.crew? n).map f else s.crew? m := by
  unfold State.modCrew
  split
  · rename_i h
    by_cases hm : m = n <;> simp [hm, h]
  · rename_i h
    by_cases hm : m = n <;> simp [hm, h]

@[simp] theorem State.core_setCore (s : State) (n m : Nat) (c : Core) :
    (s.setCore n c).core m = if m = n then c else s.core m := by simp [State.core, State.setCore]

@[simp] theorem State.core_modCore (s : State) (n m : Nat) (f : Core → Core) :
    (s.modCore n f).core m = if m = n then f (s.core n) else s.core m := by simp [State.modCore]

@[simp] theorem State.die_setDie (s : State) (n m : Nat) (c : Die) :
    (s.setDie n c).die m = if m = n then c else s.die m := by simp [State.die, State.setDie]

@[simp] theorem State.slice_setSlice (s : State) (n m : Nat) (c : Slice) :
    (s.setSlice n c).slice m = if m = n then c else s.slice m := by simp [State.slice, State.setSlice]

@[simp] theorem State.context_setContext (s : State) (n m : Nat) (c : Context) :
    (s.setContext n c).context m = if m = n then c else s.context m := by simp [State.context, State.setContext]

@[simp] theorem State.queue_setQueue (s : State) (n m : Nat) (c : Queue) :
    (s.setQueue n c).queue m = if m = n then c else s.queue m := by simp [State.queue, State.setQueue]

@[simp] theorem State.byteAt_setCrew (s : State) (n : Nat) (c : Crew) (sp : Space) (a : Nat) :
    (s.setCrew n c).byteAt sp a = s.byteAt sp a := by cases sp <;> rfl

@[simp] theorem State.byteAt_spend (s : State) (n : Nat) (sp : Space) (a : Nat) :
    (s.spend n).byteAt sp a = s.byteAt sp a := by cases sp <;> rfl

/-! ## Threads of a crew -/

@[simp] theorem mapFrom_length {α β : Type} (f : Nat → α → β) (n : Nat) (l : List α) :
    (mapFrom f n l).length = l.length := by
  induction l generalizing n with
  | nil => rfl
  | cons a t ih => simp [mapFrom, ih]

theorem mapFrom_getD {α β : Type} (f : Nat → α → β) (n : Nat) (l : List α) (k : Nat) (a : α) (b : β)
    (h : k < l.length) : (mapFrom f n l).getD k b = f (n + k) (l.getD k a) := by
  induction l generalizing n k with
  | nil => simp at h
  | cons x t ih =>
    cases k with
    | zero => simp [mapFrom]
    | succ k =>
      have := ih (n + 1) k (by simpa using h)
      simpa [mapFrom, Nat.add_assoc, Nat.add_comm 1] using this

@[simp] theorem Crew.modLanes_length (c : Crew) (ls : List Nat) (f : Nat → Thread → Thread) :
    (c.modLanes ls f).threads.length = c.threads.length := by simp [Crew.modLanes]

theorem Crew.thread_modLanes (c : Crew) (ls : List Nat) (f : Nat → Thread → Thread) (l : Nat)
    (h : l < c.threads.length) :
    (c.modLanes ls f).thread l = if l ∈ ls then f l (c.thread l) else c.thread l := by
  unfold Crew.modLanes Crew.thread
  rw [mapFrom_getD _ _ _ _ Thread.gone _ h]
  simp

theorem Crew.thread_past (c : Crew) (l : Nat) (h : c.threads.length ≤ l) : c.thread l = Thread.gone := by
  simp [Crew.thread, h]

theorem Crew.thread_modLanes_not (c : Crew) (ls : List Nat) (f : Nat → Thread → Thread) (l : Nat) (h : l ∉ ls) :
    (c.modLanes ls f).thread l = c.thread l := by
  by_cases hl : l < c.threads.length
  · simp [Crew.thread_modLanes _ _ _ _ hl, h]
  · rw [Crew.thread_past _ _ (by simpa using hl), Crew.thread_past _ _ (by simpa using hl)]

@[simp] theorem setAt_length {α : Type} (l : List α) (n : Nat) (a : α) : (setAt l n a).length = l.length := by
  induction l generalizing n with
  | nil => rfl
  | cons x t ih => cases n <;> simp [setAt, ih]

theorem setAt_getD {α : Type} (l : List α) (n k : Nat) (a b : α) :
    (setAt l n a).getD k b = if k = n ∧ n < l.length then a else l.getD k b := by
  induction l generalizing n k with
  | nil => simp [setAt]
  | cons x t ih =>
    cases n with
    | zero => cases k <;> simp [setAt]
    | succ n =>
      cases k with
      | zero => simp [setAt]
      | succ k => simpa [setAt] using ih n k

@[simp] theorem Crew.setThread_length (c : Crew) (l : Nat) (t : Thread) :
    (c.setThread l t).threads.length = c.threads.length := by simp [Crew.setThread]

theorem Crew.thread_setThread (c : Crew) (n l : Nat) (t : Thread) (h : n < c.threads.length) :
    (c.setThread n t).thread l = if l = n then t else c.thread l := by
  simp [Crew.thread, Crew.setThread, setAt_getD, h, -List.getD_eq_getElem?_getD]

@[simp] theorem Crew.tagP_thread (c : Crew) (es : List Nat) (l : Nat) : (c.tagP es).thread l = c.thread l := rfl
@[simp] theorem Crew.tagP_kreg (c : Crew) (es : List Nat) (k : Nat) : (c.tagP es).kreg k = c.kreg k := rfl
@[simp] theorem Crew.next_kreg (c : Crew) (ls : List Nat) (k : Nat) : (c.next ls).kreg k = c.kreg k := rfl
@[simp] theorem Crew.modLanes_kreg (c : Crew) (ls : List Nat) (f : Nat → Thread → Thread) (k : Nat) :
    (c.modLanes ls f).kreg k = c.kreg k := rfl
@[simp] theorem Crew.setKreg_thread (c : Crew) (k : Nat) (v : DWord) (l : Nat) :
    (c.setKreg k v).thread l = c.thread l := by unfold Crew.setKreg; split <;> rfl

/-- A storage tag is all that tagWrite changes (R69). -/
theorem Crew.tagWrite_rest (c old : Crew) (act : List Nat) (u : Bool) (f : Nat) :
    c.tagWrite old act u f = { c with utags := (c.tagWrite old act u f).utags } := by
  unfold Crew.tagWrite
  split
  · rfl
  · dsimp only
    split <;> rfl

@[simp] theorem Crew.tagWrite_thread (c old : Crew) (act : List Nat) (u : Bool) (f l : Nat) :
    (c.tagWrite old act u f).thread l = c.thread l := by rw [Crew.tagWrite_rest]; rfl

@[simp] theorem Crew.tagWrite_threads (c old : Crew) (act : List Nat) (u : Bool) (f : Nat) :
    (c.tagWrite old act u f).threads = c.threads := by rw [Crew.tagWrite_rest]

@[simp] theorem Crew.tagWrite_kreg (c old : Crew) (act : List Nat) (u : Bool) (f k : Nat) :
    (c.tagWrite old act u f).kreg k = c.kreg k := by rw [Crew.tagWrite_rest]; rfl

/-! ## Registers and predicates of a thread -/

@[simp] theorem Thread.get_zero (t : Thread) : t.get 0 = 0 := by simp [Thread.get]

@[simp] theorem Thread.get_put (t : Thread) (e e' : Nat) (v : Word) :
    (t.put e v).get e' = if e' = 0 then 0 else if e' = e then v else t.get e' := by
  unfold Thread.put Thread.get
  by_cases he : e = 0
  · by_cases h : e' = 0
    · simp [h]
    · have : e' ≠ e := by omega
      simp [he, h]
  · by_cases h : e' = 0
    · simp [h]
    · simp [he, h]

theorem Thread.put_rest (t : Thread) (e : Nat) (v : Word) : t.put e v = { t with regs := (t.put e v).regs } := by
  unfold Thread.put; split <;> rfl

theorem Thread.write_rest (t : Thread) (d : Reg) (w : Bool) (v : DWord) :
    t.write d w v = { t with regs := (t.write d w v).regs } := by
  unfold Thread.write
  split
  · split
    · rfl
    · rw [Thread.put_rest (t.put _ _), Thread.put_rest t]
  · rw [Thread.put_rest t]

theorem Thread.entry_congr {t t' : Thread} (h : t'.depth = t.depth) (f : Nat) : t'.entry f = t.entry f := by
  simp [Thread.entry, h]

theorem Thread.get_congr {t t' : Thread} (h : t'.regs = t.regs) (e : Nat) : t'.get e = t.get e := by
  simp [Thread.get, h]

/-- The registers after a write are those RegsAfter says (R57). -/
theorem Thread.write_get (t : Thread) (d : Reg) (w : Bool) (v : DWord) (e : Nat) :
    (t.write d w v).get e =
      if e = 0 then 0
      else if e = t.entry d.toNat ∧ ¬(w = true ∧ d = 0) then v.setWidth 32
      else if e = t.entry (d.toNat + 1) ∧ w = true ∧ d ≠ 0 then v.extractLsb' 32 32
      else t.get e := by
  have hd : t.entry d.toNat ≠ t.entry (d.toNat + 1) := by
    unfold Thread.entry
    have := d.isLt
    split <;> split <;> omega
  unfold Thread.write
  cases w with
  | false => simp
  | true =>
    by_cases h0 : d = 0
    · subst h0
      by_cases he : e = 0 <;> simp [he]
    · have h0 : ¬ d = 0#6 := h0
      by_cases he : e = 0
      · simp [he]
      · by_cases h1 : e = t.entry (d.toNat + 1)
        · have h2 : e ≠ t.entry d.toNat := fun h => hd (h.symm.trans h1)
          have h3 : ¬ t.entry (d.toNat + 1) = t.entry d.toNat := fun h => hd h.symm
          have h4 : t.entry (d.toNat + 1) ≠ 0 := h1 ▸ he
          simp [h0, h1, h3, h4]
        · simp [h0, he, h1]

@[simp] theorem Crew.kreg_setKreg (c : Crew) (k k' : Nat) (v : DWord) :
    (c.setKreg k v).kreg k' = if k' = 0 then 0 else if k' = k then v else c.kreg k' := by
  unfold Crew.setKreg Crew.kreg
  by_cases hk : k = 0
  · by_cases h : k' = 0
    · simp [h]
    · have : k' ≠ k := by omega
      simp [hk, h]
  · by_cases h : k' = 0
    · simp [h]
    · simp [hk, h]

@[simp] theorem Crew.kreg_zero (c : Crew) : c.kreg 0 = 0 := by simp [Crew.kreg]

@[simp] theorem Thread.pred_zero (t : Thread) : t.pred 0 = true := by simp [Thread.pred]

/-- A predicate read after a predicate is written (R56). -/
theorem Thread.pred_setPred (t : Thread) (p n : Nat) (v : Bool) (hp : p < 8) (hn : n < 8) :
    (t.setPred p v).pred n = if n = 0 then true else if n = p then v else t.pred n := by
  unfold Thread.pred Thread.setPred
  by_cases h0 : p = 0
  · by_cases h : n = 0
    · simp [h]
    · have : n ≠ p := by omega
      simp [h0, h]
  · by_cases h : n = 0
    · simp [h]
    · have hs : ∀ j, ((1 : BitVec 8) <<< p).getLsbD j = decide (j < 8 ∧ j = p) := by
        intro j
        simp only [BitVec.getLsbD_shiftLeft]
        by_cases h1 : j < 8 <;> by_cases h2 : j < p <;> by_cases h3 : j = p <;> simp [h1, h2, h3] <;> omega
      cases v
      · simp only [h0, h, if_false, Bool.false_eq_true, BitVec.getLsbD_and, BitVec.getLsbD_not]
        rw [hs]
        by_cases hnp : n = p <;> simp [hn, hnp, hp]
      · simp only [h0, h, if_false, if_true, BitVec.getLsbD_or]
        rw [hs]
        by_cases hnp : n = p <;> simp [hn, hnp, hp]

/-! ## The frame of a word -/

@[simp] theorem State.takeFaults_nil (s : State) (slot issued : Nat) : s.takeFaults slot issued [] = s := rfl

/-- A word that is an instruction for every run thread goes on to its effect. -/
theorem State.wordFrame_runs {s : State} {c : Crew} (h : s.Runs c) (bad : Thread → Bool)
    (hb : ∀ l ∈ s.cur.lanes, bad (c.thread l) = false) (k : State → Nat → Crew → List Nat → State) :
    s.wordFrame bad k = .next (k s s.cur.slot c s.cur.lanes) := by
  have h1 : (s.cur.lanes.any fun l => bad (c.thread l)) = false := by
    rw [List.any_eq_false]; intro l hl; simp [hb l hl]
  simp [State.wordFrame, h.crew, h1]

theorem State.Plain.noImmx {s : State} {c : Crew} (h : s.Plain c) :
    ∀ l ∈ s.cur.lanes, Machine.noImmx (c.thread l) = false := by
  intro l hl; simp [Machine.noImmx, h l hl]

theorem State.Plain16.wideImmx {s : State} {c : Crew} (h : s.Plain16 c) :
    ∀ l ∈ s.cur.lanes, Machine.wideImmx (c.thread l) = false := by
  intro l hl
  unfold Machine.wideImmx
  split
  · rename_i p hp; simp [h l hl p hp]
  · rfl

/-- A crew set and time passing: the frame OnlyCrew. -/
theorem OnlyCrew.setCrew_spend (s : State) (c' : Crew) (n : Nat) :
    OnlyCrew s ((s.setCrew s.cur.slot c').spend n) c' where
  after := by simp
  others := by intro k hk; simp [hk]
  rest := rfl
  bytes := by intro sp a; simp
  time := by simp [State.spend]; omega

/-! ## A word of one result -/

theorem Crew.writeResults_rest (c : Crew) (act : List Nat) (d : Reg) (w u : Bool) (f : Nat → DWord) :
    c.writeResults act d w u f = { c with
      threads := (c.writeResults act d w u f).threads,
      kregs := (c.writeResults act d w u f).kregs, utags := (c.writeResults act d w u f).utags } := by
  unfold Crew.writeResults
  split
  · split
    · rfl
    · unfold Crew.writeK Crew.setKreg; split <;> rfl
  · dsimp only
    split
    · rfl
    · split
      · rw [Crew.tagWrite_rest, Crew.tagWrite_rest (c.modLanes act _)]; rfl
      · rw [Crew.tagWrite_rest]; rfl

@[simp] theorem Crew.writeResults_length (c : Crew) (act : List Nat) (d : Reg) (w u : Bool) (f : Nat → DWord) :
    (c.writeResults act d w u f).threads.length = c.threads.length := by
  unfold Crew.writeResults
  split
  · split
    · rfl
    · simp [Crew.writeK]
  · dsimp only
    repeat' split
    all_goals simp

theorem Crew.writeResults_thread (c : Crew) (act : List Nat) (d : Reg) (w u : Bool) (f : Nat → DWord) (l : Nat)
    (h : l < c.threads.length) :
    (c.writeResults act d w u f).thread l =
      if l ∈ act ∧ d.toNat < 48 then (c.thread l).write d w (f l) else c.thread l := by
  unfold Crew.writeResults
  split
  · rename_i hd
    have : ¬ d.toNat < 48 := by omega
    split
    · simp
    · simp [Crew.writeK, this]
  · rename_i hd
    have hd' : d.toNat < 48 := by omega
    dsimp only
    by_cases h0 : d = 0
    · simp only [if_pos h0, Crew.thread_modLanes _ _ _ _ h, hd', and_true]
    · rw [if_neg h0]
      cases w <;> simp [Crew.thread_modLanes _ _ _ _ h, hd']

theorem Crew.writeResults_kreg (c : Crew) (act : List Nat) (d : Reg) (w u : Bool) (f : Nat → DWord) :
    KregsAfter c (c.writeResults act d w u f) act d w f := by
  intro k
  unfold Crew.writeResults
  split
  · rename_i hd
    cases act with
    | nil => simp
    | cons l t => simp [Crew.writeK, hd]
  · rename_i hd
    cases act with
    | nil =>
      dsimp only
      by_cases h0 : d = 0
      · subst h0; simp
      · rw [if_neg h0]; cases w <;> simp
    | cons l t =>
      have h0 : ∀ c : Crew, (if k = 0 then 0 else c.kreg k) = c.kreg k := by
        intro c; split
        · rename_i h; simp [h]
        · rfl
      dsimp only
      by_cases hz : d = 0
      · simp only [if_pos hz, Crew.modLanes_kreg, List.head?_cons, hd, false_and, if_false, h0]
      · rw [if_neg hz]
        cases w <;> simp only [Bool.false_eq_true, ↓reduceIte, Crew.tagWrite_kreg, Crew.modLanes_kreg, List.head?_cons, hd,
          false_and, h0]

theorem mem_activeLanes {s : State} {c : Crew} {g : Guard} {l : Nat} :
    l ∈ s.activeLanes c g ↔ l ∈ s.cur.lanes ∧ (c.thread l).guard g = true := by
  simp [State.activeLanes]

/-- Results written, the run in sequence, time passing: a word of one result. -/
theorem writesRegister_of {s : State} {c : Crew} {i : Instr} {g : Guard} {d : Reg} {w u : Bool} {n : Nat}
    {f v : Nat → DWord} (h : s.Runs c)
    (he : exec i s =
      .next ((s.setCrew s.cur.slot ((c.writeResults (s.activeLanes c g) d w u f).next s.cur.lanes)).spend n))
    (hv : ∀ l ∈ s.cur.lanes, (c.thread l).guard g = true → f l = v l) : WritesRegister i g d w v s c := by
  refine ⟨_, _, he, OnlyCrew.setCrew_spend _ _ _, ⟨?_, ?_, ?_⟩, ?_, ?_⟩
  · unfold Crew.next Crew.modLanes
    rw [Crew.writeResults_rest]
  · simp [Crew.next]
  · intro l hl
    rw [Crew.next, Crew.thread_modLanes_not _ _ _ _ hl]
    by_cases hlt : l < c.threads.length
    · rw [Crew.writeResults_thread _ _ _ _ _ _ _ hlt]
      simp [State.activeLanes, hl]
    · rw [Crew.thread_past _ _ (by simpa using hlt), Crew.thread_past _ _ (by simpa using hlt)]
  · intro k
    rw [Crew.next_kreg, Crew.writeResults_kreg]
    cases ha : (s.activeLanes c g).head? with
    | none => rfl
    | some l =>
      have hm := mem_activeLanes.mp (List.mem_of_mem_head? ha)
      simp [hv l hm.1 hm.2]
  · intro l hl
    have hlt := h.lanes l hl
    have hact : l ∈ s.activeLanes c g ↔ (c.thread l).guard g = true := by simp [State.activeLanes, hl]
    rw [Crew.next, Crew.thread_modLanes _ _ _ _ (by simpa using hlt), if_pos hl,
      Crew.writeResults_thread _ _ _ _ _ _ _ hlt]
    by_cases hg : (c.thread l).guard g = true ∧ d.toNat < 48
    · rw [if_pos ⟨hact.mpr hg.1, hg.2⟩, if_pos hg, hv l hl hg.1]
      refine ⟨?_, ?_⟩
      · rw [Thread.write_rest]; rfl
      · intro e
        exact (Thread.get_congr (t := (c.thread l).write d w (v l)) rfl e).trans (Thread.write_get _ _ _ _ e)
    · rw [if_neg (fun h => hg ⟨hact.mp h.1, h.2⟩), if_neg hg]
      exact ⟨rfl, rfl⟩

/-- What regWord does. -/
theorem State.regWord_writes {s : State} {c : Crew} {i i' : Instr} {bad : Thread → Bool} {g : Guard} {d : Reg}
    {w : Bool} {cost : Nat} {up : Bool} {f : Crew → Nat → Thread → DWord} {v : Nat → DWord}
    (he : exec i s = s.regWord i' bad g d w cost up f) (h : s.Runs c)
    (hb : ∀ l ∈ s.cur.lanes, bad (c.thread l) = false)
    (hv : ∀ l ∈ s.cur.lanes, (c.thread l).guard g = true → f c l (c.thread l) = v l) :
    WritesRegister i g d w v s c := by
  unfold State.regWord at he
  rw [State.wordFrame_runs h bad hb] at he
  exact writesRegister_of h he hv

/-! ## A floating-point word -/

/-- Results and flags written, the run in sequence, time passing: a floating-point word. -/
theorem writesFloat_of {s : State} {c : Crew} {i : Instr} {g : Guard} {d : Reg} {w u : Bool} {n : Nat}
    {f v : Nat → DWord × Nat} {flagged : List Nat} (h : s.Runs c) (hf : ∀ l ∈ flagged, l ∈ s.activeLanes c g)
    (he : exec i s =
      .next ((s.setCrew s.cur.slot
        (((c.writeResults (s.activeLanes c g) d w u fun l => (f l).1).modLanes flagged fun l t =>
          { t with fpflags := t.fpflags ||| BitVec.ofNat 32 (f l).2 }).next s.cur.lanes)).spend n))
    (hv : ∀ l ∈ s.cur.lanes, (c.thread l).guard g = true → f l = v l) : WritesFloat i g d w v flagged s c := by
  refine ⟨_, _, he, OnlyCrew.setCrew_spend _ _ _, ⟨?_, ?_, ?_⟩, ?_, ?_⟩
  · unfold Crew.next Crew.modLanes
    rw [Crew.writeResults_rest]
  · simp [Crew.next]
  · intro l hl
    have hna : l ∉ s.activeLanes c g := by simp [State.activeLanes, hl]
    rw [Crew.next, Crew.thread_modLanes_not _ _ _ _ hl, Crew.thread_modLanes_not _ _ _ _ (fun h => hna (hf l h))]
    by_cases hlt : l < c.threads.length
    · rw [Crew.writeResults_thread _ _ _ _ _ _ _ hlt, if_neg (fun h => hna h.1)]
    · rw [Crew.thread_past _ _ (by simpa using hlt), Crew.thread_past _ _ (by simpa using hlt)]
  · intro k
    rw [Crew.next_kreg, Crew.modLanes_kreg, Crew.writeResults_kreg]
    cases ha : (s.activeLanes c g).head? with
    | none => rfl
    | some l =>
      have hm := mem_activeLanes.mp (List.mem_of_mem_head? ha)
      simp [hv l hm.1 hm.2]
  · intro l hl
    have hlt := h.lanes l hl
    have hact : l ∈ s.activeLanes c g ↔ (c.thread l).guard g = true := by simp [State.activeLanes, hl]
    rw [Crew.next, Crew.thread_modLanes _ _ _ _ (by simpa using hlt), if_pos hl,
      Crew.thread_modLanes _ _ _ _ (by simpa using hlt), Crew.writeResults_thread _ _ _ _ _ _ _ hlt]
    have hflag : l ∈ flagged → f l = v l := fun hm => hv l hl (hact.mp (hf l hm))
    by_cases hm : l ∈ flagged
    · rw [if_pos hm, if_pos hm, hflag hm]
      by_cases hg : (c.thread l).guard g = true ∧ d.toNat < 48
      · rw [if_pos ⟨hact.mpr hg.1, hg.2⟩, if_pos hg]
        refine ⟨?_, ?_, ?_⟩
        · rw [Thread.write_rest]; rfl
        · simp [Thread.next]
        · intro e
          exact (Thread.get_congr (t := (c.thread l).write d w (v l).1) rfl e).trans (Thread.write_get _ _ _ _ e)
      · rw [if_neg (fun h => hg ⟨hact.mp h.1, h.2⟩), if_neg hg]
        exact ⟨rfl, rfl, rfl⟩
    · rw [if_neg hm, if_neg hm]
      by_cases hg : (c.thread l).guard g = true ∧ d.toNat < 48
      · rw [if_pos ⟨hact.mpr hg.1, hg.2⟩, if_pos hg, hv l hl hg.1]
        refine ⟨?_, ?_, ?_⟩
        · rw [Thread.write_rest]; rfl
        · simp [Thread.next]
        · intro e
          exact (Thread.get_congr (t := (c.thread l).write d w (v l).1) rfl e).trans (Thread.write_get _ _ _ _ e)
      · rw [if_neg (fun h => hg ⟨hact.mp h.1, h.2⟩), if_neg hg]
        exact ⟨rfl, rfl, rfl⟩

/-- The lanes a floating-point word flags, as the words choose them. -/
theorem State.computing_eq (s : State) (c : Crew) (g : Guard) (d : Reg) (u : Bool) :
    computedLanes (c.active s.cur.lanes g) d u = s.computing c g d u := by
  unfold State.computing computedLanes State.activeLanes Crew.active
  cases u <;> by_cases hd : d.toNat < 48 <;> simp [hd]
  exact List.filter_congr fun a _ => by rw [Bool.eq_iff_iff]; simp

theorem State.computing_active {s : State} {c : Crew} {g : Guard} {d : Reg} {u : Bool} :
    ∀ l ∈ s.computing c g d u, l ∈ s.activeLanes c g := by
  intro l hl
  unfold State.computing at hl
  split at hl
  · exact hl
  · exact (List.mem_filter.mp hl).1

/-- What fpWord does. -/
theorem State.fpWord_writes {s : State} {c : Crew} {i i' : Instr} {bad : Thread → Bool} {g : Guard} {d : Reg}
    {w : Bool} {cost : Nat} {f : Crew → Nat → Thread → DWord × Nat} {v : Nat → DWord × Nat}
    (he : exec i s = s.fpWord i' bad g d w cost f) (h : s.Runs c)
    (hb : ∀ l ∈ s.cur.lanes, bad (c.thread l) = false)
    (hv : ∀ l ∈ s.cur.lanes, (c.thread l).guard g = true → f c l (c.thread l) = v l) :
    WritesFloat i g d w v (s.computing c g d (c.uniformIssue s.cur.lanes i')) s c := by
  unfold State.fpWord at he
  rw [State.wordFrame_runs h bad hb] at he
  dsimp only at he
  rw [State.computing_eq] at he
  exact writesFloat_of h State.computing_active he hv

/-! ## A word that writes a predicate -/

theorem Thread.setPred_rest (t : Thread) (n : Nat) (b : Bool) :
    t.setPred n b = { t with preds := (t.setPred n b).preds } := by
  unfold Thread.setPred; split <;> rfl

/-- Predicates and flags written, the run in sequence, time passing. -/
theorem writesPredicate_of {s : State} {c : Crew} {i : Instr} {g : Guard} {p : BitVec 3} {n : Nat}
    {f : Nat → Thread → Thread} {v : Nat → Bool} {fl : Nat → Nat} (h : s.Runs c)
    (he : exec i s =
      .next ((s.setCrew s.cur.slot ((c.modLanes (s.activeLanes c g) f).next s.cur.lanes)).spend n))
    (hv : ∀ l ∈ s.cur.lanes, (c.thread l).guard g = true →
      f l (c.thread l) = { (c.thread l).setPred p.toNat (v l) with
        fpflags := (c.thread l).fpflags ||| BitVec.ofNat 32 (fl l) }) :
    WritesPredicate i g p v fl s c := by
  refine ⟨_, _, he, OnlyCrew.setCrew_spend _ _ _, ⟨rfl, by simp [Crew.next], ?_⟩, rfl, rfl, ?_⟩
  · intro l hl
    rw [Crew.next, Crew.thread_modLanes_not _ _ _ _ hl,
      Crew.thread_modLanes_not _ _ _ _ (by simp [State.activeLanes, hl])]
  · intro l hl
    have hlt := h.lanes l hl
    rw [Crew.next, Crew.thread_modLanes _ _ _ _ (by simpa using hlt), if_pos hl,
      Crew.thread_modLanes _ _ _ _ hlt]
    have hact : l ∈ s.activeLanes c g ↔ (c.thread l).guard g = true := by simp [State.activeLanes, hl]
    by_cases hg : (c.thread l).guard g = true
    · rw [if_pos (hact.mpr hg), if_pos hg, hv l hl hg]
      refine ⟨?_, rfl, ?_⟩
      · rw [Thread.setPred_rest]; rfl
      · intro n hn
        rw [← Thread.pred_setPred (c.thread l) p.toNat n (v l) p.isLt hn]
        simp [Thread.pred, Thread.next]
    · rw [if_neg (fun h => hg (hact.mp h)), if_neg hg]
      exact ⟨rfl, rfl, rfl⟩

/-- What predWord does. -/
theorem State.predWord_writes {s : State} {c : Crew} {i i' : Instr} {g : Guard} {p : BitVec 3} {cost : Nat}
    {up : Bool} {f : Crew → Nat → Thread → Bool × Nat} {v : Nat → Bool} {fl : Nat → Nat}
    (he : exec i s = s.predWord i' g p.toNat cost up f) (h : s.Runs c) (hp : s.Plain c)
    (hv : ∀ l ∈ s.cur.lanes, (c.thread l).guard g = true → f c l (c.thread l) = (v l, fl l)) :
    WritesPredicate i g p v fl s c := by
  unfold State.predWord at he
  rw [State.wordFrame_runs h _ hp.noImmx] at he
  exact writesPredicate_of h he (fun l hl hg => by simp only [hv l hl hg])

/-! ## The other frames of words -/

/-- What crewWord does. -/
theorem State.crewWord_runs {s : State} {c : Crew} (h : s.Runs c) (hp : s.Plain c) (g : Guard)
    (k : Crew → List Nat → Crew) :
    s.crewWord g k = .next ((s.setCrew s.cur.slot ((k c (s.activeLanes c g)).next s.cur.lanes)).spend 4) :=
  State.wordFrame_runs h _ hp.noImmx _

/-- What shflWord does. -/
theorem State.shflWord_writes {s : State} {c : Crew} {i : Instr} {g : Guard} {x y : Reg} {src : Crew → Nat → Nat}
    {v : Nat → DWord} (he : exec i s = s.shflWord g x y src) (h : s.Runs c) (hp : s.Plain c)
    (hv : ∀ l ∈ s.cur.lanes, (c.thread l).guard g = true →
      lo32 (c.read32 (c.thread (if (s.activeLanes c g).contains (src c l) then src c l else l)) y) = v l) :
    WritesRegister i g x false v s c := by
  unfold State.shflWord at he
  rw [State.crewWord_runs h hp] at he
  exact writesRegister_of h he hv

/-- What costWord does. -/
theorem State.costWord_runs {s : State} {c : Crew} (h : s.Runs c) (bad : Thread → Bool)
    (hb : ∀ l ∈ s.cur.lanes, bad (c.thread l) = false) (g : Guard) (cost : List Nat → Nat)
    (k : State → Nat → Crew → List Nat → List Nat → State) :
    s.costWord bad g cost k =
      .next ((k s s.cur.slot c s.cur.lanes (s.activeLanes c g)).spend (cost (s.activeLanes c g))) :=
  State.wordFrame_runs h _ hb _

/-- What issueWord does. -/
theorem State.issueWord_runs {s : State} {c : Crew} (h : s.Runs c) (bad : Thread → Bool)
    (hb : ∀ l ∈ s.cur.lanes, bad (c.thread l) = false) (g : Guard)
    (k : State → Nat → Crew → List Nat → List Nat → State) :
    s.issueWord bad g k = .next ((k s s.cur.slot c s.cur.lanes (s.activeLanes c g)).spend 1) :=
  State.costWord_runs h bad hb g _ k

/-- A word that is no instruction for some thread of the run is UNDEF for every thread of the run (R131, R135). -/
theorem State.wordFrame_undef {s : State} {c : Crew} (h : s.crew? s.cur.slot = some c) (bad : Thread → Bool)
    (hb : ∃ l ∈ s.cur.lanes, bad (c.thread l) = true) (k : State → Nat → Crew → List Nat → State) :
    s.wordFrame bad k =
      .next ((s.takeFaults s.cur.slot s.cycle (s.cur.lanes.map fun l => (l, { code := codeUndef }))).spend 1) := by
  have h1 : (s.cur.lanes.any fun l => bad (c.thread l)) = true := List.any_eq_true.mpr hb
  simp [State.wordFrame, h, h1]

/-! ## Words that act on each active lane in turn -/

@[simp] theorem State.setCrew_setCrew (s : State) (n : Nat) (c c' : Crew) :
    (s.setCrew n c).setCrew n c' = s.setCrew n c' := by simp [State.setCrew]

theorem State.Runs.nodup {s : State} {c : Crew} (h : s.Runs c) : s.cur.lanes.Nodup :=
  h.rising.imp (fun hlt => Nat.ne_of_lt hlt)

theorem State.Runs.active_nodup {s : State} {c : Crew} (h : s.Runs c) (g : Guard) : (s.activeLanes c g).Nodup :=
  h.nodup.filter _

theorem mapFrom_congr {α β : Type} (f g : Nat → α → β) (n : Nat) (l : List α)
    (h : ∀ k a, n ≤ k → l[k - n]? = some a → f k a = g k a) : mapFrom f n l = mapFrom g n l := by
  induction l generalizing n with
  | nil => rfl
  | cons a t ih =>
    have h0 : f n a = g n a := h n a (Nat.le_refl _) (by simp)
    have ht : mapFrom f (n + 1) t = mapFrom g (n + 1) t := ih (n + 1) (fun k b hk hb => by
      apply h k b (by omega)
      have : k - n = (k - (n + 1)) + 1 := by omega
      rw [this]; simpa using hb)
    simp [mapFrom, h0, ht]

theorem mapFrom_id {α : Type} (n : Nat) (l : List α) : mapFrom (fun _ a => a) n l = l := by
  induction l generalizing n with
  | nil => rfl
  | cons a t ih => simp [mapFrom, ih]

@[simp] theorem Crew.modLanes_nil (c : Crew) (f : Nat → Thread → Thread) : c.modLanes [] f = c := by
  simp [Crew.modLanes, mapFrom_id]

theorem mapFrom_setAt {α β : Type} (f : Nat → α → β) (n k : Nat) (l : List α) (a : α) :
    mapFrom f n (setAt l k a) = setAt (mapFrom f n l) k (f (n + k) a) := by
  induction l generalizing n k with
  | nil => cases k <;> rfl
  | cons x t ih =>
    cases k with
    | zero => rfl
    | succ k => simp [setAt, mapFrom, ih, Nat.add_assoc, Nat.add_comm 1]

theorem mapFrom_eq_setAt {α : Type} (f : Nat → α → α) (n k : Nat) (l : List α) (d : α) (hk : k < l.length)
    (h : ∀ j a, j ≠ n + k → f j a = a) : mapFrom f n l = setAt l k (f (n + k) (l.getD k d)) := by
  induction l generalizing n k with
  | nil => simp at hk
  | cons x t ih =>
    cases k with
    | zero =>
      have : mapFrom f (n + 1) t = t := by
        rw [mapFrom_congr f (fun _ a => a) (n + 1) t (fun j a hj _ => h j a (by omega)), mapFrom_id]
      simp [mapFrom, setAt, this]
    | succ k =>
      have h0 : f n x = x := h n x (by omega)
      have := ih (n + 1) k (by simpa using hk) (fun j a hj => h j a (by omega))
      simp only [mapFrom, setAt, h0, List.getD_cons_succ]
      rw [this, show n + 1 + k = n + (k + 1) by omega]

/-- The threads of some distinct lanes changed together are those lanes changed one by one. -/
theorem Crew.modLanes_cons (c : Crew) (l : Nat) (t : List Nat) (f : Nat → Thread → Thread) (hl : l ∉ t)
    (hlt : l < c.threads.length) :
    c.modLanes (l :: t) f = (c.setThread l (f l (c.thread l))).modLanes t f := by
  unfold Crew.modLanes Crew.setThread
  congr 1
  dsimp only
  rw [mapFrom_setAt]
  have h0 : (if t.contains (0 + l) = true then f (0 + l) (f l (c.thread l)) else f l (c.thread l)) = f l (c.thread l) := by
    simp [hl]
  rw [h0]
  have hlen : l < (mapFrom (fun (j : Nat) (a : Thread) => if t.contains j then f j a else a) 0 c.threads).length := by simpa
  have := mapFrom_eq_setAt (fun j a => if j = l then f l (c.thread l) else a) 0 l
    (mapFrom (fun (j : Nat) (a : Thread) => if t.contains j then f j a else a) 0 c.threads) Thread.gone hlen
    (fun j a hj => by simp at hj; simp [hj])
  simp only [Nat.zero_add, if_true] at this
  rw [← this]
  clear this hlen h0
  have key : ∀ (n : Nat) (ts : List Thread), (∀ k a, ts[k]? = some a → n + k = l → a = c.thread l) →
      mapFrom (fun j a => if (l :: t).contains j then f j a else a) n ts =
        mapFrom (fun j a => if j = l then f l (c.thread l) else a) n
          (mapFrom (fun (j : Nat) (a : Thread) => if t.contains j then f j a else a) n ts) := by
    intro n ts hts
    induction ts generalizing n with
    | nil => rfl
    | cons x u ih =>
      have hx := hts 0 x (by simp)
      simp only [mapFrom]
      congr 1
      · by_cases hn : n = l
        · simp [hn, hx (by omega)]
        · have : ¬ l = n := fun h => hn h.symm
          simp [hn]
      · exact ih (n + 1) (fun k a hk hkl => hts (k + 1) a (by simpa using hk) (by omega))
  exact key 0 c.threads (fun k a hk hkl => by
    have : k = l := by omega
    subst this
    simp [Crew.thread, hk])

/-- What a fold over distinct lanes does, when each lane's effect is a change of its own thread. -/
theorem foldLanes {slot : Nat} {G : State → Nat → State} {f : Nat → Thread → Thread}
    (act : List Nat) (s : State) (c : Crew) (hn : act.Nodup) (hlt : ∀ l ∈ act, l < c.threads.length)
    (hG : ∀ (s' : State) (c' : Crew) (l : Nat), l ∈ act → s'.crew? slot = some c' → c'.thread l = c.thread l →
      G s' l = s'.setCrew slot (c'.setThread l (f l (c.thread l)))) :
    act.foldl G (s.setCrew slot c) = s.setCrew slot (c.modLanes act f) := by
  induction act generalizing c s with
  | nil => simp
  | cons l t ih =>
    have hl : l ∉ t := (List.nodup_cons.mp hn).1
    have hll := hlt l (by simp)
    rw [List.foldl_cons, Crew.modLanes_cons c l t f hl hll,
      hG (s.setCrew slot c) c l (by simp) (by simp) rfl, State.setCrew_setCrew]
    refine ih s _ (List.nodup_cons.mp hn).2 (fun l' h => by simpa using hlt l' (by simp [h])) ?_
    intro s' c' l' hl' hs' hc'
    have hne : l' ≠ l := fun h => hl (h ▸ hl')
    have : (c.setThread l (f l (c.thread l))).thread l' = c.thread l' := by
      rw [Crew.thread_setThread _ _ _ _ hll]; simp [hne]
    rw [this] at hc' ⊢
    exact hG s' c' l' (by simp [hl']) hs' hc'

/-- Threads changed and time passing: the frame ChangesThreads. -/
theorem changesThreads_of {s : State} {c c' : Crew} {i : Instr} {g : Guard} {n : Nat} {after : Nat → Thread → Thread}
    (he : exec i s = .next ((s.setCrew s.cur.slot c').spend n))
    (h1 : c' = { c with threads := c'.threads, utags := c'.utags }) (h2 : c'.threads.length = c.threads.length)
    (h3 : ∀ l, l ∉ s.cur.lanes → c'.thread l = c.thread l)
    (h4 : ∀ l ∈ s.cur.lanes, c'.thread l = if (c.thread l).guard g = true then after l (c.thread l)
      else { c.thread l with pc := (c.thread l).pc + 4, hints := {} }) : ChangesThreads i g after s c :=
  ⟨_, c', he, OnlyCrew.setCrew_spend _ _ _, ⟨by rw [h1], h2, h3⟩, by rw [h1], h4⟩

/-- The threads of a run after the others have gone on and the active ones have changed. -/
theorem run_threads {s : State} {c : Crew} (h : s.Runs c) (g : Guard) (f : Nat → Thread → Thread) (l : Nat) :
    (((c.next (s.cur.lanes.filter fun l => !(s.activeLanes c g).contains l)).modLanes (s.activeLanes c g) f).thread l) =
      if l ∈ s.cur.lanes then
        if (c.thread l).guard g = true then f l (c.thread l)
        else { c.thread l with pc := (c.thread l).pc + 4, hints := {} }
      else c.thread l := by
  by_cases hl : l ∈ s.cur.lanes
  · have hlt := h.lanes l hl
    rw [Crew.thread_modLanes _ _ _ _ (by simpa [Crew.next] using hlt), Crew.next, Crew.thread_modLanes _ _ _ _ hlt]
    by_cases hg : (c.thread l).guard g = true
    · simp [State.activeLanes, hl, hg]
    · simp [State.activeLanes, hl, hg, Thread.next]
  · rw [Crew.thread_modLanes_not _ _ _ _ (by simp [State.activeLanes, hl]), Crew.next,
      Crew.thread_modLanes_not _ _ _ _ (by simp [hl])]
    simp [hl]

/-- What lanesWord does when each active lane's effect is a change of its own thread. -/
theorem State.lanesWord_changes {s : State} {c : Crew} {i : Instr} {bad : Thread → Bool} {g : Guard}
    {cost : List Nat → Nat} {F : State → Nat → Nat → Crew → Thread → State} {f : Nat → Thread → Thread}
    (he : exec i s = s.lanesWord bad g cost F) (h : s.Runs c) (hb : ∀ l ∈ s.cur.lanes, bad (c.thread l) = false)
    (hF : ∀ (s' : State) (c' : Crew) (l : Nat), l ∈ s.activeLanes c g → s'.crew? s.cur.slot = some c' →
      c'.thread l = c.thread l →
      F s' s.cur.slot l c' (c'.thread l) = s'.setCrew s.cur.slot (c'.setThread l (f l (c.thread l)))) :
    ChangesThreads i g f s c := by
  unfold State.lanesWord at he
  rw [State.costWord_runs h bad hb] at he
  dsimp only at he
  have hact : ∀ l ∈ s.activeLanes c g,
      (c.next (s.cur.lanes.filter fun l => !(s.activeLanes c g).contains l)).thread l = c.thread l := by
    intro l hl
    rw [Crew.next, Crew.thread_modLanes_not _ _ _ _ (by simp [hl])]
  rw [foldLanes (f := f) (s.activeLanes c g) s _ (h.active_nodup g)
    (fun l hl => by simpa [Crew.next] using h.lanes l (mem_activeLanes.mp hl).1)
    (fun s' c' l hl hs hc => by simp only [hs]; rw [hact l hl] at hc ⊢; exact hF s' c' l hl hs hc)] at he
  refine changesThreads_of he rfl (by simp [Crew.next]) ?_ ?_
  · intro l hl; rw [run_threads h]; simp [hl]
  · intro l hl; rw [run_threads h]; simp [hl]

end Sys2Proof.Machine
end

