-- ==== Sys2Proof/Laws/Access.lean ====
section
/-! SUPPORT. What translation, fetch and the checks of an access may change: caches only (R127, R185, R208, R378). -/

namespace Sys2Proof.Machine

theorem CachesOnly.refl (s : State) : CachesOnly s s := ⟨rfl, fun _ => rfl, fun _ => rfl⟩

theorem CachesOnly.trans {s t u : State} (h : CachesOnly s t) (k : CachesOnly t u) : CachesOnly s u where
  rest := by rw [k.rest, h.rest]
  cores n := by rw [k.cores n, h.cores n]
  dies n := by rw [k.dies n, h.dies n]

/-- A core's caches set. -/
theorem CachesOnly.setCore (s : State) (n : Nat) (tl : Tlb) (ic : List (Nat × List Byte)) :
    CachesOnly s (s.setCore n { s.core n with tlb := tl, icache := ic }) where
  rest := rfl
  cores m := by
    rw [State.core_setCore]
    by_cases h : m = n
    · subst h; simp
    · simp [h]
  dies _ := rfl

/-- A die's translation cache and the lines its walkers have read set. -/
theorem CachesOnly.setDie (s : State) (n : Nat) (tl : Tlb) (w : List Nat) :
    CachesOnly s (s.setDie n { s.die n with tlb := tl, walks := w }) where
  rest := rfl
  cores _ := rfl
  dies m := by
    rw [State.die_setDie]
    by_cases h : m = n
    · subst h; simp
    · simp [h]

theorem CachesOnly.fresh (s : State) : CachesOnly s { s with fresh := s.fresh + 1 } := ⟨rfl, fun _ => rfl, fun _ => rfl⟩

theorem CachesOnly.crew? {s t : State} (h : CachesOnly s t) (n : Nat) : t.crew? n = s.crew? n := by
  rw [h.rest]; rfl

theorem CachesOnly.cur {s t : State} (h : CachesOnly s t) : t.cur = s.cur := by rw [h.rest]
theorem CachesOnly.cycle {s t : State} (h : CachesOnly s t) : t.cycle = s.cycle := by rw [h.rest]
theorem CachesOnly.mem {s t : State} (h : CachesOnly s t) : t.mem = s.mem := by rw [h.rest]
theorem CachesOnly.hostMem {s t : State} (h : CachesOnly s t) : t.hostMem = s.hostMem := by rw [h.rest]
theorem CachesOnly.nextId {s t : State} (h : CachesOnly s t) : t.nextId = s.nextId := by rw [h.rest]
theorem CachesOnly.context {s t : State} (h : CachesOnly s t) (x : Nat) : t.context x = s.context x := by
  rw [h.rest]; rfl

theorem CachesOnly.homeSlice {s t : State} (h : CachesOnly s t) (a : Nat) : t.homeSlice a = s.homeSlice a := by
  unfold State.homeSlice; dsimp only; rw [h.dies]; rfl

theorem CachesOnly.slice {s t : State} (h : CachesOnly s t) (n : Nat) : t.slice n = s.slice n := by
  rw [h.rest]; rfl

/-- Every byte reads as before. -/
theorem CachesOnly.bytes {s t : State} (h : CachesOnly s t) (sp : Space) (a : Nat) : t.byteAt sp a = s.byteAt sp a := by
  cases sp with
  | global =>
    show t.globalByte a = s.globalByte a
    unfold State.globalByte
    rw [h.homeSlice, h.slice, h.mem, h.hostMem]
  | deck c => show (t.core c).deck.byte a = _; rw [h.cores c]; rfl
  | obuf c => show (t.core c).obuf.byte a = _; rw [h.cores c]; rfl
  | mailbox => rfl

/-- A walk leaves a die as it was apart from the lines its walkers have read. -/
theorem Die.walked_eq (d : Die) (m : Memory) (poison : List Nat) (root a : Nat) :
    d.walked m poison root a = { d with walks := (d.walked m poison root a).walks } := by
  unfold Die.walked
  split <;> rfl

theorem State.translate_caches (s : State) (core ctx a : Nat) (kind : WalkKind) :
    CachesOnly s (s.translate core ctx a kind).2 := by
  unfold State.translate
  dsimp only
  split
  · exact CachesOnly.setCore s core _ _
  · split
    · exact (CachesOnly.setCore s core _ _).trans (CachesOnly.setDie _ (dieOf core) _ _)
    · rw [Die.walked_eq]
      split
      · exact CachesOnly.setDie s (dieOf core) _ _
      · exact (CachesOnly.setCore s core _ _).trans (CachesOnly.setDie _ (dieOf core) _ _)

theorem State.locate_caches (s : State) (slot : Nat) (c : Crew) (a : DWord) (n : Nat) (kind : WalkKind) :
    CachesOnly s (s.locate slot c a n kind).2 := by
  have h := s.translate_caches (coreOf slot) c.ctx a.toNat kind
  unfold State.locate
  split
  · exact CachesOnly.refl s
  · split
    · rename_i e; rw [e] at h; exact h
    · rename_i e; rw [e] at h
      split <;> exact h

/-- The checks of an access change caches only. -/
theorem State.check_caches (s : State) (slot : Nat) (c : Crew) (a : DWord) (n : Nat) (kind : WalkKind) :
    CachesOnly s (s.check slot c a n kind).2 := by
  unfold State.check
  split
  · exact CachesOnly.refl s
  · split
    · exact CachesOnly.refl s
    · exact s.locate_caches slot c a n kind

theorem State.codePlace_caches (s : State) (slot : Nat) (c : Crew) (a : Nat) :
    CachesOnly s (s.codePlace slot c a).2 := by
  have h := s.translate_caches (coreOf slot) c.ctx a .fetch
  unfold State.codePlace
  split
  · exact CachesOnly.fresh s
  · split
    · rename_i e; rw [e] at h; exact h
    · rename_i e; rw [e] at h; exact h

theorem State.fillCode_caches (s : State) (core line : Nat) (data : List Byte) :
    CachesOnly s (s.fillCode core line data) := by
  unfold State.fillCode
  dsimp only
  split
  · exact CachesOnly.setCore s core _ _
  · exact (CachesOnly.setCore s core _ _).trans (CachesOnly.fresh _)

theorem State.codeWord_caches (s : State) (core pa : Nat) : CachesOnly s (s.codeWord core pa).2 := by
  unfold State.codeWord
  split
  · exact CachesOnly.refl s
  · exact s.fillCode_caches _ _ _

/-- A fetch changes caches only. -/
theorem State.fetch_caches (s : State) (slot : Nat) (c : Crew) (pc : Word) : CachesOnly s (s.fetch slot c pc).2 := by
  have h := s.codePlace_caches slot c (c.codeAddr pc)
  unfold State.fetch
  dsimp only
  split
  · exact CachesOnly.refl s
  · split
    · rename_i e; rw [e] at h; exact h
    · rename_i e; rw [e] at h
      exact h.trans (State.codeWord_caches _ _ _)

/-- A target check changes caches only. -/
theorem State.landing_caches (s : State) (slot : Nat) (c : Crew) (t : DWord) (bit : Nat) :
    CachesOnly s (s.landing slot c t bit).2 := by
  have h := s.codePlace_caches slot c t.toNat
  unfold State.landing
  split
  · exact CachesOnly.refl s
  · split
    · exact CachesOnly.refl s
    · split
      · rename_i e; rw [e] at h; exact h
      · rename_i pa s1 e
        rw [e] at h
        have h2 := h.trans (State.codeWord_caches s1 (coreOf slot) pa)
        dsimp only
        split <;> exact h2

/-- A change of caches, the issuing crew set and time passing. -/
theorem CachesOnly.crewAndCaches {s t : State} (h : CachesOnly s t) (c' : Crew) (n : Nat) :
    CrewAndCaches s ((t.setCrew s.cur.slot c').spend n) c' where
  after := by simp
  others := by intro k hk; simp [hk, h.crew?]
  rest := by
    obtain ⟨C, D, F, rfl⟩ : ∃ C D F, t = { s with cores := C, dies := D, fresh := F } := ⟨_, _, _, h.rest⟩
    rfl
  cores n := h.cores n
  dies n := h.dies n
  bytes sp a := by rw [State.byteAt_spend, State.byteAt_setCrew, h.bytes]
  time := by simp [State.spend, h.cycle]; omega

/-! ## Words that check an access, with one active lane -/

theorem filter_true {α : Type} (l : List α) : l.filter (fun _ => true) = l := by simp

/-- What accessWord does with one active lane whose access passes and is not watched. -/
theorem State.accessWord_one {s s1 : State} {c : Crew} {bad : Thread → Bool} {g : Guard} {l : Nat} {u : Touch}
    {chk : Crew → State → Nat → Nat → Except Trap Touch × State} {k : State → Nat → Crew → List Touch → State}
    {watch : Crew → Touch → Bool} (h : s.Runs c) (hb : ∀ l ∈ s.cur.lanes, bad (c.thread l) = false)
    (ha : s.activeLanes c g = [l]) (hc : chk c s s.cur.slot l = (.ok u, s1)) (hw : watch c u = false) :
    s.accessWord bad g chk k watch =
      .next (((k (s1.setCrew s.cur.slot c) s.cur.slot c [u]).modCrew s.cur.slot fun x => x.next s.cur.lanes).spend
        (portCycles 1 [l])) := by
  have ha' : c.active s.cur.lanes g = [l] := ha
  unfold State.accessWord
  rw [State.wordFrame_runs h bad hb]
  simp [ha', State.checkLanes, hc, hw, filter_true]

/-- What onceWord does with one active lane whose access passes and is not watched. -/
theorem State.onceWord_one {s s1 : State} {c : Crew} {bad : Thread → Bool} {g : Guard} {l : Nat} {u : Touch}
    {chk : Crew → State → Nat → Nat → Except Trap Touch × State} {k : State → Nat → Crew → List Nat → Touch → State}
    {watch : Crew → Touch → Bool} (h : s.Runs c) (hb : ∀ l ∈ s.cur.lanes, bad (c.thread l) = false)
    (ha : s.activeLanes c g = [l]) (hc : chk c s s.cur.slot l = (.ok u, s1)) (hw : watch c u = false) :
    s.onceWord bad g chk k watch =
      .next (((k (s1.setCrew s.cur.slot c) s.cur.slot c [l] u).modCrew s.cur.slot fun x => x.next s.cur.lanes).spend 1) := by
  have ha' : c.active s.cur.lanes g = [l] := ha
  unfold State.onceWord
  rw [State.wordFrame_runs h bad hb]
  simp [ha', hc, hw]

/-- One lane's check as a touch. -/
theorem State.checkLane_ok {s : State} {slot : Nat} {c : Crew} {l : Nat} {a : DWord} {n : Nat} {kind : WalkKind}
    {p : Place} (h : (s.check slot c a n kind).1 = .ok p) :
    s.checkLane slot c l a n kind = (.ok ⟨l, a, p⟩, (s.check slot c a n kind).2) := by
  unfold State.checkLane
  split
  · rename_i e; rw [e] at h; cases h
  · rename_i e; rw [e] at h; cases h; simp [e]

/-- The run threads after every one of them has gone on. -/
theorem Crew.next_goesOn {s : State} {c : Crew} (h : s.Runs c) (c' : Crew) (hc : c'.threads = c.threads) :
    RunGoesOn s c (c'.next s.cur.lanes) where
  lanes l hl := by
    have hlt := h.lanes l hl
    rw [Crew.next, Crew.thread_modLanes _ _ _ _ (by rw [hc]; exact hlt), if_pos hl]
    simp [Crew.thread, hc, Thread.next]
  outside l hl := by
    rw [Crew.next, Crew.thread_modLanes_not _ _ _ _ hl]; simp [Crew.thread, hc]
  length := by simp [Crew.next, hc]

/-- A change of caches and of the issuing crew: the frame of an access. -/
theorem CachesOnly.accessFrame {s s1 : State} (hs : CachesOnly s s1) (c' : Crew) (k n : Nat) :
    AccessFrame s ({ s1.setCrew s.cur.slot c' with nextId := k }.spend n) c' where
  after := by simp [State.crew?, State.spend, State.setCrew]
  others := by
    intro k hk
    have := hs.crew? k
    simp only [State.crew?] at this
    simp [State.crew?, State.spend, State.setCrew, hk, this]
  rest := by
    obtain ⟨C, D, F, rfl⟩ : ∃ C D F, s1 = { s with cores := C, dies := D, fresh := F } := ⟨_, _, _, hs.rest⟩
    rfl
  cores n := by
    have := hs.cores n
    show s1.core n = { s.core n with
      tlb := (s1.core n).tlb, icache := (s1.core n).icache, l1ways := (s1.core n).l1ways, deckq := (s1.core n).deckq
      unanswered := (s1.core n).unanswered, sendq := (s1.core n).sendq, retry := (s1.core n).retry }
    rw [this]
  dies n := by
    have := hs.dies n
    show s1.die n = { s.die n with tlb := (s1.die n).tlb, walks := (s1.die n).walks }
    rw [this]
  slices n := by
    show s1.slice n = { s.slice n with ingress := (s1.slice n).ingress }
    rw [hs.slice]
  bytes sp a := by
    have h1 := hs.bytes sp a
    have h2 : ({ s1.setCrew s.cur.slot c' with nextId := k }.spend n).byteAt sp a = s1.byteAt sp a := by
      cases sp <;> rfl
    rw [h2, h1]
  time := by simp [State.spend, hs.cycle]; omega

/-- An entry joins the FIFO, the run goes on, time passes: what a word that stores one entry does. -/
theorem State.enter_frame {s s1 : State} {c : Crew} (h : s.Runs c) (hs : CachesOnly s s1) (e : Entry) (n : Nat) :
    AccessFrame s ((((s1.setCrew s.cur.slot c).enter s.cur.slot e).modCrew s.cur.slot fun x => x.next s.cur.lanes).spend n)
        (Crew.next { c with fifo := c.fifo ++ [{ e with id := s1.nextId }] } s.cur.lanes) ∧
      RunGoesOn s c (Crew.next { c with fifo := c.fifo ++ [{ e with id := s1.nextId }] } s.cur.lanes) := by
  have hs2 : ((s1.setCrew s.cur.slot c).enter s.cur.slot e).modCrew s.cur.slot (fun x => x.next s.cur.lanes)
      = { s1.setCrew s.cur.slot (Crew.next { c with fifo := c.fifo ++ [{ e with id := s1.nextId }] } s.cur.lanes) with
          nextId := s1.nextId + 1 } := by
    simp [State.enter, State.modCrew, State.crew?, State.setCrew]
  rw [hs2]
  exact ⟨hs.accessFrame _ _ _, Crew.next_goesOn h _ rfl⟩

end Sys2Proof.Machine
end

