-- ==== Sys2Proof/Laws/Arms.lean ====
section
/-! SUPPORT. The dispatch arm by arm: exec of each constructor is its meaning. -/

namespace Sys2Proof.Machine

theorem exec_addI32 (g : BitVec 4) (d : BitVec 6) (a : BitVec 6) (b : BitVec 6) (s : State) : exec (.addI32 g d a b) s = execAddI32 g d a b s := rfl
theorem exec_subI32 (g : BitVec 4) (d : BitVec 6) (a : BitVec 6) (b : BitVec 6) (s : State) : exec (.subI32 g d a b) s = execSubI32 g d a b s := rfl
theorem exec_addN32 (g : BitVec 4) (d : BitVec 6) (a : BitVec 6) (b : BitVec 6) (s : State) : exec (.addN32 g d a b) s = execAddN32 g d a b s := rfl
theorem exec_subN32 (g : BitVec 4) (d : BitVec 6) (a : BitVec 6) (b : BitVec 6) (s : State) : exec (.subN32 g d a b) s = execSubN32 g d a b s := rfl
theorem exec_and32 (g : BitVec 4) (d : BitVec 6) (a : BitVec 6) (b : BitVec 6) (s : State) : exec (.and32 g d a b) s = execAnd32 g d a b s := rfl
theorem exec_or32 (g : BitVec 4) (d : BitVec 6) (a : BitVec 6) (b : BitVec 6) (s : State) : exec (.or32 g d a b) s = execOr32 g d a b s := rfl
theorem exec_xor32 (g : BitVec 4) (d : BitVec 6) (a : BitVec 6) (b : BitVec 6) (s : State) : exec (.xor32 g d a b) s = execXor32 g d a b s := rfl
theorem exec_andn (g : BitVec 4) (d : BitVec 6) (a : BitVec 6) (b : BitVec 6) (s : State) : exec (.andn g d a b) s = execAndn g d a b s := rfl
theorem exec_shl32 (g : BitVec 4) (d : BitVec 6) (a : BitVec 6) (b : BitVec 6) (s : State) : exec (.shl32 g d a b) s = execShl32 g d a b s := rfl
theorem exec_shr32 (g : BitVec 4) (d : BitVec 6) (a : BitVec 6) (b : BitVec 6) (s : State) : exec (.shr32 g d a b) s = execShr32 g d a b s := rfl
theorem exec_sha32 (g : BitVec 4) (d : BitVec 6) (a : BitVec 6) (b : BitVec 6) (s : State) : exec (.sha32 g d a b) s = execSha32 g d a b s := rfl
theorem exec_rot32 (g : BitVec 4) (d : BitVec 6) (a : BitVec 6) (b : BitVec 6) (s : State) : exec (.rot32 g d a b) s = execRot32 g d a b s := rfl
theorem exec_min32 (g : BitVec 4) (d : BitVec 6) (a : BitVec 6) (b : BitVec 6) (s : State) : exec (.min32 g d a b) s = execMin32 g d a b s := rfl
theorem exec_max32 (g : BitVec 4) (d : BitVec 6) (a : BitVec 6) (b : BitVec 6) (s : State) : exec (.max32 g d a b) s = execMax32 g d a b s := rfl
theorem exec_minu32 (g : BitVec 4) (d : BitVec 6) (a : BitVec 6) (b : BitVec 6) (s : State) : exec (.minu32 g d a b) s = execMinu32 g d a b s := rfl
theorem exec_maxu32 (g : BitVec 4) (d : BitVec 6) (a : BitVec 6) (b : BitVec 6) (s : State) : exec (.maxu32 g d a b) s = execMaxu32 g d a b s := rfl
theorem exec_addImm (g : BitVec 4) (d : BitVec 6) (a : BitVec 6) (m : BitVec 10) (s : State) : exec (.addImm g d a m) s = execAddImm g d a m s := rfl
theorem exec_addI64 (g : BitVec 4) (d : BitVec 6) (a : BitVec 6) (b : BitVec 6) (s : State) : exec (.addI64 g d a b) s = execAddI64 g d a b s := rfl
theorem exec_subI64 (g : BitVec 4) (d : BitVec 6) (a : BitVec 6) (b : BitVec 6) (s : State) : exec (.subI64 g d a b) s = execSubI64 g d a b s := rfl
theorem exec_addN64 (g : BitVec 4) (d : BitVec 6) (a : BitVec 6) (b : BitVec 6) (s : State) : exec (.addN64 g d a b) s = execAddN64 g d a b s := rfl
theorem exec_subN64 (g : BitVec 4) (d : BitVec 6) (a : BitVec 6) (b : BitVec 6) (s : State) : exec (.subN64 g d a b) s = execSubN64 g d a b s := rfl
theorem exec_and64 (g : BitVec 4) (d : BitVec 6) (a : BitVec 6) (b : BitVec 6) (s : State) : exec (.and64 g d a b) s = execAnd64 g d a b s := rfl
theorem exec_or64 (g : BitVec 4) (d : BitVec 6) (a : BitVec 6) (b : BitVec 6) (s : State) : exec (.or64 g d a b) s = execOr64 g d a b s := rfl
theorem exec_xor64 (g : BitVec 4) (d : BitVec 6) (a : BitVec 6) (b : BitVec 6) (s : State) : exec (.xor64 g d a b) s = execXor64 g d a b s := rfl
theorem exec_shl64 (g : BitVec 4) (d : BitVec 6) (a : BitVec 6) (b : BitVec 6) (s : State) : exec (.shl64 g d a b) s = execShl64 g d a b s := rfl
theorem exec_shr64 (g : BitVec 4) (d : BitVec 6) (a : BitVec 6) (b : BitVec 6) (s : State) : exec (.shr64 g d a b) s = execShr64 g d a b s := rfl
theorem exec_sha64 (g : BitVec 4) (d : BitVec 6) (a : BitVec 6) (b : BitVec 6) (s : State) : exec (.sha64 g d a b) s = execSha64 g d a b s := rfl
theorem exec_min64 (g : BitVec 4) (d : BitVec 6) (a : BitVec 6) (b : BitVec 6) (s : State) : exec (.min64 g d a b) s = execMin64 g d a b s := rfl
theorem exec_max64 (g : BitVec 4) (d : BitVec 6) (a : BitVec 6) (b : BitVec 6) (s : State) : exec (.max64 g d a b) s = execMax64 g d a b s := rfl
theorem exec_minu64 (g : BitVec 4) (d : BitVec 6) (a : BitVec 6) (b : BitVec 6) (s : State) : exec (.minu64 g d a b) s = execMinu64 g d a b s := rfl
theorem exec_maxu64 (g : BitVec 4) (d : BitVec 6) (a : BitVec 6) (b : BitVec 6) (s : State) : exec (.maxu64 g d a b) s = execMaxu64 g d a b s := rfl
theorem exec_mullo64 (g : BitVec 4) (d : BitVec 6) (a : BitVec 6) (b : BitVec 6) (s : State) : exec (.mullo64 g d a b) s = execMullo64 g d a b s := rfl
theorem exec_rot64 (g : BitVec 4) (d : BitVec 6) (a : BitVec 6) (b : BitVec 6) (s : State) : exec (.rot64 g d a b) s = execRot64 g d a b s := rfl
theorem exec_mov (g : BitVec 4) (x : BitVec 6) (y : BitVec 6) (s : State) : exec (.mov g x y) s = execMov g x y s := rfl
theorem exec_clz (g : BitVec 4) (x : BitVec 6) (y : BitVec 6) (s : State) : exec (.clz g x y) s = execClz g x y s := rfl
theorem exec_popc (g : BitVec 4) (x : BitVec 6) (y : BitVec 6) (s : State) : exec (.popc g x y) s = execPopc g x y s := rfl
theorem exec_brev (g : BitVec 4) (x : BitVec 6) (y : BitVec 6) (s : State) : exec (.brev g x y) s = execBrev g x y s := rfl
theorem exec_abs (g : BitVec 4) (x : BitVec 6) (y : BitVec 6) (s : State) : exec (.abs g x y) s = execAbs g x y s := rfl
theorem exec_shl32Imm (g : BitVec 4) (x : BitVec 6) (y : BitVec 6) (m : BitVec 5) (s : State) : exec (.shl32Imm g x y m) s = execShl32Imm g x y m s := rfl
theorem exec_shr32Imm (g : BitVec 4) (x : BitVec 6) (y : BitVec 6) (m : BitVec 5) (s : State) : exec (.shr32Imm g x y m) s = execShr32Imm g x y m s := rfl
theorem exec_sha32Imm (g : BitVec 4) (x : BitVec 6) (y : BitVec 6) (m : BitVec 5) (s : State) : exec (.sha32Imm g x y m) s = execSha32Imm g x y m s := rfl
theorem exec_rot32Imm (g : BitVec 4) (x : BitVec 6) (y : BitVec 6) (m : BitVec 5) (s : State) : exec (.rot32Imm g x y m) s = execRot32Imm g x y m s := rfl
theorem exec_mov64 (g : BitVec 4) (x : BitVec 6) (y : BitVec 6) (s : State) : exec (.mov64 g x y) s = execMov64 g x y s := rfl
theorem exec_shl64Imm (g : BitVec 4) (x : BitVec 6) (y : BitVec 6) (m : BitVec 6) (s : State) : exec (.shl64Imm g x y m) s = execShl64Imm g x y m s := rfl
theorem exec_shr64Imm (g : BitVec 4) (x : BitVec 6) (y : BitVec 6) (m : BitVec 6) (s : State) : exec (.shr64Imm g x y m) s = execShr64Imm g x y m s := rfl
theorem exec_sha64Imm (g : BitVec 4) (x : BitVec 6) (y : BitVec 6) (m : BitVec 6) (s : State) : exec (.sha64Imm g x y m) s = execSha64Imm g x y m s := rfl
theorem exec_rot64Imm (g : BitVec 4) (x : BitVec 6) (y : BitVec 6) (m : BitVec 6) (s : State) : exec (.rot64Imm g x y m) s = execRot64Imm g x y m s := rfl
theorem exec_mullo (g : BitVec 4) (d : BitVec 6) (a : BitVec 6) (b : BitVec 6) (s : State) : exec (.mullo g d a b) s = execMullo g d a b s := rfl
theorem exec_mulhi (g : BitVec 4) (d : BitVec 6) (a : BitVec 6) (b : BitVec 6) (s : State) : exec (.mulhi g d a b) s = execMulhi g d a b s := rfl
theorem exec_mulhu (g : BitVec 4) (d : BitVec 6) (a : BitVec 6) (b : BitVec 6) (s : State) : exec (.mulhu g d a b) s = execMulhu g d a b s := rfl
theorem exec_mad (g : BitVec 4) (d : BitVec 6) (a : BitVec 6) (b : BitVec 6) (s : State) : exec (.mad g d a b) s = execMad g d a b s := rfl
theorem exec_madWide (g : BitVec 4) (d : BitVec 6) (a : BitVec 6) (b : BitVec 6) (s : State) : exec (.madWide g d a b) s = execMadWide g d a b s := rfl
theorem exec_lea (g : BitVec 4) (d : BitVec 6) (a : BitVec 6) (b : BitVec 6) (s : State) : exec (.lea g d a b) s = execLea g d a b s := rfl
theorem exec_bfx (g : BitVec 4) (d : BitVec 6) (a : BitVec 6) (b : BitVec 6) (s : State) : exec (.bfx g d a b) s = execBfx g d a b s := rfl
theorem exec_bfi (g : BitVec 4) (d : BitVec 6) (a : BitVec 6) (b : BitVec 6) (s : State) : exec (.bfi g d a b) s = execBfi g d a b s := rfl
theorem exec_sel (g : BitVec 4) (d : BitVec 6) (a : BitVec 6) (b : BitVec 6) (n : BitVec 3) (s : State) : exec (.sel g d a b n) s = execSel g d a b n s := rfl
theorem exec_div (g : BitVec 4) (d : BitVec 6) (a : BitVec 6) (b : BitVec 6) (s : State) : exec (.div g d a b) s = execDiv g d a b s := rfl
theorem exec_divu (g : BitVec 4) (d : BitVec 6) (a : BitVec 6) (b : BitVec 6) (s : State) : exec (.divu g d a b) s = execDivu g d a b s := rfl
theorem exec_rem (g : BitVec 4) (d : BitVec 6) (a : BitVec 6) (b : BitVec 6) (s : State) : exec (.rem g d a b) s = execRem g d a b s := rfl
theorem exec_remu (g : BitVec 4) (d : BitVec 6) (a : BitVec 6) (b : BitVec 6) (s : State) : exec (.remu g d a b) s = execRemu g d a b s := rfl
theorem exec_div64 (g : BitVec 4) (d : BitVec 6) (a : BitVec 6) (b : BitVec 6) (s : State) : exec (.div64 g d a b) s = execDiv64 g d a b s := rfl
theorem exec_divu64 (g : BitVec 4) (d : BitVec 6) (a : BitVec 6) (b : BitVec 6) (s : State) : exec (.divu64 g d a b) s = execDivu64 g d a b s := rfl
theorem exec_rem64 (g : BitVec 4) (d : BitVec 6) (a : BitVec 6) (b : BitVec 6) (s : State) : exec (.rem64 g d a b) s = execRem64 g d a b s := rfl
theorem exec_remu64 (g : BitVec 4) (d : BitVec 6) (a : BitVec 6) (b : BitVec 6) (s : State) : exec (.remu64 g d a b) s = execRemu64 g d a b s := rfl
theorem exec_icmpReg (g : BitVec 4) (x : BitVec 6) (y : BitVec 6) (c : BitVec 3) (w : BitVec 1) (p : BitVec 3) (s : State) : exec (.icmpReg g x y c w p) s = execIcmpReg g x y c w p s := rfl
theorem exec_icmpImm (g : BitVec 4) (x : BitVec 6) (y : BitVec 3) (c : BitVec 3) (w : BitVec 1) (m : BitVec 5) (s : State) : exec (.icmpImm g x y c w m) s = execIcmpImm g x y c w m s := rfl
theorem exec_movi (g : BitVec 4) (d : BitVec 6) (m : BitVec 16) (s : State) : exec (.movi g d m) s = execMovi g d m s := rfl
theorem exec_movhi (g : BitVec 4) (d : BitVec 6) (m : BitVec 16) (s : State) : exec (.movhi g d m) s = execMovhi g d m s := rfl
theorem exec_pand (g : BitVec 4) (d : BitVec 3) (a : BitVec 3) (b : BitVec 3) (s : State) : exec (.pand g d a b) s = execPand g d a b s := rfl
theorem exec_por (g : BitVec 4) (d : BitVec 3) (a : BitVec 3) (b : BitVec 3) (s : State) : exec (.por g d a b) s = execPor g d a b s := rfl
theorem exec_pxor (g : BitVec 4) (d : BitVec 3) (a : BitVec 3) (b : BitVec 3) (s : State) : exec (.pxor g d a b) s = execPxor g d a b s := rfl
theorem exec_pnot (g : BitVec 4) (d : BitVec 3) (a : BitVec 3) (s : State) : exec (.pnot g d a) s = execPnot g d a s := rfl
theorem exec_pmov (g : BitVec 4) (d : BitVec 3) (a : BitVec 3) (s : State) : exec (.pmov g d a) s = execPmov g d a s := rfl
theorem exec_voteAny (g : BitVec 4) (x : BitVec 3) (y : BitVec 3) (s : State) : exec (.voteAny g x y) s = execVoteAny g x y s := rfl
theorem exec_voteAll (g : BitVec 4) (x : BitVec 3) (y : BitVec 3) (s : State) : exec (.voteAll g x y) s = execVoteAll g x y s := rfl
theorem exec_ballot (g : BitVec 4) (x : BitVec 6) (y : BitVec 3) (s : State) : exec (.ballot g x y) s = execBallot g x y s := rfl
theorem exec_elect (g : BitVec 4) (x : BitVec 3) (s : State) : exec (.elect g x) s = execElect g x s := rfl
theorem exec_shflIdx (g : BitVec 4) (x : BitVec 6) (y : BitVec 6) (k : BitVec 6) (s : State) : exec (.shflIdx g x y k) s = execShflIdx g x y k s := rfl
theorem exec_shflUp (g : BitVec 4) (x : BitVec 6) (y : BitVec 6) (k : BitVec 6) (s : State) : exec (.shflUp g x y k) s = execShflUp g x y k s := rfl
theorem exec_shflDown (g : BitVec 4) (x : BitVec 6) (y : BitVec 6) (k : BitVec 6) (s : State) : exec (.shflDown g x y k) s = execShflDown g x y k s := rfl
theorem exec_shflXor (g : BitVec 4) (x : BitVec 6) (y : BitVec 6) (k : BitVec 6) (s : State) : exec (.shflXor g x y k) s = execShflXor g x y k s := rfl
theorem exec_shflVar (g : BitVec 4) (x : BitVec 6) (y : BitVec 6) (s : State) : exec (.shflVar g x y) s = execShflVar g x y s := rfl
theorem exec_fred (g : BitVec 4) (x : BitVec 6) (y : BitVec 6) (t : BitVec 2) (o : BitVec 2) (s : State) : exec (.fred g x y t o) s = execFred g x y t o s := rfl
theorem exec_faddF32 (g : BitVec 4) (d : BitVec 6) (a : BitVec 6) (b : BitVec 6) (s : State) : exec (.faddF32 g d a b) s = execFaddF32 g d a b s := rfl
theorem exec_fsubF32 (g : BitVec 4) (d : BitVec 6) (a : BitVec 6) (b : BitVec 6) (s : State) : exec (.fsubF32 g d a b) s = execFsubF32 g d a b s := rfl
theorem exec_fmulF32 (g : BitVec 4) (d : BitVec 6) (a : BitVec 6) (b : BitVec 6) (s : State) : exec (.fmulF32 g d a b) s = execFmulF32 g d a b s := rfl
theorem exec_ffmaF32 (g : BitVec 4) (d : BitVec 6) (a : BitVec 6) (b : BitVec 6) (s : State) : exec (.ffmaF32 g d a b) s = execFfmaF32 g d a b s := rfl
theorem exec_fminF32 (g : BitVec 4) (d : BitVec 6) (a : BitVec 6) (b : BitVec 6) (s : State) : exec (.fminF32 g d a b) s = execFminF32 g d a b s := rfl
theorem exec_fmaxF32 (g : BitVec 4) (d : BitVec 6) (a : BitVec 6) (b : BitVec 6) (s : State) : exec (.fmaxF32 g d a b) s = execFmaxF32 g d a b s := rfl
theorem exec_faddF64 (g : BitVec 4) (d : BitVec 6) (a : BitVec 6) (b : BitVec 6) (s : State) : exec (.faddF64 g d a b) s = execFaddF64 g d a b s := rfl
theorem exec_fsubF64 (g : BitVec 4) (d : BitVec 6) (a : BitVec 6) (b : BitVec 6) (s : State) : exec (.fsubF64 g d a b) s = execFsubF64 g d a b s := rfl
theorem exec_fmulF64 (g : BitVec 4) (d : BitVec 6) (a : BitVec 6) (b : BitVec 6) (s : State) : exec (.fmulF64 g d a b) s = execFmulF64 g d a b s := rfl
theorem exec_ffmaF64 (g : BitVec 4) (d : BitVec 6) (a : BitVec 6) (b : BitVec 6) (s : State) : exec (.ffmaF64 g d a b) s = execFfmaF64 g d a b s := rfl
theorem exec_fminF64 (g : BitVec 4) (d : BitVec 6) (a : BitVec 6) (b : BitVec 6) (s : State) : exec (.fminF64 g d a b) s = execFminF64 g d a b s := rfl
theorem exec_fmaxF64 (g : BitVec 4) (d : BitVec 6) (a : BitVec 6) (b : BitVec 6) (s : State) : exec (.fmaxF64 g d a b) s = execFmaxF64 g d a b s := rfl
theorem exec_faddF16 (g : BitVec 4) (d : BitVec 6) (a : BitVec 6) (b : BitVec 6) (s : State) : exec (.faddF16 g d a b) s = execFaddF16 g d a b s := rfl
theorem exec_fsubF16 (g : BitVec 4) (d : BitVec 6) (a : BitVec 6) (b : BitVec 6) (s : State) : exec (.fsubF16 g d a b) s = execFsubF16 g d a b s := rfl
theorem exec_fmulF16 (g : BitVec 4) (d : BitVec 6) (a : BitVec 6) (b : BitVec 6) (s : State) : exec (.fmulF16 g d a b) s = execFmulF16 g d a b s := rfl
theorem exec_ffmaF16 (g : BitVec 4) (d : BitVec 6) (a : BitVec 6) (b : BitVec 6) (s : State) : exec (.ffmaF16 g d a b) s = execFfmaF16 g d a b s := rfl
theorem exec_fminF16 (g : BitVec 4) (d : BitVec 6) (a : BitVec 6) (b : BitVec 6) (s : State) : exec (.fminF16 g d a b) s = execFminF16 g d a b s := rfl
theorem exec_fmaxF16 (g : BitVec 4) (d : BitVec 6) (a : BitVec 6) (b : BitVec 6) (s : State) : exec (.fmaxF16 g d a b) s = execFmaxF16 g d a b s := rfl
theorem exec_faddBf16 (g : BitVec 4) (d : BitVec 6) (a : BitVec 6) (b : BitVec 6) (s : State) : exec (.faddBf16 g d a b) s = execFaddBf16 g d a b s := rfl
theorem exec_fsubBf16 (g : BitVec 4) (d : BitVec 6) (a : BitVec 6) (b : BitVec 6) (s : State) : exec (.fsubBf16 g d a b) s = execFsubBf16 g d a b s := rfl
theorem exec_fmulBf16 (g : BitVec 4) (d : BitVec 6) (a : BitVec 6) (b : BitVec 6) (s : State) : exec (.fmulBf16 g d a b) s = execFmulBf16 g d a b s := rfl
theorem exec_ffmaBf16 (g : BitVec 4) (d : BitVec 6) (a : BitVec 6) (b : BitVec 6) (s : State) : exec (.ffmaBf16 g d a b) s = execFfmaBf16 g d a b s := rfl
theorem exec_fminBf16 (g : BitVec 4) (d : BitVec 6) (a : BitVec 6) (b : BitVec 6) (s : State) : exec (.fminBf16 g d a b) s = execFminBf16 g d a b s := rfl
theorem exec_fmaxBf16 (g : BitVec 4) (d : BitVec 6) (a : BitVec 6) (b : BitVec 6) (s : State) : exec (.fmaxBf16 g d a b) s = execFmaxBf16 g d a b s := rfl
theorem exec_fcmp (g : BitVec 4) (x : BitVec 6) (y : BitVec 6) (p : BitVec 3) (c : BitVec 3) (t : BitVec 2) (s : State) : exec (.fcmp g x y p c t) s = execFcmp g x y p c t s := rfl
theorem exec_fdivF32 (g : BitVec 4) (d : BitVec 6) (a : BitVec 6) (b : BitVec 6) (s : State) : exec (.fdivF32 g d a b) s = execFdivF32 g d a b s := rfl
theorem exec_fsqrtF32 (g : BitVec 4) (d : BitVec 6) (a : BitVec 6) (s : State) : exec (.fsqrtF32 g d a) s = execFsqrtF32 g d a s := rfl
theorem exec_frcpF32 (g : BitVec 4) (d : BitVec 6) (a : BitVec 6) (s : State) : exec (.frcpF32 g d a) s = execFrcpF32 g d a s := rfl
theorem exec_frsq (g : BitVec 4) (d : BitVec 6) (a : BitVec 6) (s : State) : exec (.frsq g d a) s = execFrsq g d a s := rfl
theorem exec_fex2 (g : BitVec 4) (d : BitVec 6) (a : BitVec 6) (s : State) : exec (.fex2 g d a) s = execFex2 g d a s := rfl
theorem exec_flg2 (g : BitVec 4) (d : BitVec 6) (a : BitVec 6) (s : State) : exec (.flg2 g d a) s = execFlg2 g d a s := rfl
theorem exec_froundF32 (g : BitVec 4) (d : BitVec 6) (a : BitVec 6) (s : State) : exec (.froundF32 g d a) s = execFroundF32 g d a s := rfl
theorem exec_fclassF32 (g : BitVec 4) (d : BitVec 6) (a : BitVec 6) (s : State) : exec (.fclassF32 g d a) s = execFclassF32 g d a s := rfl
theorem exec_fdivF64 (g : BitVec 4) (d : BitVec 6) (a : BitVec 6) (b : BitVec 6) (s : State) : exec (.fdivF64 g d a b) s = execFdivF64 g d a b s := rfl
theorem exec_fsqrtF64 (g : BitVec 4) (d : BitVec 6) (a : BitVec 6) (s : State) : exec (.fsqrtF64 g d a) s = execFsqrtF64 g d a s := rfl
theorem exec_frcpF64 (g : BitVec 4) (d : BitVec 6) (a : BitVec 6) (s : State) : exec (.frcpF64 g d a) s = execFrcpF64 g d a s := rfl
theorem exec_froundF64 (g : BitVec 4) (d : BitVec 6) (a : BitVec 6) (s : State) : exec (.froundF64 g d a) s = execFroundF64 g d a s := rfl
theorem exec_fclassF64 (g : BitVec 4) (d : BitVec 6) (a : BitVec 6) (s : State) : exec (.fclassF64 g d a) s = execFclassF64 g d a s := rfl
theorem exec_fclassF16 (g : BitVec 4) (d : BitVec 6) (a : BitVec 6) (s : State) : exec (.fclassF16 g d a) s = execFclassF16 g d a s := rfl
theorem exec_fclassBf16 (g : BitVec 4) (d : BitVec 6) (a : BitVec 6) (s : State) : exec (.fclassBf16 g d a) s = execFclassBf16 g d a s := rfl
theorem exec_fcvt (g : BitVec 4) (x : BitVec 6) (y : BitVec 6) (t : BitVec 4) (sat : BitVec 4) (s : State) : exec (.fcvt g x y t sat) s = execFcvt g x y t sat s := rfl
theorem exec_sxpack (g : BitVec 4) (x : BitVec 6) (y : BitVec 6) (f : BitVec 2) (s : State) : exec (.sxpack g x y f) s = execSxpack g x y f s := rfl
theorem exec_sxunpack (g : BitVec 4) (x : BitVec 6) (y : BitVec 6) (f : BitVec 2) (t : BitVec 2) (s : State) : exec (.sxunpack g x y f t) s = execSxunpack g x y f t s := rfl
theorem exec_bra (g : BitVec 4) (m : BitVec 22) (s : State) : exec (.bra g m) s = execBra g m s := rfl
theorem exec_call (g : BitVec 4) (m : BitVec 22) (s : State) : exec (.call g m) s = execCall g m s := rfl
theorem exec_brx (g : BitVec 4) (x : BitVec 6) (s : State) : exec (.brx g x) s = execBrx g x s := rfl
theorem exec_callx (g : BitVec 4) (x : BitVec 6) (s : State) : exec (.callx g x) s = execCallx g x s := rfl
theorem exec_ret (g : BitVec 4) (s : State) : exec (.ret g) s = execRet g s := rfl
theorem exec_exit (g : BitVec 4) (s : State) : exec (.exit g) s = execExit g s := rfl
theorem exec_yield (g : BitVec 4) (s : State) : exec (.yield g) s = execYield g s := rfl
theorem exec_trap (g : BitVec 4) (c : BitVec 6) (s : State) : exec (.trap g c) s = execTrap g c s := rfl
theorem exec_bkpt (g : BitVec 4) (c : BitVec 6) (s : State) : exec (.bkpt g c) s = execBkpt g c s := rfl
theorem exec_eret (g : BitVec 4) (s : State) : exec (.eret g) s = execEret g s := rfl
theorem exec_launch (g : BitVec 4) (y : BitVec 6) (s : State) : exec (.launch g y) s = execLaunch g y s := rfl
theorem exec_ldN8 (g : BitVec 4) (d : BitVec 6) (b : BitVec 6) (o : BitVec 7) (s : State) : exec (.ldN8 g d b o) s = execLdN8 g d b o s := rfl
theorem exec_ldI8 (g : BitVec 4) (d : BitVec 6) (b : BitVec 6) (o : BitVec 7) (s : State) : exec (.ldI8 g d b o) s = execLdI8 g d b o s := rfl
theorem exec_ldN16 (g : BitVec 4) (d : BitVec 6) (b : BitVec 6) (o : BitVec 7) (s : State) : exec (.ldN16 g d b o) s = execLdN16 g d b o s := rfl
theorem exec_ldI16 (g : BitVec 4) (d : BitVec 6) (b : BitVec 6) (o : BitVec 7) (s : State) : exec (.ldI16 g d b o) s = execLdI16 g d b o s := rfl
theorem exec_ld32 (g : BitVec 4) (d : BitVec 6) (b : BitVec 6) (o : BitVec 7) (s : State) : exec (.ld32 g d b o) s = execLd32 g d b o s := rfl
theorem exec_ld64 (g : BitVec 4) (d : BitVec 6) (b : BitVec 6) (o : BitVec 7) (s : State) : exec (.ld64 g d b o) s = execLd64 g d b o s := rfl
theorem exec_ld128 (g : BitVec 4) (d : BitVec 6) (b : BitVec 6) (o : BitVec 7) (s : State) : exec (.ld128 g d b o) s = execLd128 g d b o s := rfl
theorem exec_st8 (g : BitVec 4) (d : BitVec 6) (b : BitVec 6) (o : BitVec 7) (s : State) : exec (.st8 g d b o) s = execSt8 g d b o s := rfl
theorem exec_st16 (g : BitVec 4) (d : BitVec 6) (b : BitVec 6) (o : BitVec 7) (s : State) : exec (.st16 g d b o) s = execSt16 g d b o s := rfl
theorem exec_st32 (g : BitVec 4) (d : BitVec 6) (b : BitVec 6) (o : BitVec 7) (s : State) : exec (.st32 g d b o) s = execSt32 g d b o s := rfl
theorem exec_st64 (g : BitVec 4) (d : BitVec 6) (b : BitVec 6) (o : BitVec 7) (s : State) : exec (.st64 g d b o) s = execSt64 g d b o s := rfl
theorem exec_st128 (g : BitVec 4) (d : BitVec 6) (b : BitVec 6) (o : BitVec 7) (s : State) : exec (.st128 g d b o) s = execSt128 g d b o s := rfl
theorem exec_ldk (g : BitVec 4) (x : BitVec 6) (y : BitVec 6) (w : BitVec 1) (o : BitVec 8) (s : State) : exec (.ldk g x y w o) s = execLdk g x y w o s := rfl
theorem exec_stk (g : BitVec 4) (x : BitVec 6) (y : BitVec 6) (w : BitVec 1) (o : BitVec 8) (s : State) : exec (.stk g x y w o) s = execStk g x y w o s := rfl
theorem exec_atomAdd (g : BitVec 4) (x : BitVec 6) (y : BitVec 6) (w : BitVec 1) (r : BitVec 1) (s : State) : exec (.atomAdd g x y w r) s = execAtomAdd g x y w r s := rfl
theorem exec_atomMin (g : BitVec 4) (x : BitVec 6) (y : BitVec 6) (w : BitVec 1) (r : BitVec 1) (s : State) : exec (.atomMin g x y w r) s = execAtomMin g x y w r s := rfl
theorem exec_atomMax (g : BitVec 4) (x : BitVec 6) (y : BitVec 6) (w : BitVec 1) (r : BitVec 1) (s : State) : exec (.atomMax g x y w r) s = execAtomMax g x y w r s := rfl
theorem exec_atomMinu (g : BitVec 4) (x : BitVec 6) (y : BitVec 6) (w : BitVec 1) (r : BitVec 1) (s : State) : exec (.atomMinu g x y w r) s = execAtomMinu g x y w r s := rfl
theorem exec_atomMaxu (g : BitVec 4) (x : BitVec 6) (y : BitVec 6) (w : BitVec 1) (r : BitVec 1) (s : State) : exec (.atomMaxu g x y w r) s = execAtomMaxu g x y w r s := rfl
theorem exec_atomAnd (g : BitVec 4) (x : BitVec 6) (y : BitVec 6) (w : BitVec 1) (r : BitVec 1) (s : State) : exec (.atomAnd g x y w r) s = execAtomAnd g x y w r s := rfl
theorem exec_atomOr (g : BitVec 4) (x : BitVec 6) (y : BitVec 6) (w : BitVec 1) (r : BitVec 1) (s : State) : exec (.atomOr g x y w r) s = execAtomOr g x y w r s := rfl
theorem exec_atomXor (g : BitVec 4) (x : BitVec 6) (y : BitVec 6) (w : BitVec 1) (r : BitVec 1) (s : State) : exec (.atomXor g x y w r) s = execAtomXor g x y w r s := rfl
theorem exec_atomXchg (g : BitVec 4) (x : BitVec 6) (y : BitVec 6) (w : BitVec 1) (r : BitVec 1) (s : State) : exec (.atomXchg g x y w r) s = execAtomXchg g x y w r s := rfl
theorem exec_atomCas (g : BitVec 4) (x : BitVec 6) (y : BitVec 6) (w : BitVec 1) (r : BitVec 1) (s : State) : exec (.atomCas g x y w r) s = execAtomCas g x y w r s := rfl
theorem exec_atomFadd (g : BitVec 4) (x : BitVec 6) (y : BitVec 6) (r : BitVec 1) (s : State) : exec (.atomFadd g x y r) s = execAtomFadd g x y r s := rfl
theorem exec_scadd (g : BitVec 4) (x : BitVec 6) (y : BitVec 6) (t : BitVec 2) (s : State) : exec (.scadd g x y t) s = execScadd g x y t s := rfl
theorem exec_binapp (g : BitVec 4) (x : BitVec 6) (y : BitVec 6) (s : State) : exec (.binapp g x y) s = execBinapp g x y s := rfl
theorem exec_mcastLd (g : BitVec 4) (x : BitVec 6) (y : BitVec 6) (s : State) : exec (.mcastLd g x y) s = execMcastLd g x y s := rfl
theorem exec_prefetch (g : BitVec 4) (y : BitVec 6) (l : BitVec 2) (s : State) : exec (.prefetch g y l) s = execPrefetch g y l s := rfl
theorem exec_cctlIinv (g : BitVec 4) (y : BitVec 6) (s : State) : exec (.cctlIinv g y) s = execCctlIinv g y s := rfl
theorem exec_cctlL1inv (g : BitVec 4) (y : BitVec 6) (s : State) : exec (.cctlL1inv g y) s = execCctlL1inv g y s := rfl
theorem exec_cctlL2wb (g : BitVec 4) (y : BitVec 6) (s : State) : exec (.cctlL2wb g y) s = execCctlL2wb g y s := rfl
theorem exec_cctlL2inv (g : BitVec 4) (y : BitVec 6) (s : State) : exec (.cctlL2inv g y) s = execCctlL2inv g y s := rfl
theorem exec_fence (g : BitVec 4) (sat : BitVec 3) (s : State) : exec (.fence g sat) s = execFence g sat s := rfl
theorem exec_rput (g : BitVec 4) (x : BitVec 6) (y : BitVec 6) (m : BitVec 3) (s : State) : exec (.rput g x y m) s = execRput g x y m s := rfl
theorem exec_calloc (g : BitVec 4) (x : BitVec 6) (sat : BitVec 3) (s : State) : exec (.calloc g x sat) s = execCalloc g x sat s := rfl
theorem exec_cfree (g : BitVec 4) (y : BitVec 6) (s : State) : exec (.cfree g y) s = execCfree g y s := rfl
theorem exec_cread (g : BitVec 4) (x : BitVec 6) (y : BitVec 6) (s : State) : exec (.cread g x y) s = execCread g x y s := rfl
theorem exec_ctest (g : BitVec 4) (x : BitVec 6) (y : BitVec 6) (p : BitVec 3) (s : State) : exec (.ctest g x y p) s = execCtest g x y p s := rfl
theorem exec_caddReg (g : BitVec 4) (x : BitVec 6) (y : BitVec 6) (s : State) : exec (.caddReg g x y) s = execCaddReg g x y s := rfl
theorem exec_caddImm (g : BitVec 4) (y : BitVec 6) (m : BitVec 8) (s : State) : exec (.caddImm g y m) s = execCaddImm g y m s := rfl
theorem exec_caddrReg (g : BitVec 4) (x : BitVec 6) (y : BitVec 6) (s : State) : exec (.caddrReg g x y) s = execCaddrReg g x y s := rfl
theorem exec_caddrImm (g : BitVec 4) (x : BitVec 6) (y : BitVec 6) (m : BitVec 8) (s : State) : exec (.caddrImm g x y m) s = execCaddrImm g x y m s := rfl
theorem exec_cwait (g : BitVec 4) (x : BitVec 6) (y : BitVec 6) (s : State) : exec (.cwait g x y) s = execCwait g x y s := rfl
theorem exec_cwaitTo (g : BitVec 4) (x : BitVec 6) (y : BitVec 6) (p : BitVec 3) (s : State) : exec (.cwaitTo g x y p) s = execCwaitTo g x y p s := rfl
theorem exec_waite (g : BitVec 4) (c : BitVec 2) (k : BitVec 7) (s : State) : exec (.waite g c k) s = execWaite g c k s := rfl
theorem exec_xcopy (g : BitVec 4) (y : BitVec 6) (s : State) : exec (.xcopy g y) s = execXcopy g y s := rfl
theorem exec_xcopyK (g : BitVec 4) (s : State) : exec (.xcopyK g) s = execXcopyK g s := rfl
theorem exec_mxcmd (g : BitVec 4) (y : BitVec 6) (s : State) : exec (.mxcmd g y) s = execMxcmd g y s := rfl
theorem exec_mxcmdK (g : BitVec 4) (s : State) : exec (.mxcmdK g) s = execMxcmdK g s := rfl
theorem exec_mxtab (g : BitVec 4) (y : BitVec 6) (t : BitVec 2) (s : State) : exec (.mxtab g y t) s = execMxtab g y t s := rfl
theorem exec_accld (g : BitVec 4) (x : BitVec 6) (y : BitVec 6) (s : State) : exec (.accld g x y) s = execAccld g x y s := rfl
theorem exec_accst (g : BitVec 4) (x : BitVec 6) (y : BitVec 6) (s : State) : exec (.accst g x y) s = execAccst g x y s := rfl
theorem exec_obres (g : BitVec 4) (y : BitVec 6) (r : BitVec 5) (s : State) : exec (.obres g y r) s = execObres g y r s := rfl
theorem exec_obrel (g : BitVec 4) (r : BitVec 5) (s : State) : exec (.obrel g r) s = execObrel g r s := rfl
theorem exec_collAllreduce (g : BitVec 4) (y : BitVec 6) (s : State) : exec (.collAllreduce g y) s = execCollAllreduce g y s := rfl
theorem exec_collReducescatter (g : BitVec 4) (y : BitVec 6) (s : State) : exec (.collReducescatter g y) s = execCollReducescatter g y s := rfl
theorem exec_collAllgather (g : BitVec 4) (y : BitVec 6) (s : State) : exec (.collAllgather g y) s = execCollAllgather g y s := rfl
theorem exec_collGather (g : BitVec 4) (y : BitVec 6) (s : State) : exec (.collGather g y) s = execCollGather g y s := rfl
theorem exec_collScatter (g : BitVec 4) (y : BitVec 6) (s : State) : exec (.collScatter g y) s = execCollScatter g y s := rfl
theorem exec_collAlltoall (g : BitVec 4) (y : BitVec 6) (s : State) : exec (.collAlltoall g y) s = execCollAlltoall g y s := rfl
theorem exec_atomr (g : BitVec 4) (x : BitVec 6) (y : BitVec 6) (r : BitVec 6) (s : State) : exec (.atomr g x y r) s = execAtomr g x y r s := rfl
theorem exec_sseed (n : BitVec 4) (m : BitVec 2) (s : State) : exec (.sseed n m) s = execSseed n m s := rfl
theorem exec_sgen (d : BitVec 3) (sat : BitVec 3) (n : BitVec 4) (s : State) : exec (.sgen d sat n) s = execSgen d sat n s := rfl
theorem exec_sgenk (d : BitVec 3) (sat : BitVec 3) (n : BitVec 4) (s : State) : exec (.sgenk d sat n) s = execSgenk d sat n s := rfl
theorem exec_slen (l : BitVec 2) (s : State) : exec (.slen l) s = execSlen l s := rfl
theorem exec_sand (d : BitVec 3) (a : BitVec 3) (b : BitVec 3) (s : State) : exec (.sand d a b) s = execSand d a b s := rfl
theorem exec_sxnor (d : BitVec 3) (a : BitVec 3) (b : BitVec 3) (s : State) : exec (.sxnor d a b) s = execSxnor d a b s := rfl
theorem exec_sor (d : BitVec 3) (a : BitVec 3) (b : BitVec 3) (s : State) : exec (.sor d a b) s = execSor d a b s := rfl
theorem exec_ssub (d : BitVec 3) (a : BitVec 3) (b : BitVec 3) (s : State) : exec (.ssub d a b) s = execSsub d a b s := rfl
theorem exec_smin (d : BitVec 3) (a : BitVec 3) (b : BitVec 3) (s : State) : exec (.smin d a b) s = execSmin d a b s := rfl
theorem exec_smax (d : BitVec 3) (a : BitVec 3) (b : BitVec 3) (s : State) : exec (.smax d a b) s = execSmax d a b s := rfl
theorem exec_snot (d : BitVec 3) (a : BitVec 3) (s : State) : exec (.snot d a) s = execSnot d a s := rfl
theorem exec_smux (d : BitVec 3) (a : BitVec 3) (b : BitVec 3) (sat : BitVec 3) (s : State) : exec (.smux d a b sat) s = execSmux d a b sat s := rfl
theorem exec_scnt (a : BitVec 3) (sat : BitVec 3) (s : State) : exec (.scnt a sat) s = execScnt a sat s := rfl
theorem exec_sdot (a : BitVec 3) (b : BitVec 3) (sat : BitVec 3) (s : State) : exec (.sdot a b sat) s = execSdot a b sat s := rfl
theorem exec_sregen (d : BitVec 3) (a : BitVec 3) (n : BitVec 4) (s : State) : exec (.sregen d a n) s = execSregen d a n s := rfl
theorem exec_stag (a : BitVec 3) (sat : BitVec 3) (s : State) : exec (.stag a sat) s = execStag a sat s := rfl
theorem exec_smov (d : BitVec 3) (a : BitVec 3) (s : State) : exec (.smov d a) s = execSmov d a s := rfl
theorem exec_srot (d : BitVec 3) (a : BitVec 3) (m : BitVec 6) (s : State) : exec (.srot d a m) s = execSrot d a m s := rfl
theorem exec_csrr (g : BitVec 4) (x : BitVec 6) (n : BitVec 10) (s : State) : exec (.csrr g x n) s = execCsrr g x n s := rfl
theorem exec_csrw (g : BitVec 4) (y : BitVec 6) (n : BitVec 10) (s : State) : exec (.csrw g y n) s = execCsrw g y n s := rfl
theorem exec_svc (g : BitVec 4) (y : BitVec 6) (n : BitVec 6) (s : State) : exec (.svc g y n) s = execSvc g y n s := rfl
theorem exec_spillf (g : BitVec 4) (s : State) : exec (.spillf g) s = execSpillf g s := rfl
theorem exec_fillf (g : BitVec 4) (s : State) : exec (.fillf g) s = execFillf g s := rfl
theorem exec_tlbi (g : BitVec 4) (y : BitVec 6) (s : State) : exec (.tlbi g y) s = execTlbi g y s := rfl
theorem exec_ctxsave (g : BitVec 4) (y : BitVec 6) (s : State) : exec (.ctxsave g y) s = execCtxsave g y s := rfl
theorem exec_ctxload (g : BitVec 4) (y : BitVec 6) (s : State) : exec (.ctxload g y) s = execCtxload g y s := rfl
theorem exec_immx (p : BitVec 22) (s : State) : exec (.immx p) s = execImmx p s := rfl
theorem exec_modx (p : BitVec 3) (v : BitVec 1) (c : BitVec 6) (sat : BitVec 1) (r : BitVec 2) (s : State) : exec (.modx p v c sat r) s = execModx p v c sat r s := rfl
theorem exec_sched (p : BitVec 2) (s : State) : exec (.sched p) s = execSched p s := rfl
theorem exec_tgt (l : BitVec 2) (s : State) : exec (.tgt l) s = execTgt l s := rfl
theorem exec_converge (j : BitVec 22) (s : State) : exec (.converge j) s = execConverge j s := rfl
theorem exec_undefinedHint (k : BitVec 4) (p : BitVec 22) (s : State) : exec (.undefinedHint k p) s = execUndefinedHint k p s := rfl
theorem exec_instructionFetch (slot : Nat) (s : State) : exec (.instructionFetch slot) s = execInstructionFetch slot s := rfl
theorem exec_progressCountExpiry (sub : Nat) (s : State) : exec (.progressCountExpiry sub) s = execProgressCountExpiry sub s := rfl
theorem exec_progressIssueCountExpiry (sub : Nat) (s : State) : exec (.progressIssueCountExpiry sub) s = execProgressIssueCountExpiry sub s := rfl
theorem exec_issueBudgetExpiry (sub : Nat) (s : State) : exec (.issueBudgetExpiry sub) s = execIssueBudgetExpiry sub s := rfl
theorem exec_mailboxDelivery (id : Nat) (s : State) : exec (.mailboxDelivery id) s = execMailboxDelivery id s := rfl
theorem exec_storeFifoSend (slot : Nat) (s : State) : exec (.storeFifoSend slot) s = execStoreFifoSend slot s := rfl
theorem exec_storeAck (id : Nat) (s : State) : exec (.storeAck id) s = execStoreAck id s := rfl
theorem exec_loadResponse (id : Nat) (s : State) : exec (.loadResponse id) s = execLoadResponse id s := rfl
theorem exec_eretRecordReturn (slot : Nat) (s : State) : exec (.eretRecordReturn slot) s = execEretRecordReturn slot s := rfl
theorem exec_launchRecordReturn (slot : Nat) (s : State) : exec (.launchRecordReturn slot) s = execLaunchRecordReturn slot s := rfl
theorem exec_fillfReturn (slot : Nat) (s : State) : exec (.fillfReturn slot) s = execFillfReturn slot s := rfl
theorem exec_postingEnd (slot : Nat) (s : State) : exec (.postingEnd slot) s = execPostingEnd slot s := rfl
theorem exec_ctxBlockReturn (slot : Nat) (s : State) : exec (.ctxBlockReturn slot) s = execCtxBlockReturn slot s := rfl
theorem exec_counterHomeAdd (slot : Nat) (id : Nat) (s : State) : exec (.counterHomeAdd slot id) s = execCounterHomeAdd slot id s := rfl
theorem exec_counterHomeAlloc (slot : Nat) (id : Nat) (s : State) : exec (.counterHomeAlloc slot id) s = execCounterHomeAlloc slot id s := rfl
theorem exec_counterHomeFree (slot : Nat) (id : Nat) (s : State) : exec (.counterHomeFree slot id) s = execCounterHomeFree slot id s := rfl
theorem exec_counterHomeRead (slot : Nat) (id : Nat) (s : State) : exec (.counterHomeRead slot id) s = execCounterHomeRead slot id s := rfl
theorem exec_counterWaiterRegister (slot : Nat) (id : Nat) (s : State) : exec (.counterWaiterRegister slot id) s = execCounterWaiterRegister slot id s := rfl
theorem exec_overflowCounterApply (die : Nat) (s : State) : exec (.overflowCounterApply die) s = execOverflowCounterApply die s := rfl
theorem exec_counterWake (id : Nat) (s : State) : exec (.counterWake id) s = execCounterWake id s := rfl
theorem exec_counterAnswer (id : Nat) (s : State) : exec (.counterAnswer id) s = execCounterAnswer id s := rfl
theorem exec_cwaitTimeout (slot : Nat) (lane : Nat) (s : State) : exec (.cwaitTimeout slot lane) s = execCwaitTimeout slot lane s := rfl
theorem exec_pollerRecheck (slot : Nat) (lane : Nat) (s : State) : exec (.pollerRecheck slot lane) s = execPollerRecheck slot lane s := rfl
theorem exec_ltsTick (s : State) : exec .ltsTick s = execLtsTick s := rfl
theorem exec_pageWalk (slot : Nat) (lane : Nat) (va : BitVec 64) (kind : WalkKind) (s : State) : exec (.pageWalk slot lane va kind) s = execPageWalk slot lane va kind s := rfl
theorem exec_sliceRequest (slice : Nat) (s : State) : exec (.sliceRequest slice) s = execSliceRequest slice s := rfl
theorem exec_lineFill (slice : Nat) (line : Nat) (victim : Option Nat) (s : State) : exec (.lineFill slice line victim) s = execLineFill slice line victim s := rfl
theorem exec_sliceAtomic (slice : Nat) (s : State) : exec (.sliceAtomic slice) s = execSliceAtomic slice s := rfl
theorem exec_atomrRoutine (slice : Nat) (s : State) : exec (.atomrRoutine slice) s = execAtomrRoutine slice s := rfl
theorem exec_deckRequest (core : Nat) (s : State) : exec (.deckRequest core) s = execDeckRequest core s := rfl
theorem exec_multicastResponse (slice : Nat) (s : State) : exec (.multicastResponse slice) s = execMulticastResponse slice s := rfl
theorem exec_relayBeat (core : Nat) (s : State) : exec (.relayBeat core) s = execRelayBeat core s := rfl
theorem exec_nack (core : Nat) (id : Nat) (s : State) : exec (.nack core id) s = execNack core id s := rfl
theorem exec_retryResend (core : Nat) (id : Nat) (s : State) : exec (.retryResend core id) s = execRetryResend core id s := rfl
theorem exec_remapNack (core : Nat) (id : Nat) (s : State) : exec (.remapNack core id) s = execRemapNack core id s := rfl
theorem exec_mapActivate (die : Nat) (s : State) : exec (.mapActivate die) s = execMapActivate die s := rfl
theorem exec_sliceRetireComplete (slice : Nat) (s : State) : exec (.sliceRetireComplete slice) s = execSliceRetireComplete slice s := rfl
theorem exec_slicePowerDown (slice : Nat) (s : State) : exec (.slicePowerDown slice) s = execSlicePowerDown slice s := rfl
theorem exec_copyCommandStart (core : Nat) (chan : Nat) (s : State) : exec (.copyCommandStart core chan) s = execCopyCommandStart core chan s := rfl
theorem exec_copyCommandComplete (core : Nat) (chan : Nat) (s : State) : exec (.copyCommandComplete core chan) s = execCopyCommandComplete core chan s := rfl
theorem exec_carouselItemStart (core : Nat) (chan : Nat) (s : State) : exec (.carouselItemStart core chan) s = execCarouselItemStart core chan s := rfl
theorem exec_carouselItemDone (core : Nat) (chan : Nat) (s : State) : exec (.carouselItemDone core chan) s = execCarouselItemDone core chan s := rfl
theorem exec_mxtabLoad (core : Nat) (s : State) : exec (.mxtabLoad core) s = execMxtabLoad core s := rfl
theorem exec_mxcmdStart (core : Nat) (s : State) : exec (.mxcmdStart core) s = execMxcmdStart core s := rfl
theorem exec_mxcmdComplete (core : Nat) (s : State) : exec (.mxcmdComplete core) s = execMxcmdComplete core s := rfl
theorem exec_matrixSplitStop (core : Nat) (tile : Nat) (kdone : Nat) (s : State) : exec (.matrixSplitStop core tile kdone) s = execMatrixSplitStop core tile kdone s := rfl
theorem exec_engineSplitStop (core : Nat) (s : State) : exec (.engineSplitStop core) s = execEngineSplitStop core s := rfl
theorem exec_collectiveStart (group : Nat) (seq : Nat) (s : State) : exec (.collectiveStart group seq) s = execCollectiveStart group seq s := rfl
theorem exec_collectiveComplete (die : Nat) (group : Nat) (s : State) : exec (.collectiveComplete die group) s = execCollectiveComplete die group s := rfl
theorem exec_collectiveStallTimeout (die : Nat) (group : Nat) (s : State) : exec (.collectiveStallTimeout die group) s = execCollectiveStallTimeout die group s := rfl
theorem exec_streamOpStart (core : Nat) (s : State) : exec (.streamOpStart core) s = execStreamOpStart core s := rfl
theorem exec_launchRecordCheck (s : State) : exec .launchRecordCheck s = execLaunchRecordCheck s := rfl
theorem exec_gridStart (serial : Nat) (s : State) : exec (.gridStart serial) s = execGridStart serial s := rfl
theorem exec_gridDependenceStale (serial : Nat) (s : State) : exec (.gridDependenceStale serial) s = execGridDependenceStale serial s := rfl
theorem exec_teamDispatch (s : State) : exec .teamDispatch s = execTeamDispatch s := rfl
theorem exec_teamRestore (s : State) : exec .teamRestore s = execTeamRestore s := rfl
theorem exec_teamPark (serial : Nat) (team : Nat) (s : State) : exec (.teamPark serial team) s = execTeamPark serial team s := rfl
theorem exec_crewRelease (slot : Nat) (s : State) : exec (.crewRelease slot) s = execCrewRelease slot s := rfl
theorem exec_gridRetire (serial : Nat) (s : State) : exec (.gridRetire serial) s = execGridRetire serial s := rfl
theorem exec_sliceExpiry (ctx : Nat) (s : State) : exec (.sliceExpiry ctx) s = execSliceExpiry ctx s := rfl
theorem exec_preemptCore (core : Nat) (s : State) : exec (.preemptCore core) s = execPreemptCore core s := rfl
theorem exec_crewSave (slot : Nat) (s : State) : exec (.crewSave slot) s = execCrewSave slot s := rfl
theorem exec_imageComplete (ctx : Nat) (s : State) : exec (.imageComplete ctx) s = execImageComplete ctx s := rfl
theorem exec_coreContextClear (core : Nat) (s : State) : exec (.coreContextClear core) s = execCoreContextClear core s := rfl
theorem exec_clusterPowerGate (cluster : Nat) (s : State) : exec (.clusterPowerGate cluster) s = execClusterPowerGate cluster s := rfl
theorem exec_qcfgWrite (q : Nat) (value : BitVec 64) (s : State) : exec (.qcfgWrite q value) s = execQcfgWrite q value s := rfl
theorem exec_contextRegisterWrite (ctx : Nat) (off : Nat) (value : BitVec 64) (s : State) : exec (.contextRegisterWrite ctx off value) s = execContextRegisterWrite ctx off value s := rfl
theorem exec_contextTransWrite (ctx : Nat) (off : Nat) (value : BitVec 64) (s : State) : exec (.contextTransWrite ctx off value) s = execContextTransWrite ctx off value s := rfl
theorem exec_kick (q : Nat) (value : BitVec 64) (s : State) : exec (.kick q value) s = execKick q value s := rfl
theorem exec_kickEnqueue (q : Nat) (s : State) : exec (.kickEnqueue q) s = execKickEnqueue q s := rfl
theorem exec_launchWindowTrigger (q : Nat) (wslot : Nat) (record : BitVec 512) (s : State) : exec (.launchWindowTrigger q wslot record) s = execLaunchWindowTrigger q wslot record s := rfl
theorem exec_registerWrite (off : Nat) (value : BitVec 64) (s : State) : exec (.registerWrite off value) s = execRegisterWrite off value s := rfl
theorem exec_counterWindowReadValue (die : Nat) (index : Nat) (s : State) : exec (.counterWindowReadValue die index) s = execCounterWindowReadValue die index s := rfl
theorem exec_counterWindowReadStatus (die : Nat) (index : Nat) (s : State) : exec (.counterWindowReadStatus die index) s = execCounterWindowReadStatus die index s := rfl
theorem exec_counterWindowAdd (die : Nat) (index : Nat) (value : BitVec 64) (s : State) : exec (.counterWindowAdd die index value) s = execCounterWindowAdd die index value s := rfl
theorem exec_hostMemRead (addr : Nat) (size : Nat) (s : State) : exec (.hostMemRead addr size) s = execHostMemRead addr size s := rfl
theorem exec_hostMemWrite (addr : Nat) (data : List (BitVec 8)) (s : State) : exec (.hostMemWrite addr data) s = execHostMemWrite addr data s := rfl
theorem exec_snpcur (line : Nat) (s : State) : exec (.snpcur line) s = execSnpcur line s := rfl
theorem exec_snpdata (line : Nat) (s : State) : exec (.snpdata line) s = execSnpdata line s := rfl
theorem exec_snpinv (line : Nat) (s : State) : exec (.snpinv line) s = execSnpinv line s := rfl
theorem exec_pcieCompletion (id : Nat) (ok : Bool) (data : List (BitVec 8)) (s : State) : exec (.pcieCompletion id ok data) s = execPcieCompletion id ok data s := rfl
theorem exec_completionTimeout (id : Nat) (s : State) : exec (.completionTimeout id) s = execCompletionTimeout id s := rfl
theorem exec_pflush (s : State) : exec .pflush s = execPflush s := rfl
theorem exec_cxlflush (s : State) : exec .cxlflush s = execCxlflush s := rfl
theorem exec_linkDown (cxl : Bool) (s : State) : exec (.linkDown cxl) s = execLinkDown cxl s := rfl
theorem exec_linkstatClear (value : BitVec 64) (s : State) : exec (.linkstatClear value) s = execLinkstatClear value s := rfl
theorem exec_wrst (s : State) : exec .wrst s = execWrst s := rfl
theorem exec_rverify (s : State) : exec .rverify s = execRverify s := rfl
theorem exec_resetRelease (slotA : List (BitVec 8)) (slotB : List (BitVec 8)) (s : State) : exec (.resetRelease slotA slotB) s = execResetRelease slotA slotB s := rfl
theorem exec_lockstepMismatch (s : State) : exec .lockstepMismatch s = execLockstepMismatch s := rfl
theorem exec_epoch (s : State) : exec .epoch s = execEpoch s := rfl
theorem exec_spdmRequest (request : SpdmRequest) (s : State) : exec (.spdmRequest request) s = execSpdmRequest request s := rfl
theorem exec_lockInterfaceRequest (nonce : BitVec 256) (s : State) : exec (.lockInterfaceRequest nonce) s = execLockInterfaceRequest nonce s := rfl
theorem exec_startInterfaceRequest (nonce : BitVec 256) (s : State) : exec (.startInterfaceRequest nonce) s = execStartInterfaceRequest nonce s := rfl
theorem exec_stopInterfaceRequest (s : State) : exec .stopInterfaceRequest s = execStopInterfaceRequest s := rfl
theorem exec_getDeviceInterfaceReport (s : State) : exec .getDeviceInterfaceReport s = execGetDeviceInterfaceReport s := rfl
theorem exec_ideFailure (stream : Nat) (s : State) : exec (.ideFailure stream) s = execIdeFailure stream s := rfl
theorem exec_flr (s : State) : exec .flr s = execFlr s := rfl
theorem exec_arrivalAdmit (source : Nat) (access : Access) (s : State) : exec (.arrivalAdmit source access) s = execArrivalAdmit source access s := rfl
theorem exec_arrivalPresent (s : State) : exec .arrivalPresent s = execArrivalPresent s := rfl
theorem exec_logRecordPresent (s : State) : exec .logRecordPresent s = execLogRecordPresent s := rfl
theorem exec_egressDigestCheck (source : Nat) (s : State) : exec (.egressDigestCheck source) s = execEgressDigestCheck source s := rfl
theorem exec_freeze (s : State) : exec .freeze s = execFreeze s := rfl
theorem exec_xmodeWrite (value : BitVec 64) (s : State) : exec (.xmodeWrite value) s = execXmodeWrite value s := rfl
theorem exec_rplctlWrite (value : BitVec 64) (s : State) : exec (.rplctlWrite value) s = execRplctlWrite value s := rfl
theorem exec_scanOut (haddr : Nat) (s : State) : exec (.scanOut haddr) s = execScanOut haddr s := rfl
theorem exec_scanIn (haddr : Nat) (s : State) : exec (.scanIn haddr) s = execScanIn haddr s := rfl
theorem exec_release (s : State) : exec .release s = execRelease s := rfl
theorem exec_scanComplete (s : State) : exec .scanComplete s = execScanComplete s := rfl
theorem exec_synccmd (value : BitVec 64) (s : State) : exec (.synccmd value) s = execSynccmd value s := rfl
theorem exec_sync (t1 : Int) (s : State) : exec (.sync t1) s = execSync t1 s := rfl
theorem exec_dreq (t4 : Int) (s : State) : exec (.dreq t4) s = execDreq t4 s := rfl
theorem exec_samplePoint (s : State) : exec .samplePoint s = execSamplePoint s := rfl
theorem exec_powerWindow (meanWatts : Nat) (s : State) : exec (.powerWindow meanWatts) s = execPowerWindow meanWatts s := rfl
theorem exec_thermalStop (temps : List Int) (s : State) : exec (.thermalStop temps) s = execThermalStop temps s := rfl
theorem exec_thermalRestart (temps : List Int) (s : State) : exec (.thermalRestart temps) s = execThermalRestart temps s := rfl
theorem exec_thermtrip (s : State) : exec .thermtrip s = execThermtrip s := rfl
theorem exec_flitCrcResend (port : Nat) (s : State) : exec (.flitCrcResend port) s = execFlitCrcResend port s := rfl
theorem exec_portStateChange (port : Nat) (state : Nat) (peer : Nat) (s : State) : exec (.portStateChange port state peer) s = execPortStateChange port state peer s := rfl
theorem exec_counterNotification (id : Nat) (s : State) : exec (.counterNotification id) s = execCounterNotification id s := rfl
theorem exec_info (s : State) : exec .info s = execInfo s := rfl
theorem exec_setmod (s : State) : exec .setmod s = execSetmod s := rfl
theorem exec_nop (s : State) : exec .nop s = execNop s := rfl
theorem exec_ping (s : State) : exec .ping s = execPing s := rfl
theorem exec_arena (s : State) : exec .arena s = execArena s := rfl
theorem exec_alloc (s : State) : exec .alloc s = execAlloc s := rfl
theorem exec_free (s : State) : exec .free s = execFree s := rfl
theorem exec_aquery (s : State) : exec .aquery s = execAquery s := rfl
theorem exec_areset (s : State) : exec .areset s = execAreset s := rfl
theorem exec_slog (s : State) : exec .slog s = execSlog s := rfl
theorem exec_svcCalloc (s : State) : exec .svcCalloc s = execSvcCalloc s := rfl
theorem exec_svcCfree (s : State) : exec .svcCfree s = execSvcCfree s := rfl
theorem exec_cnotify (s : State) : exec .cnotify s = execCnotify s := rfl
theorem exec_ccancel (s : State) : exec .ccancel s = execCcancel s := rfl
theorem exec_ovfpages (s : State) : exec .ovfpages s = execOvfpages s := rfl
theorem exec_cinfo (s : State) : exec .cinfo s = execCinfo s := rfl
theorem exec_evring (s : State) : exec .evring s = execEvring s := rfl
theorem exec_evpost (s : State) : exec .evpost s = execEvpost s := rfl
theorem exec_trapfwd (s : State) : exec .trapfwd s = execTrapfwd s := rfl
theorem exec_evflush (s : State) : exec .evflush s = execEvflush s := rfl
theorem exec_evvec (s : State) : exec .evvec s = execEvvec s := rfl
theorem exec_evmask (s : State) : exec .evmask s = execEvmask s := rfl
theorem exec_fltans (s : State) : exec .fltans s = execFltans s := rfl
theorem exec_dbgatt (s : State) : exec .dbgatt s = execDbgatt s := rfl
theorem exec_dbgdet (s : State) : exec .dbgdet s = execDbgdet s := rfl
theorem exec_dbgres (s : State) : exec .dbgres s = execDbgres s := rfl
theorem exec_ctxkill (s : State) : exec .ctxkill s = execCtxkill s := rfl
theorem exec_tlbinv (s : State) : exec .tlbinv s = execTlbinv s := rfl
theorem exec_rtninst (s : State) : exec .rtninst s = execRtninst s := rfl
theorem exec_rtndel (s : State) : exec .rtndel s = execRtndel s := rfl
theorem exec_grpdef (s : State) : exec .grpdef s = execGrpdef s := rfl
theorem exec_grpdel (s : State) : exec .grpdel s = execGrpdel s := rfl
theorem exec_grpcancel (s : State) : exec .grpcancel s = execGrpcancel s := rfl
theorem exec_rport (s : State) : exec .rport s = execRport s := rfl
theorem exec_mapset (s : State) : exec .mapset s = execMapset s := rfl
theorem exec_slretire (s : State) : exec .slretire s = execSlretire s := rfl
theorem exec_rasread (s : State) : exec .rasread s = execRasread s := rfl
theorem exec_rasclr (s : State) : exec .rasclr s = execRasclr s := rfl
theorem exec_smpstart (s : State) : exec .smpstart s = execSmpstart s := rfl
theorem exec_smpstop (s : State) : exec .smpstop s = execSmpstop s := rfl
theorem exec_pwrcap (s : State) : exec .pwrcap s = execPwrcap s := rfl
theorem exec_therm (s : State) : exec .therm s = execTherm s := rfl
theorem exec_rplcfg (s : State) : exec .rplcfg s = execRplcfg s := rfl
theorem exec_stopset (s : State) : exec .stopset s = execStopset s := rfl
theorem exec_attmeas (s : State) : exec .attmeas s = execAttmeas s := rfl
theorem exec_attsign (s : State) : exec .attsign s = execAttsign s := rfl
theorem exec_tdireport (s : State) : exec .tdireport s = execTdireport s := rfl
theorem exec_fwstage (s : State) : exec .fwstage s = execFwstage s := rfl
theorem exec_undefinedWord (w : BitVec 32) (s : State) : exec (.undefinedWord w) s = execUndefinedWord w s := rfl
theorem exec_linkUp (cxl : Bool) (gen : Nat) (x8 : Bool) (s : State) : exec (.linkUp cxl gen x8) s = execLinkUp cxl gen x8 s := rfl
theorem exec_perstAssert (s : State) : exec .perstAssert s = execPerstAssert s := rfl
theorem exec_powerLoss (s : State) : exec .powerLoss s = execPowerLoss s := rfl
theorem exec_hcall (value : BitVec 64) (s : State) : exec (.hcall value) s = execHcall value s := rfl
theorem exec_badcall (s : State) : exec .badcall s = execBadcall s := rfl
theorem exec_fusedMinimumRaise (svn : Nat) (s : State) : exec (.fusedMinimumRaise svn) s = execFusedMinimumRaise svn s := rfl
theorem exec_lpddrRefresh (mdie : Nat) (s : State) : exec (.lpddrRefresh mdie) s = execLpddrRefresh mdie s := rfl
theorem exec_softError (site : ErrorSite) (corrected : Bool) (s : State) : exec (.softError site corrected) s = execSoftError site corrected s := rfl

end Sys2Proof.Machine
end

