-- ==== Sys2Proof/Laws/Memory.lean ====
section
/-! SUPPORT. What the memory operations do: a read after a write, and the canonical form kept. -/

namespace Sys2Proof.Machine

@[simp] theorem Memory.byte_setByte (m : Memory) (a b : Nat) (v : Byte) :
    (m.setByte a v).byte b = if b = a then v else m.byte b := by
  simp [Memory.byte, Memory.setByte]

/-- Every byte after a write: the bytes stored in their place, every other one as it was. -/
theorem Memory.byte_write (m : Memory) (a b : Nat) (l : List Byte) :
    (m.write a l).byte b = if a ≤ b ∧ b < a + l.length then l.getD (b - a) 0 else m.byte b := by
  induction l generalizing m a with
  | nil => rw [Memory.write, if_neg (by simp only [List.length_nil]; omega)]
  | cons v t ih =>
    rw [Memory.write, ih, Memory.byte_setByte]
    by_cases h : b = a
    · subst h; rw [if_neg (by omega)]; simp
    · by_cases h2 : a + 1 ≤ b ∧ b < a + 1 + t.length
      · have h3 : b - a = b - (a + 1) + 1 := by omega
        simp only [h2, and_self, ↓reduceIte, List.length_cons, h3, List.getD_cons_succ]
        rw [if_pos (by omega)]
      · rw [if_neg h2, if_neg h, if_neg (by simp only [List.length_cons]; omega)]

@[simp] theorem Memory.read_length (m : Memory) (a n : Nat) : (m.read a n).length = n := by
  induction n generalizing a with
  | zero => rfl
  | succ n ih => simp [Memory.read, ih]

/-- A byte of what is read. -/
theorem Memory.read_getD (m : Memory) (a n i : Nat) (h : i < n) (d : Byte) : (m.read a n).getD i d = m.byte (a + i) := by
  induction n generalizing a i with
  | zero => omega
  | succ n ih =>
    cases i with
    | zero => simp [Memory.read]
    | succ i =>
      rw [Memory.read, List.getD_cons_succ, ih (a + 1) i (by omega)]
      congr 1; omega

/-- Two memories that agree on a range read the same there. -/
theorem Memory.read_congr (m k : Memory) (a n : Nat) (h : ∀ i, i < n → m.byte (a + i) = k.byte (a + i)) :
    m.read a n = k.read a n := by
  induction n generalizing a with
  | zero => rfl
  | succ n ih =>
    have h0 := h 0 (by omega)
    rw [Memory.read, Memory.read, ih (a + 1) fun i hi => by
      have := h (i + 1) (by omega)
      rwa [← Nat.add_assoc, Nat.add_right_comm] at this]
    simp_all

/-- A read of the bytes just written. -/
theorem Memory.read_write (m : Memory) (a : Nat) (l : List Byte) : (m.write a l).read a l.length = l := by
  refine List.ext_getElem (by simp) fun i h1 h2 => ?_
  have := Memory.read_getD (m.write a l) a l.length i h2 0
  rw [Memory.byte_write, if_pos (by omega)] at this
  simpa [List.getD_eq_getElem?_getD, h2] using this

/-- A read of bytes that a write does not touch. -/
theorem Memory.read_write_apart (m : Memory) (a b n : Nat) (l : List Byte) (h : b + n ≤ a ∨ a + l.length ≤ b) :
    (m.write a l).read b n = m.read b n :=
  Memory.read_congr _ _ b n fun i hi => by rw [Memory.byte_write, if_neg (by omega)]

theorem Memory.wf_setByte (m : Memory) (a : Nat) (v : Byte) (h : m.wf) : (m.setByte a v).wf :=
  Cells.canonical_set 0 m a v h

theorem Memory.wf_write (m : Memory) (a : Nat) (l : List Byte) (h : m.wf) : (m.write a l).wf := by
  induction l generalizing m a with
  | nil => exact h
  | cons v t ih => exact ih _ _ (Memory.wf_setByte m a v h)

theorem Memory.wf_nil : Memory.wf [] := rfl

theorem State.reset_mem_wf : Memory.wf State.reset.mem := rfl

/-- Equal bytes everywhere make equal memories. -/
theorem Memory.ext (m k : Memory) (hm : m.wf) (hk : k.wf) (h : ∀ a, m.byte a = k.byte a) : m = k :=
  Cells.canonical_ext 0 m k hm hk h

end Sys2Proof.Machine
end

