-- ==== Sys2Proof/Laws/Slices.lean ====
section
/-! SUPPORT. What using a device line at its home does (R277, R283): lines come into caches and leave them, and nothing else. -/

namespace Sys2Proof.Machine

theorem LinesMove.refl (s : State) : LinesMove s s :=
  ⟨rfl, fun _ => rfl, fun _ => rfl, fun _ _ => ⟨rfl, rfl⟩, fun h => ⟨rfl, h⟩⟩

theorem LinesMove.trans {s t u : State} (h : LinesMove s t) (k : LinesMove t u) : LinesMove s u where
  rest := by rw [k.rest, h.rest]
  slices n := by rw [k.slices n, h.slices n]
  dies n := by rw [k.dies n, h.dies n]
  times n l := ⟨(k.times n l).1.trans (h.times n l).1, (k.times n l).2.trans (h.times n l).2⟩
  host c := by
    have h1 := h.host c
    have h2 := k.host h1.2
    exact ⟨h2.1.trans h1.1, h2.2⟩

/-- Lines of one slice changed, none of a host made dirty. -/
theorem LinesMove.modSlice (s : State) (n : Nat) (f : Slice → Slice)
    (hf : f (s.slice n) = { s.slice n with
      lines := (f (s.slice n)).lines, copies := (f (s.slice n)).copies, ways := (f (s.slice n)).ways })
    (ht : ∀ l, ((f (s.slice n)).line l).wts = ((s.slice n).line l).wts ∧ ((f (s.slice n)).line l).rts = ((s.slice n).line l).rts)
    (hd : ∀ l, hostBase ≤ l → ((s.slice n).line l).dirty = false → ((f (s.slice n)).line l).dirty = false) :
    LinesMove s (s.modSlice n f) where
  rest := rfl
  slices m := by
    rw [State.modSlice, State.slice_setSlice]
    by_cases h : m = n
    · subst h; simpa using hf
    · simp [h]
  dies _ := rfl
  times m l := by
    rw [State.modSlice, State.slice_setSlice]
    by_cases h : m = n
    · subst h; simpa using ht l
    · simp [h]
  host c := by
    refine ⟨rfl, fun m l hl => ?_⟩
    rw [State.modSlice, State.slice_setSlice]
    by_cases h : m = n
    · subst h; simpa using hd l hl (c m l hl)
    · simpa [h] using c m l hl

/-- One line of its home changed, its times kept, and not made dirty. -/
theorem LinesMove.modLine (s : State) (a : Nat) (f : LineMeta → LineMeta)
    (ht : ∀ m, (f m).wts = m.wts ∧ (f m).rts = m.rts) (hd : ∀ m, m.dirty = false → (f m).dirty = false) :
    LinesMove s (s.modLine a f) := by
  refine LinesMove.modSlice s _ _ rfl (fun l => ?_) fun l _ h => ?_
  · simp only [Slice.setLine, Slice.line, Cells.get_set]
    split
    · next e => subst e; exact ht _
    · exact ⟨rfl, rfl⟩
  · simp only [Slice.setLine, Slice.line, Cells.get_set] at h ⊢
    split
    · next e => subst e; exact hd _ h
    · exact h

theorem State.useLlc_moves (s : State) (a : Nat) (d : Bool) : LinesMove s (s.useLlc a d) where
  rest := rfl
  slices _ := rfl
  dies n := by
    rw [State.useLlc, State.modDie, State.die_setDie]
    by_cases h : n = homeDie a
    · subst h; simp
    · simp [h]
  times _ _ := ⟨rfl, rfl⟩
  host c := ⟨rfl, c⟩

theorem State.writeBack_moves (s : State) (a : Nat) : LinesMove s (s.writeBack a) := by
  unfold State.writeBack
  dsimp only
  by_cases hd : (s.line a).dirty = true
  · simp only [hd, Bool.not_true, Bool.false_eq_true, ↓reduceIte]
    refine LinesMove.trans (t := if hostLine a then (if (s.line a).present then s.hostWrite a (s.line a).data else s) else s.useLlc a true)
      ?_ (LinesMove.modLine _ _ _ (fun _ => ⟨rfl, rfl⟩) fun _ _ => rfl)
    by_cases hh : hostLine a = true
    · simp only [hh, ↓reduceIte]
      by_cases hp : (s.line a).present = true
      · simp only [hp, ↓reduceIte]
        refine ⟨rfl, fun _ => rfl, fun _ => rfl, fun _ _ => ⟨rfl, rfl⟩, fun c => ?_⟩
        have := c (s.homeSlice a) a (by simpa [hostLine] using hh)
        rw [State.line] at hd
        rw [this] at hd; cases hd
      · simp only [hp]; exact LinesMove.refl s
    · simp only [hh]; exact s.useLlc_moves a true
  · simp only [hd, Bool.not_false, ↓reduceIte]; exact LinesMove.refl s

theorem State.evict_moves (s : State) (a : Nat) : LinesMove s (s.evict a) :=
  (s.writeBack_moves a).trans (LinesMove.modLine _ _ _ (fun _ => ⟨rfl, rfl⟩) fun _ h => h)

theorem State.displace_moves (s : State) (n a : Nat) : LinesMove s (s.displace n a) := by
  unfold State.displace
  split
  · exact s.evict_moves a
  · exact LinesMove.modSlice s n _ rfl (fun _ => ⟨rfl, rfl⟩) fun _ _ h => h

theorem State.makeRoom_moves (s : State) (n a : Nat) (next : Bool) : LinesMove s (s.makeRoom n a next) := by
  unfold State.makeRoom
  dsimp only
  split
  · exact LinesMove.modSlice s n _ rfl (fun _ => ⟨rfl, rfl⟩) fun _ _ h => h
  · refine LinesMove.trans ?_ (LinesMove.modSlice _ n _ rfl (fun _ => ⟨rfl, rfl⟩) fun _ _ h => h)
    split
    · exact s.displace_moves n _
    · exact LinesMove.refl s

theorem hostLine_device {a : Nat} (h : a < hostBase) : hostLine a = false := by simp [hostLine, Nat.not_le.2 h]

/-- A device line used at its home: lines move, and that is all. -/
theorem State.useLine_moves (s : State) (a : Nat) (own : Bool) (h : a < hostBase) : LinesMove s (s.useLine a own) := by
  unfold State.useLine
  split
  · exact LinesMove.modSlice s _ _ rfl (fun _ => ⟨rfl, rfl⟩) fun _ _ h => h
  · simp only [State.fillLine, hostLine_device h, Bool.false_eq_true, ↓reduceIte]
    rw [if_neg (by decide)]
    exact ((s.useLlc_moves a false).trans (State.makeRoom_moves _ _ _ _)).trans
      (LinesMove.modLine _ _ _ (fun _ => ⟨rfl, rfl⟩) fun _ h => h)

end Sys2Proof.Machine
end

