-- ==== Sys2Proof/Laws/Services.lean ====
section
/-! SUPPORT. What the frame of a Coxswain call does (R380 to R385): storing results and STATUS, and serving a call
that the host has posted. -/

namespace Sys2Proof.Machine

/-! ## Bytes of LPDDR-5X in the global space -/

theorem State.byteAt_device (s : State) (a : Nat) (h : a < hostBase) : s.byteAt .global a = s.mem.byte a := by
  simp [State.byteAt, State.globalByte, Nat.not_le.2 h]

theorem State.bytesAt_device (s : State) (a n : Nat) (h : a + n ≤ hostBase) : s.bytesAt .global a n = s.mem.read a n := by
  induction n generalizing a with
  | zero => rfl
  | succ n ih => rw [State.bytesAt, Memory.read, State.byteAt_device s a (by omega), ih (a + 1) (by omega)]

theorem State.setBytesAt_device (s : State) (a : Nat) (l : List Byte) (h : a + l.length ≤ hostBase) :
    s.setBytesAt .global a l = { s with mem := s.mem.write a l } := by
  induction l generalizing s a with
  | nil => rfl
  | cons b t ih =>
    simp only [List.length_cons] at h
    have hb : s.setByteAt .global a b = { s with mem := s.mem.setByte a b } := by
      simp [State.setByteAt, show ¬ hostBase ≤ a by omega]
    rw [State.setBytesAt, hb, ih _ (a + 1) (by omega)]
    rfl

/-! ## A unit's store of bytes of one line -/

/-- What storing bytes at the line of `a` may change: those bytes, that line's times, and which lines caches hold. -/
structure StoredAt (a : Nat) (s t : State) : Prop where
  lines : ∀ n l, l ≠ a / 128 * 128 →
    ((t.slice n).line l).wts = ((s.slice n).line l).wts ∧ ((t.slice n).line l).rts = ((s.slice n).line l).rts
  dies : ∀ n, t.die n = { s.die n with llc := (t.die n).llc, llcDirty := (t.die n).llcDirty }
  host : (∀ n l, hostBase ≤ l → ((s.slice n).line l).dirty = false) →
    t.hostMem = s.hostMem ∧ ∀ n l, hostBase ≤ l → ((t.slice n).line l).dirty = false
  rest : t = { s with mem := t.mem, hostMem := t.hostMem, slices := t.slices, dies := t.dies }

theorem StoredAt.refl (a : Nat) (s : State) : StoredAt a s s :=
  ⟨fun _ _ _ => ⟨rfl, rfl⟩, fun _ => rfl, fun c => ⟨rfl, c⟩, rfl⟩

theorem StoredAt.trans {a : Nat} {s t u : State} (h : StoredAt a s t) (k : StoredAt a t u) : StoredAt a s u where
  lines n l e := ⟨(k.lines n l e).1.trans (h.lines n l e).1, (k.lines n l e).2.trans (h.lines n l e).2⟩
  dies n := by rw [k.dies n, h.dies n]
  host c := by
    have h1 := h.host c
    have h2 := k.host h1.2
    exact ⟨h2.1.trans h1.1, h2.2⟩
  rest := by rw [k.rest, h.rest]

/-- Storing bytes writes them, and at the home slice the line's times; every other line keeps its own. -/
theorem State.unitStore_device (s : State) (pa : Nat) (cxl : Bool) (l : List Byte) (h : pa + l.length ≤ hostBase) (hp : pa < hostBase) :
    ∃ w u, s.unitStore pa cxl l = (w, u) ∧ u.mem = s.mem.write pa l ∧ StoredAt pa s u := by
  have hl : lineOf pa = pa / 128 * 128 := rfl
  have m := s.useLine_moves (lineOf pa) true (by rw [hl]; omega)
  have he : s.unitStore pa cxl l =
      ({ s.useLine (lineOf pa) true with mem := (s.useLine (lineOf pa) true).mem.write pa l } : State).homeWrite (lineOf pa) 0 := by
    simp only [State.unitStore, hostLine_device hp, Bool.false_and, Bool.false_eq_true, ↓reduceIte]
    rw [State.setBytesAt_device _ pa l h]
  generalize s.useLine (lineOf pa) true = v at m he
  refine ⟨_, _, he, ?_, ?_⟩
  · show v.mem.write pa l = _
    rw [m.rest]
  · have k : StoredAt pa s v := ⟨fun n a _ => m.times n a, m.dies, m.host, by rw [m.rest]⟩
    refine k.trans ⟨fun n a ha => ?_, fun _ => rfl, fun c => ⟨rfl, fun n a hb => ?_⟩, rfl⟩
    · simp only [State.modLine, State.modSlice, State.slice_setSlice]
      split
      · next e =>
        subst e
        simp only [Slice.setLine, Slice.line, Cells.get_set, lineOf]
        rw [if_neg ha]
        exact ⟨rfl, rfl⟩
      · exact ⟨rfl, rfl⟩
    · simp only [State.modLine, State.modSlice, State.slice_setSlice]
      split
      · next e =>
        subst e
        simp only [Slice.setLine, Slice.line, Cells.get_set, lineOf]
        rw [if_neg (by omega)]
        exact c _ a hb
      · exact c n a hb

/-- What storing a list of results at a block does: their bytes, the last of two that overlap, and the block's line. -/
theorem State.storeResults (s : State) (pa : Nat) (cxl : Bool) (l : List (Nat × List Byte)) (w : Nat)
    (hb : pa + 64 ≤ hostBase) (ha : pa % 64 = 0) (hl : ∀ r ∈ l, r.1 < 64 ∧ r.1 + r.2.length ≤ 64) :
    ∃ w' u, l.foldl (init := (w, s)) (fun (m : Nat × State) (r : Nat × List Byte) =>
        let q := m.2.unitStore (pa + r.1) cxl r.2
        (max m.1 q.1, q.2)) = (w', u) ∧
      u.mem = l.foldl (fun m r => m.write (pa + r.1) r.2) s.mem ∧ StoredAt pa s u := by
  induction l generalizing s w with
  | nil => exact ⟨_, _, rfl, rfl, StoredAt.refl pa s⟩
  | cons r t ih =>
    have hr := hl r (by simp)
    obtain ⟨w1, u1, h1, m1, s1⟩ := State.unitStore_device s (pa + r.1) cxl r.2 (by omega) (by omega)
    obtain ⟨w2, u2, h2, m2, s2⟩ := ih u1 (max w w1) (fun q hq => hl q (by simp [hq]))
    have hline : (pa + r.1) / 128 * 128 = pa / 128 * 128 := by omega
    refine ⟨w2, u2, ?_, ?_, ?_⟩
    · simp only [List.foldl_cons, h1]; exact h2
    · rw [m2, m1]; rfl
    · exact StoredAt.trans ⟨fun n a hna => s1.lines n a (by rw [hline]; exact hna), s1.dies, s1.host, s1.rest⟩ s2

/-- The bytes after several writes that do not overlap. -/
theorem Memory.byte_writes (m : Memory) (pa : Nat) (l : List (Nat × List Byte))
    (hl : l.Pairwise fun q r => q.1 + q.2.length ≤ r.1 ∨ r.1 + r.2.length ≤ q.1) :
    (∀ r ∈ l, ∀ k, k < r.2.length → (l.foldl (fun m r => m.write (pa + r.1) r.2) m).byte (pa + r.1 + k) = r.2.getD k 0) ∧
    (∀ x, (∀ r ∈ l, x < pa + r.1 ∨ pa + r.1 + r.2.length ≤ x) →
      (l.foldl (fun m r => m.write (pa + r.1) r.2) m).byte x = m.byte x) := by
  induction l generalizing m with
  | nil => exact ⟨fun r hr => by simp at hr, fun x _ => rfl⟩
  | cons q t ih =>
    rw [List.pairwise_cons] at hl
    obtain ⟨i1, i2⟩ := ih (m.write (pa + q.1) q.2) hl.2
    refine ⟨fun r hr k hk => ?_, fun x hx => ?_⟩
    · rw [List.mem_cons] at hr
      rcases hr with rfl | hr
      · rw [List.foldl_cons, i2 _ (fun r' hr' => ?_), Memory.byte_write, if_pos (by omega)]
        · congr 1; omega
        · have := hl.1 r' hr'; omega
      · exact i1 r hr k hk
    · rw [List.foldl_cons, i2 x (fun r hr => hx r (by simp [hr])), Memory.byte_write, if_neg]
      have := hx q (by simp); omega

/-- A call without CNT ends as R382 says: its results and STATUS in the block, all else as its effect left it. -/
theorem State.endCall_done (s : State) (pa : Nat) (cxl : Bool) (a : Answer) (hb : pa + 64 ≤ hostBase) (ha : pa % 64 = 0)
    (ho : a.off < 256) (hl : ∀ r ∈ a.results, 16 ≤ r.1 ∧ r.1 + r.2.length ≤ 64 ∧ r.1 < 64)
    (hd : a.results.Pairwise fun q r => q.1 + q.2.length ≤ r.1 ∨ r.1 + r.2.length ≤ q.1) :
    CallDone pa a.code a.off a.results s (s.endCall pa cxl 0 a) := by
  have h4 : (bytesOf 4 (2 ^ 31 + a.off * 256 + a.code)).length = 4 := rfl
  generalize he : bytesOf 4 (2 ^ 31 + a.off * 256 + a.code) = st at h4
  obtain ⟨w, u, h1, h3, h2⟩ := State.storeResults s pa cxl (a.results ++ [(8, st)]) 0 hb ha (by
    intro r hr
    rw [List.mem_append, List.mem_singleton] at hr
    rcases hr with hr | rfl
    · have := hl r hr; omega
    · simp only [h4]; omega)
  have hu : s.endCall pa cxl 0 a = u := by
    simp only [State.endCall, Nat.mod_eq_of_lt ho, he, h1, true_or, ↓reduceIte]
  have hp : (a.results ++ [(8, st)]).Pairwise fun (q r : Nat × List Byte) => q.1 + q.2.length ≤ r.1 ∨ r.1 + r.2.length ≤ q.1 := by
    rw [List.pairwise_append]
    refine ⟨hd, List.pairwise_singleton _ _, fun q hq r hr => ?_⟩
    rw [List.mem_singleton] at hr
    subst hr
    have := hl q hq
    right; simp only [h4]; omega
  obtain ⟨i1, i2⟩ := Memory.byte_writes s.mem pa _ hp
  have hm : ∀ r, r ∈ a.results ++ [(8, st)] ↔ r ∈ (8, st) :: a.results := fun r => by
    rw [List.mem_append, List.mem_singleton, List.mem_cons, Or.comm]
  rw [hu]
  refine ⟨fun r hr k hk => ?_, fun x hx => ?_, h2.lines, h2.dies, fun c => (h2.host c).1, h2.rest⟩
  · rw [h3]
    exact i1 r ((hm r).2 (by rw [← he]; exact hr)) k hk
  · rw [h3]
    exact i2 x (fun r hr => hx r (by rw [he]; exact (hm r).1 hr))

/-! ## A call that the host has posted -/

theorem natOf_lt (l : List Byte) : natOf l < 256 ^ l.length := by
  induction l with
  | nil => decide
  | cons b t ih =>
    have := b.isLt
    simp only [natOf, List.length_cons, Nat.pow_succ]
    omega

theorem natOf_take_add (l : List Byte) (m n : Nat) : natOf (l.take (m + n)) = natOf (l.take m) + 256 ^ m * natOf ((l.drop m).take n) := by
  induction m generalizing l with
  | zero => simp [natOf]
  | succ m ih =>
    cases l with
    | nil => simp [natOf]
    | cons b t =>
      rw [show m + 1 + n = (m + n) + 1 by omega, List.take_succ_cons, List.take_succ_cons, List.drop_succ_cons, natOf, natOf, ih t,
        Nat.pow_succ, Nat.mul_add, Nat.mul_comm (256 ^ m) 256, Nat.mul_assoc]
      omega

/-- A field of a block in two parts. -/
theorem blk_add (b : List Byte) (off m n : Nat) : blk b off (m + n) = blk b off m + 256 ^ m * blk b (off + m) n := by
  rw [blk, natOf_take_add, List.drop_drop]; rfl

theorem blk_lt (b : List Byte) (off n : Nat) : blk b off n < 256 ^ n := by
  refine Nat.lt_of_lt_of_le (natOf_lt _) (Nat.pow_le_pow_right (by decide) ?_)
  rw [List.length_take]; omega

theorem linePieces_64 (a : Nat) (h : a % 64 = 0) (hs : a < 2 ^ 64) : piecesOf a 64 = [(a, 64)] := by
  have h1 : a % 2 ^ 64 = a := Nat.mod_eq_of_lt hs
  have h2 : min 64 (128 - a % 128) = 64 := by omega
  simp [piecesOf, linePieces, h1, h2] <;> omega

/-- What the host reads at its own block. -/
theorem State.posterRead_block (s : State) (p : Poster) (a : Nat) (hp : p.device = none) (ha : a % 64 = 0) (hi : a + 64 ≤ dramSize)
    (hg : s.inOverflow a = false)
    (hc : ∀ l ∈ s.poison, l + 128 ≤ a ∨ a + 64 ≤ l) : s.posterRead p a 64 = some (s.mem.read a 64) := by
  have hd : dramSize < hostBase := by decide
  have hz : dramSize < 2 ^ 64 := by decide
  have hr : s.readPoison a false = false := by
    simp only [State.readPoison, hostLine_device (show a < hostBase by omega), Bool.false_and, Bool.false_eq_true, ↓reduceIte,
      State.poisoned, lineOf]
    rw [List.contains_eq_mem, decide_eq_false_iff_not]
    intro hm
    have := hc _ hm
    omega
  simp only [State.posterRead, linePieces_64 a ha (by omega), List.foldl_cons, List.foldl_nil, State.posterPlace, hp, hg,
    show a < dramSize by omega, Bool.not_false, and_self, ↓reduceIte, State.pathBytes, hostLine_device (show a < hostBase by omega), Bool.false_and, hr, Bool.false_eq_true, List.nil_append, State.bytesAt_device s a 64 (by omega)]

/-- A posted call of its row's number is served: its own part acts on the state without the call, with the host as poster, and it ends. -/
theorem State.callOf_posted {s : State} {n : Nat} {c : Call} {b : List Byte} (h : Posted s n c b) (hn : n < 48)
    (f : State → Poster → List Byte → Answer) :
    s.callOf n f = .next ((f (s.popCall c) ⟨blk b 12 1, none, true⟩ b).state.endCall c.block.toNat false 0
      (f (s.popCall c) ⟨blk b 12 1, none, true⟩ b)) := by
  have hh := h.header
  have h13 : blk b 13 1 = 0 ∧ blk b 14 1 = 0 ∧ blk b 15 1 = 0 := by
    have h1 := blk_add b 13 1 2
    have h2 := blk_add b 14 1 1
    simp only [Nat.reduceAdd, Nat.reducePow] at h1 h2
    omega
  have hr : (s.popCall c).posterRead ⟨0, none, true⟩ c.block.toNat 64 = some b := by
    rw [← h.bytes]
    exact State.posterRead_block (s.popCall c) _ _ rfl h.aligned h.inside h.granted h.clean
  have hin : c.block.toNat < dramSize := by have := h.inside; omega
  have hg : (s.popCall c).inOverflow c.block.toNat = false := h.granted
  have hx : ¬ 16 ≤ blk b 12 1 := by have := h.context; omega
  simp only [State.callOf, State.serveCall, h.next, h.number, h.host, h.unlocked, Option.map_none, Option.getD_none, hr,
    State.posterPlace, hin, hg, Bool.not_false, and_self, ↓reduceIte, beq_self_eq_true, Bool.not_true, Bool.false_or, Option.isSome_none, Bool.false_eq_true,
    State.callFault, h.handle, h13, hx, show ¬ 48 ≤ n by omega, Bool.and_false, Bool.not_true,
    show ((TdiState.unlocked == TdiState.error) = false) from rfl, ne_eq, not_true_eq_false]
  simp [State.popCall, h.unlocked]

/-- A posted call whose own part answers `a` from a state `u`: it ends with the code, the offset and the results of `a`. -/
theorem State.callOf_done {s : State} {n : Nat} {c : Call} {b : List Byte} (h : Posted s n c b) (hn : n < 48)
    {f : State → Poster → List Byte → Answer} {a : Answer} (hf : f (s.popCall c) ⟨blk b 12 1, none, true⟩ b = a) (ho : a.off < 256)
    (hl : ∀ r ∈ a.results, 16 ≤ r.1 ∧ r.1 + r.2.length ≤ 64 ∧ r.1 < 64)
    (hd : a.results.Pairwise fun q r => q.1 + q.2.length ≤ r.1 ∨ r.1 + r.2.length ≤ q.1) :
    ∃ t, s.callOf n f = .next t ∧ CallDone c.block.toNat a.code a.off a.results a.state t := by
  have hi := h.inside
  have hk : dramSize < hostBase := by decide
  exact ⟨_, by rw [State.callOf_posted h hn, hf], State.endCall_done _ _ _ _ (by omega) h.aligned ho hl hd⟩

end Sys2Proof.Machine
end

