-- ==== Sys2Proof/Tests/Slice0.lean ====
section
/-! SUPPORT. The model's own tests: ill-formed terms, words written out from the encoding tables (R128, R150 to R165),
one step of a word on a small state, and for every obligation a state that meets its hypotheses. -/

namespace Sys2Proof.Tests

open Sys2Proof Sys2Proof.Machine

set_option Elab.async false

/-! ## Ill-formed terms -/

theorem test_illformed_guard : (Instr.mov 8 1 2).wellFormed = false := by decide +kernel
theorem test_illformed_classes :
    (Instr.addI64 0 1 2 4).wellFormed = false ∧ (Instr.ldk 0 20 4 0 0).wellFormed = false ∧
    (Instr.ldN8 0 50 4 0).wellFormed = false ∧ (Instr.ld64 0 48 4 0).wellFormed = false ∧
    (Instr.ld64 0 5 4 0).wellFormed = false ∧ (Instr.ld128 0 6 4 0).wellFormed = false ∧
    (Instr.ld128 0 52 4 0).wellFormed = false ∧ (Instr.st128 0 6 4 0).wellFormed = false ∧
    (Instr.icmpReg 0 3 4 0 1 0).wellFormed = false ∧ (Instr.fcmp 0 3 4 0 0 1).wellFormed = false ∧
    (Instr.fcvt 0 3 4 2 5).wellFormed = false ∧ (Instr.scadd 0 3 4 2).wellFormed = false ∧
    (Instr.atomAdd 0 50 4 0 1).wellFormed = false ∧ (Instr.atomAdd 0 5 4 1 0).wellFormed = false ∧
    (Instr.atomCas 0 5 4 0 0).wellFormed = false ∧ (Instr.atomCas 0 6 4 1 0).wellFormed = false := by decide +kernel
theorem test_illformed_fields :
    (Instr.fcvt 0 4 8 12 5).wellFormed = false ∧ (Instr.fcvt 0 4 8 5 12).wellFormed = false ∧
    (Instr.fcvt 0 4 8 5 5).wellFormed = false ∧ (Instr.fcvt 0 4 8 0 1).wellFormed = false ∧
    (Instr.fred 0 4 8 0 3).wellFormed = false ∧ (Instr.sxpack 0 4 8 3).wellFormed = false ∧
    (Instr.sxunpack 0 4 8 3 0).wellFormed = false ∧ (Instr.sxunpack 0 4 8 0 3).wellFormed = false ∧
    (Instr.atomCas 0 63 4 0 0).wellFormed = false ∧ (Instr.prefetch 0 4 3).wellFormed = false ∧
    (Instr.fence 0 6).wellFormed = false ∧ (Instr.calloc 0 4 6).wellFormed = false ∧
    (Instr.waite 0 3 0).wellFormed = false ∧ (Instr.sseed 0 3).wellFormed = false ∧
    (Instr.csrr 0 4 0x009).wellFormed = false ∧ (Instr.csrw 0 4 0x1FF).wellFormed = false ∧
    (Instr.csrw 0 0 0x021).wellFormed = false ∧ (Instr.svc 0 4 48).wellFormed = false ∧
    (Instr.modx 5 0 0 0 0).wellFormed = false ∧ (Instr.sched 3).wellFormed = false ∧ (Instr.tgt 0).wellFormed = false ∧
    (Instr.undefinedHint 4 0).wellFormed = false := by decide +kernel
theorem test_illformed_units_1 :
    (Instr.instructionFetch 6144).wellFormed = false ∧ (Instr.progressCountExpiry 768).wellFormed = false ∧
    (Instr.progressIssueCountExpiry 768).wellFormed = false ∧ (Instr.issueBudgetExpiry 768).wellFormed = false ∧
    (Instr.storeFifoSend 6144).wellFormed = false ∧ (Instr.eretRecordReturn 6144).wellFormed = false ∧
    (Instr.launchRecordReturn 6144).wellFormed = false ∧ (Instr.fillfReturn 6144).wellFormed = false ∧
    (Instr.postingEnd 6144).wellFormed = false ∧ (Instr.ctxBlockReturn 6144).wellFormed = false ∧
    (Instr.counterHomeAdd 6144 0).wellFormed = false ∧ (Instr.counterHomeAlloc 6144 0).wellFormed = false ∧
    (Instr.counterHomeFree 6144 0).wellFormed = false ∧ (Instr.counterHomeRead 6144 0).wellFormed = false ∧
    (Instr.counterWaiterRegister 6144 0).wellFormed = false ∧ (Instr.overflowCounterApply 4).wellFormed = false ∧
    (Instr.cwaitTimeout 6144 0).wellFormed = false ∧ (Instr.cwaitTimeout 0 64).wellFormed = false := by decide +kernel
theorem test_illformed_units_2 :
    (Instr.pollerRecheck 6144 0).wellFormed = false ∧ (Instr.pollerRecheck 0 64).wellFormed = false ∧
    (Instr.pageWalk 6144 0 0 .read).wellFormed = false ∧ (Instr.pageWalk 0 64 0 .read).wellFormed = false ∧
    (Instr.sliceRequest 192).wellFormed = false ∧ (Instr.lineFill 192 0 none).wellFormed = false ∧
    (Instr.sliceAtomic 192).wellFormed = false ∧ (Instr.atomrRoutine 192).wellFormed = false ∧
    (Instr.deckRequest 192).wellFormed = false ∧ (Instr.multicastResponse 192).wellFormed = false ∧
    (Instr.relayBeat 192).wellFormed = false ∧ (Instr.nack 192 0).wellFormed = false ∧
    (Instr.retryResend 192 0).wellFormed = false ∧ (Instr.remapNack 192 0).wellFormed = false ∧
    (Instr.mapActivate 4).wellFormed = false ∧ (Instr.sliceRetireComplete 192).wellFormed = false ∧
    (Instr.slicePowerDown 192).wellFormed = false ∧ (Instr.copyCommandStart 192 0).wellFormed = false := by decide +kernel
theorem test_illformed_units_3 :
    (Instr.copyCommandStart 0 4).wellFormed = false ∧ (Instr.copyCommandComplete 192 0).wellFormed = false ∧
    (Instr.copyCommandComplete 0 4).wellFormed = false ∧ (Instr.carouselItemStart 192 0).wellFormed = false ∧
    (Instr.carouselItemStart 0 4).wellFormed = false ∧ (Instr.carouselItemDone 192 0).wellFormed = false ∧
    (Instr.carouselItemDone 0 4).wellFormed = false ∧ (Instr.mxtabLoad 192).wellFormed = false ∧
    (Instr.mxcmdStart 192).wellFormed = false ∧ (Instr.mxcmdComplete 192).wellFormed = false ∧
    (Instr.matrixSplitStop 192 0 0).wellFormed = false ∧ (Instr.engineSplitStop 192).wellFormed = false ∧
    (Instr.collectiveComplete 4 0).wellFormed = false ∧ (Instr.collectiveStallTimeout 4 0).wellFormed = false ∧
    (Instr.streamOpStart 192).wellFormed = false ∧ (Instr.crewRelease 6144).wellFormed = false ∧
    (Instr.sliceExpiry 16).wellFormed = false ∧ (Instr.preemptCore 192).wellFormed = false := by decide +kernel
theorem test_illformed_units_4 :
    (Instr.crewSave 6144).wellFormed = false ∧ (Instr.imageComplete 16).wellFormed = false ∧
    (Instr.coreContextClear 192).wellFormed = false ∧ (Instr.clusterPowerGate 48).wellFormed = false ∧
    (Instr.qcfgWrite 64 0).wellFormed = false ∧ (Instr.contextRegisterWrite 16 0 0).wellFormed = false ∧
    (Instr.contextTransWrite 16 0 0).wellFormed = false ∧ (Instr.kick 64 0).wellFormed = false ∧
    (Instr.kickEnqueue 64).wellFormed = false ∧ (Instr.launchWindowTrigger 64 0 0).wellFormed = false ∧
    (Instr.launchWindowTrigger 0 64 0).wellFormed = false ∧ (Instr.counterWindowReadValue 4 0).wellFormed = false ∧
    (Instr.counterWindowReadStatus 4 0).wellFormed = false ∧ (Instr.counterWindowAdd 4 0 0).wellFormed = false ∧
    (Instr.flitCrcResend 16).wellFormed = false ∧ (Instr.portStateChange 16 0 0).wellFormed = false ∧
    (Instr.lpddrRefresh 4).wellFormed = false := by decide +kernel

/-! ## Words written out from their encodings -/

theorem test_decode_major_01 :
  decode? 0x04D461C0 = some (.addI32 3 20 24 28) ∧
  decode? 0x04D461C1 = some (.subI32 3 20 24 28) ∧
  decode? 0x04D461C2 = some (.addN32 3 20 24 28) ∧
  decode? 0x04D461C3 = some (.subN32 3 20 24 28) ∧
  decode? 0x04D461C4 = some (.and32 3 20 24 28) ∧
  decode? 0x04D461C5 = some (.or32 3 20 24 28) ∧
  decode? 0x04D461C6 = some (.xor32 3 20 24 28) ∧
  decode? 0x04D461C7 = some (.andn 3 20 24 28) ∧
  decode? 0x04D461C8 = some (.shl32 3 20 24 28) ∧
  decode? 0x04D461C9 = some (.shr32 3 20 24 28) ∧
  decode? 0x04D461CA = some (.sha32 3 20 24 28) ∧
  decode? 0x04D461CB = some (.rot32 3 20 24 28) ∧
  decode? 0x04D461CC = some (.min32 3 20 24 28) ∧
  decode? 0x04D461CD = some (.max32 3 20 24 28) ∧
  decode? 0x04D461CE = some (.minu32 3 20 24 28) ∧
  decode? 0x04D461CF = some (.maxu32 3 20 24 28) := by decide +kernel

theorem test_decode_major_02 :
  decode? 0x08D46155 = some (.addImm 3 20 24 341) := by decide +kernel

theorem test_decode_major_03 :
  decode? 0x0CD461C0 = some (.addI64 3 20 24 28) ∧
  decode? 0x0CD461C1 = some (.subI64 3 20 24 28) ∧
  decode? 0x0CD461C2 = some (.addN64 3 20 24 28) ∧
  decode? 0x0CD461C3 = some (.subN64 3 20 24 28) ∧
  decode? 0x0CD461C4 = some (.and64 3 20 24 28) ∧
  decode? 0x0CD461C5 = some (.or64 3 20 24 28) ∧
  decode? 0x0CD461C6 = some (.xor64 3 20 24 28) ∧
  decode? 0x0CD461C7 = some (.shl64 3 20 24 28) ∧
  decode? 0x0CD461C8 = some (.shr64 3 20 24 28) ∧
  decode? 0x0CD461C9 = some (.sha64 3 20 24 28) ∧
  decode? 0x0CD461CA = some (.min64 3 20 24 28) ∧
  decode? 0x0CD461CB = some (.max64 3 20 24 28) ∧
  decode? 0x0CD461CC = some (.minu64 3 20 24 28) ∧
  decode? 0x0CD461CD = some (.maxu64 3 20 24 28) ∧
  decode? 0x0CD461CE = some (.mullo64 3 20 24 28) ∧
  decode? 0x0CD461CF = some (.rot64 3 20 24 28) := by decide +kernel

theorem test_decode_major_04 :
  decode? 0x10D46000 = some (.mov 3 20 24) ∧
  decode? 0x10D46040 = some (.clz 3 20 24) ∧
  decode? 0x10D46080 = some (.popc 3 20 24) ∧
  decode? 0x10D460C0 = some (.brev 3 20 24) ∧
  decode? 0x10D46100 = some (.abs 3 20 24) ∧
  decode? 0x10D46155 = some (.shl32Imm 3 20 24 21) ∧
  decode? 0x10D46195 = some (.shr32Imm 3 20 24 21) ∧
  decode? 0x10D461D5 = some (.sha32Imm 3 20 24 21) ∧
  decode? 0x10D46215 = some (.rot32Imm 3 20 24 21) ∧
  decode? 0x10D46240 = some (.mov64 3 20 24) ∧
  decode? 0x10D4629C = some (.shl64Imm 3 20 24 28) ∧
  decode? 0x10D462DC = some (.shr64Imm 3 20 24 28) ∧
  decode? 0x10D4631C = some (.sha64Imm 3 20 24 28) ∧
  decode? 0x10D4635C = some (.rot64Imm 3 20 24 28) := by decide +kernel

theorem test_decode_major_05 :
  decode? 0x14D461C0 = some (.mullo 3 20 24 28) ∧
  decode? 0x14D461C1 = some (.mulhi 3 20 24 28) ∧
  decode? 0x14D461C2 = some (.mulhu 3 20 24 28) ∧
  decode? 0x14D461C3 = some (.mad 3 20 24 28) ∧
  decode? 0x14D461C4 = some (.madWide 3 20 24 28) ∧
  decode? 0x14D461C5 = some (.lea 3 20 24 28) ∧
  decode? 0x14D461C6 = some (.bfx 3 20 24 28) ∧
  decode? 0x14D461C7 = some (.bfi 3 20 24 28) ∧
  decode? 0x14D461CC = some (.sel 3 20 24 28 4) := by decide +kernel

theorem test_decode_major_06 :
  decode? 0x18D461C0 = some (.div 3 20 24 28) ∧
  decode? 0x18D461C1 = some (.divu 3 20 24 28) ∧
  decode? 0x18D461C2 = some (.rem 3 20 24 28) ∧
  decode? 0x18D461C3 = some (.remu 3 20 24 28) ∧
  decode? 0x18D461C4 = some (.div64 3 20 24 28) ∧
  decode? 0x18D461C5 = some (.divu64 3 20 24 28) ∧
  decode? 0x18D461C6 = some (.rem64 3 20 24 28) ∧
  decode? 0x18D461C7 = some (.remu64 3 20 24 28) := by decide +kernel

theorem test_decode_major_07 :
  decode? 0x1CD46070 = some (.icmpReg 3 20 24 1 1 4) ∧
  decode? 0x1CD40A75 = some (.icmpImm 3 20 2 1 1 21) := by decide +kernel

theorem test_decode_major_08 :
  decode? 0x20D45555 = some (.movi 3 20 21845) := by decide +kernel

theorem test_decode_major_09 :
  decode? 0x24D45555 = some (.movhi 3 20 21845) := by decide +kernel

theorem test_decode_major_0A :
  decode? 0x28C30810 = some (.pand 3 3 2 1) ∧
  decode? 0x28C30811 = some (.por 3 3 2 1) ∧
  decode? 0x28C30812 = some (.pxor 3 3 2 1) ∧
  decode? 0x28C30803 = some (.pnot 3 3 2) ∧
  decode? 0x28C30804 = some (.pmov 3 3 2) := by decide +kernel

theorem test_decode_major_0B :
  decode? 0x2CC30800 = some (.voteAny 3 3 2) ∧
  decode? 0x2CC30840 = some (.voteAll 3 3 2) ∧
  decode? 0x2CD40880 = some (.ballot 3 20 2) ∧
  decode? 0x2CC300C0 = some (.elect 3 3) ∧
  decode? 0x2CD4611C = some (.shflIdx 3 20 24 28) ∧
  decode? 0x2CD4615C = some (.shflUp 3 20 24 28) ∧
  decode? 0x2CD4619C = some (.shflDown 3 20 24 28) ∧
  decode? 0x2CD461DC = some (.shflXor 3 20 24 28) ∧
  decode? 0x2CD46200 = some (.shflVar 3 20 24) ∧
  decode? 0x2CD46254 = some (.fred 3 20 24 1 1) := by decide +kernel

theorem test_decode_major_0C :
  decode? 0x30D461C0 = some (.faddF32 3 20 24 28) ∧
  decode? 0x30D461C1 = some (.fsubF32 3 20 24 28) ∧
  decode? 0x30D461C2 = some (.fmulF32 3 20 24 28) ∧
  decode? 0x30D461C3 = some (.ffmaF32 3 20 24 28) ∧
  decode? 0x30D461C4 = some (.fminF32 3 20 24 28) ∧
  decode? 0x30D461C5 = some (.fmaxF32 3 20 24 28) := by decide +kernel

theorem test_decode_major_0D :
  decode? 0x34D461C0 = some (.faddF64 3 20 24 28) ∧
  decode? 0x34D461C1 = some (.fsubF64 3 20 24 28) ∧
  decode? 0x34D461C2 = some (.fmulF64 3 20 24 28) ∧
  decode? 0x34D461C3 = some (.ffmaF64 3 20 24 28) ∧
  decode? 0x34D461C4 = some (.fminF64 3 20 24 28) ∧
  decode? 0x34D461C5 = some (.fmaxF64 3 20 24 28) := by decide +kernel

theorem test_decode_major_0E :
  decode? 0x38D461C0 = some (.faddF16 3 20 24 28) ∧
  decode? 0x38D461C1 = some (.fsubF16 3 20 24 28) ∧
  decode? 0x38D461C2 = some (.fmulF16 3 20 24 28) ∧
  decode? 0x38D461C3 = some (.ffmaF16 3 20 24 28) ∧
  decode? 0x38D461C4 = some (.fminF16 3 20 24 28) ∧
  decode? 0x38D461C5 = some (.fmaxF16 3 20 24 28) ∧
  decode? 0x38D461C8 = some (.faddBf16 3 20 24 28) ∧
  decode? 0x38D461C9 = some (.fsubBf16 3 20 24 28) ∧
  decode? 0x38D461CA = some (.fmulBf16 3 20 24 28) ∧
  decode? 0x38D461CB = some (.ffmaBf16 3 20 24 28) ∧
  decode? 0x38D461CC = some (.fminBf16 3 20 24 28) ∧
  decode? 0x38D461CD = some (.fmaxBf16 3 20 24 28) := by decide +kernel

theorem test_decode_major_0F :
  decode? 0x3CD460C4 = some (.fcmp 3 20 24 1 4 1) := by decide +kernel

theorem test_decode_major_10 :
  decode? 0x40D461C0 = some (.fdivF32 3 20 24 28) ∧
  decode? 0x40D46001 = some (.fsqrtF32 3 20 24) ∧
  decode? 0x40D46002 = some (.frcpF32 3 20 24) ∧
  decode? 0x40D46003 = some (.frsq 3 20 24) ∧
  decode? 0x40D46004 = some (.fex2 3 20 24) ∧
  decode? 0x40D46005 = some (.flg2 3 20 24) ∧
  decode? 0x40D46006 = some (.froundF32 3 20 24) ∧
  decode? 0x40D46007 = some (.fclassF32 3 20 24) ∧
  decode? 0x40D461C8 = some (.fdivF64 3 20 24 28) ∧
  decode? 0x40D46009 = some (.fsqrtF64 3 20 24) ∧
  decode? 0x40D4600A = some (.frcpF64 3 20 24) ∧
  decode? 0x40D4600B = some (.froundF64 3 20 24) ∧
  decode? 0x40D4600C = some (.fclassF64 3 20 24) ∧
  decode? 0x40D4600D = some (.fclassF16 3 20 24) ∧
  decode? 0x40D4600E = some (.fclassBf16 3 20 24) := by decide +kernel

theorem test_decode_major_11 :
  decode? 0x44D461C0 = some (.fcvt 3 20 24 7 0) := by decide +kernel

theorem test_decode_major_12 :
  decode? 0x48D46080 = some (.sxpack 3 20 24 1) ∧
  decode? 0x48D462A0 = some (.sxunpack 3 20 24 1 1) := by decide +kernel

theorem test_decode_major_14 :
  decode? 0x50D55555 = some (.bra 3 1398101) := by decide +kernel

theorem test_decode_major_15 :
  decode? 0x54D55555 = some (.call 3 1398101) := by decide +kernel

theorem test_decode_major_16 :
  decode? 0x58D40000 = some (.brx 3 20) ∧
  decode? 0x58D40001 = some (.callx 3 20) ∧
  decode? 0x58C00002 = some (.ret 3) := by decide +kernel

theorem test_decode_major_17 :
  decode? 0x5CC00000 = some (.exit 3) ∧
  decode? 0x5CC00040 = some (.yield 3) ∧
  decode? 0x5CC00094 = some (.trap 3 20) ∧
  decode? 0x5CC000D4 = some (.bkpt 3 20) ∧
  decode? 0x5CC00100 = some (.eret 3) ∧
  decode? 0x5CC05140 = some (.launch 3 20) := by decide +kernel

theorem test_decode_major_18 :
  decode? 0x60D4602A = some (.ldN8 3 20 24 42) ∧
  decode? 0x60D460AA = some (.ldI8 3 20 24 42) ∧
  decode? 0x60D4612A = some (.ldN16 3 20 24 42) ∧
  decode? 0x60D461AA = some (.ldI16 3 20 24 42) ∧
  decode? 0x60D4622A = some (.ld32 3 20 24 42) ∧
  decode? 0x60D462AA = some (.ld64 3 20 24 42) ∧
  decode? 0x60D4632A = some (.ld128 3 20 24 42) := by decide +kernel

theorem test_decode_major_19 :
  decode? 0x64D4602A = some (.st8 3 20 24 42) ∧
  decode? 0x64D4612A = some (.st16 3 20 24 42) ∧
  decode? 0x64D4622A = some (.st32 3 20 24 42) ∧
  decode? 0x64D462AA = some (.st64 3 20 24 42) ∧
  decode? 0x64D4632A = some (.st128 3 20 24 42) := by decide +kernel

theorem test_decode_major_1A :
  decode? 0x68F45155 = some (.ldk 3 52 20 1 85) ∧
  decode? 0x68F45355 = some (.stk 3 52 20 1 85) := by decide +kernel

theorem test_decode_major_1B :
  decode? 0x6CD46030 = some (.atomAdd 3 20 24 1 1) ∧
  decode? 0x6CD46070 = some (.atomMin 3 20 24 1 1) ∧
  decode? 0x6CD460B0 = some (.atomMax 3 20 24 1 1) ∧
  decode? 0x6CD460F0 = some (.atomMinu 3 20 24 1 1) ∧
  decode? 0x6CD46130 = some (.atomMaxu 3 20 24 1 1) ∧
  decode? 0x6CD46170 = some (.atomAnd 3 20 24 1 1) ∧
  decode? 0x6CD461B0 = some (.atomOr 3 20 24 1 1) ∧
  decode? 0x6CD461F0 = some (.atomXor 3 20 24 1 1) ∧
  decode? 0x6CD46230 = some (.atomXchg 3 20 24 1 1) ∧
  decode? 0x6CD46270 = some (.atomCas 3 20 24 1 1) ∧
  decode? 0x6CD46290 = some (.atomFadd 3 20 24 1) := by decide +kernel

theorem test_decode_major_1C :
  decode? 0x70D46080 = some (.scadd 3 20 24 1) ∧
  decode? 0x70D46200 = some (.binapp 3 20 24) := by decide +kernel

theorem test_decode_major_1D :
  decode? 0x74D46000 = some (.mcastLd 3 20 24) ∧
  decode? 0x74C05101 = some (.prefetch 3 20 1) ∧
  decode? 0x74C05200 = some (.cctlIinv 3 20) ∧
  decode? 0x74C05201 = some (.cctlL1inv 3 20) ∧
  decode? 0x74C05202 = some (.cctlL2wb 3 20) ∧
  decode? 0x74C05203 = some (.cctlL2inv 3 20) := by decide +kernel

theorem test_decode_major_1E :
  decode? 0x78C00003 = some (.fence 3 3) := by decide +kernel

theorem test_decode_major_1F :
  decode? 0x7CD46001 = some (.rput 3 20 24 1) := by decide +kernel

theorem test_decode_major_20 :
  decode? 0x80D40002 = some (.calloc 3 20 2) ∧
  decode? 0x80C05100 = some (.cfree 3 20) ∧
  decode? 0x80D46200 = some (.cread 3 20 24) ∧
  decode? 0x80D46308 = some (.ctest 3 20 24 1) := by decide +kernel

theorem test_decode_major_21 :
  decode? 0x84D46000 = some (.caddReg 3 20 24) ∧
  decode? 0x84C05155 = some (.caddImm 3 20 85) ∧
  decode? 0x84D46200 = some (.caddrReg 3 20 24) ∧
  decode? 0x84D46355 = some (.caddrImm 3 20 24 85) := by decide +kernel

theorem test_decode_major_22 :
  decode? 0x88D46000 = some (.cwait 3 20 24) ∧
  decode? 0x88D46120 = some (.cwaitTo 3 20 24 1) ∧
  decode? 0x88C002AA = some (.waite 3 1 42) := by decide +kernel

theorem test_decode_major_23 :
  decode? 0x8CC05000 = some (.xcopy 3 20) ∧
  decode? 0x8CC00200 = some (.xcopyK 3) := by decide +kernel

theorem test_decode_major_24 :
  decode? 0x90C05000 = some (.mxcmd 3 20) ∧
  decode? 0x90C00080 = some (.mxcmdK 3) ∧
  decode? 0x90C05101 = some (.mxtab 3 20 1) ∧
  decode? 0x90D46200 = some (.accld 3 20 24) ∧
  decode? 0x90D46300 = some (.accst 3 20 24) := by decide +kernel

theorem test_decode_major_25 :
  decode? 0x94C05015 = some (.obres 3 20 21) ∧
  decode? 0x94C00215 = some (.obrel 3 21) := by decide +kernel

theorem test_decode_major_26 :
  decode? 0x98C05000 = some (.collAllreduce 3 20) ∧
  decode? 0x98C05080 = some (.collReducescatter 3 20) ∧
  decode? 0x98C05100 = some (.collAllgather 3 20) ∧
  decode? 0x98C05180 = some (.collGather 3 20) ∧
  decode? 0x98C05200 = some (.collScatter 3 20) ∧
  decode? 0x98C05280 = some (.collAlltoall 3 20) := by decide +kernel

theorem test_decode_major_27 :
  decode? 0x9CD4601C = some (.atomr 3 20 24 28) := by decide +kernel

theorem test_decode_major_28 :
  decode? 0xA0000015 = some (.sseed 5 1) ∧
  decode? 0xA0180854 = some (.sgen 3 2 5) ∧
  decode? 0xA0180894 = some (.sgenk 3 2 5) ∧
  decode? 0xA00000C1 = some (.slen 1) := by decide +kernel

theorem test_decode_major_29 :
  decode? 0xA41A2000 = some (.sand 3 2 1) ∧
  decode? 0xA41A2001 = some (.sxnor 3 2 1) ∧
  decode? 0xA41A2002 = some (.sor 3 2 1) ∧
  decode? 0xA41A2003 = some (.ssub 3 2 1) ∧
  decode? 0xA41A2004 = some (.smin 3 2 1) ∧
  decode? 0xA41A2005 = some (.smax 3 2 1) ∧
  decode? 0xA41A0006 = some (.snot 3 2) ∧
  decode? 0xA41A3007 = some (.smux 3 2 1 4) := by decide +kernel

theorem test_decode_major_2A :
  decode? 0xA8030800 = some (.scnt 3 2) ∧
  decode? 0xA8034440 = some (.sdot 3 2 1) ∧
  decode? 0xA81A0094 = some (.sregen 3 2 5) ∧
  decode? 0xA80308C0 = some (.stag 3 2) ∧
  decode? 0xA81A0100 = some (.smov 3 2) ∧
  decode? 0xA81A015C = some (.srot 3 2 28) := by decide +kernel

theorem test_decode_major_30 :
  decode? 0xC0D40021 = some (.csrr 3 20 33) ∧
  decode? 0xC0C05021 = some (.csrw 3 20 33) := by decide +kernel

theorem test_decode_major_31 :
  decode? 0xC4C05018 = some (.svc 3 20 24) := by decide +kernel

theorem test_decode_major_32 :
  decode? 0xC8C00000 = some (.spillf 3) ∧
  decode? 0xC8C00001 = some (.fillf 3) := by decide +kernel

theorem test_decode_major_33 :
  decode? 0xCCC05000 = some (.tlbi 3 20) ∧
  decode? 0xCCC05001 = some (.ctxsave 3 20) ∧
  decode? 0xCCC05002 = some (.ctxload 3 20) := by decide +kernel

theorem test_decode_major_3F :
  decode? 0xFC155555 = some (.immx 1398101) ∧
  decode? 0xFC400EC5 = some (.modx 3 1 24 1 1) ∧
  decode? 0xFC800001 = some (.sched 1) ∧
  decode? 0xFCC00001 = some (.tgt 1) ∧
  decode? 0xFD155555 = some (.converge 1398101) ∧
  decode? 0xFD555555 = some (.undefinedHint 5 1398101) := by decide +kernel

/-! ## One step of a word -/

/-- A crew of one thread with the given %g registers. -/
def crewOf (l : List (Nat × Word)) : Crew := { probeCrew with threads := [{ probeThread with regs := l }] }

/-- A booted package whose slot 0 holds a crew, with the lanes of its run. -/
def mach (c : Crew) (lanes : List Nat) : State :=
  { State.reset with crews := [(0, c)], cur := ⟨0, lanes⟩, boot := { Boot.reset with stage := 0 } }

/-- A value of the next state. -/
def after {α : Type} (i : Instr) (s : State) (f : State → α) : Option α :=
  match exec i s with
  | .next t => some (f t)
  | _ => none

/-- Lane 0 of slot 0. -/
def lane0 (s : State) : Thread := ((s.crew? 0).map fun c => c.thread 0).getD Thread.gone

/-- %g3 of lane 0 after a word over %g1 and %g2. -/
def g3 (i : Instr) (a b : Word) : Option Word := after i (mach (crewOf [(1, a), (2, b)]) [0]) fun t => (lane0 t).get 3

/-- %g3 and %FPFLAGS of lane 0 after a word over %g1 and %g2. -/
def f3 (i : Instr) (a b : Word) : Option (Word × Word) :=
  after i (mach (crewOf [(1, a), (2, b)]) [0]) fun t => ((lane0 t).get 3, (lane0 t).fpflags)

-- R98: addition wraps, and division by 0 and of the most negative number by -1 do not fault.
theorem test_add_wraps : g3 (.addI32 0 3 1 2) 0xFFFFFFFF 2 = some 1 := by decide +kernel
theorem test_sub_order : g3 (.subI32 0 3 1 2) 5 7 = some 0xFFFFFFFE := by decide +kernel
theorem test_div_by_zero : g3 (.div 0 3 1 2) 7 0 = some 0xFFFFFFFF ∧ g3 (.rem 0 3 1 2) 7 0 = some 7 := by decide +kernel
theorem test_div_corner : g3 (.div 0 3 1 2) 0x80000000 0xFFFFFFFF = some 0x80000000 ∧
    g3 (.rem 0 3 1 2) 0x80000000 0xFFFFFFFF = some 0 := by decide +kernel
theorem test_div_rounds_to_zero : g3 (.div 0 3 1 2) 0xFFFFFFF9 2 = some 0xFFFFFFFD ∧
    g3 (.rem 0 3 1 2) 0xFFFFFFF9 2 = some 0xFFFFFFFF := by decide +kernel
-- R168: ANDN keeps a's bits outside b; shifts take b mod 32; SHA copies the sign.
theorem test_andn : g3 (.andn 0 3 1 2) 0xFF 0x0F = some 0xF0 := by decide +kernel
theorem test_shl_amount : g3 (.shl32 0 3 1 2) 1 33 = some 2 := by decide +kernel
theorem test_sha_sign : g3 (.sha32 0 3 1 2) 0x80000000 31 = some 0xFFFFFFFF := by decide +kernel
theorem test_min_signs : g3 (.min32 0 3 1 2) 0xFFFFFFFF 1 = some 0xFFFFFFFF ∧
    g3 (.minu32 0 3 1 2) 0xFFFFFFFF 1 = some 1 := by decide +kernel
-- R171: the high half of a product differs by the signs.
theorem test_mulhi : g3 (.mulhi 0 3 1 2) 0xFFFFFFFF 0xFFFFFFFF = some 0 ∧
    g3 (.mulhu 0 3 1 2) 0xFFFFFFFF 0xFFFFFFFF = some 0xFFFFFFFE := by decide +kernel
-- R174: MOVI sign-extends its 16 bits; R57: %g0 reads 0 and drops what is written.
theorem test_movi : g3 (.movi 0 3 0xFFFE) 0 0 = some 0xFFFFFFFE := by decide +kernel
theorem test_g0 : after (.addI32 0 0 1 2) (mach (crewOf [(1, 4), (2, 5)]) [0]) (fun t => (lane0 t).get 0) = some 0 := by
  decide +kernel
-- R130: guard 1 is %p1, which is false; lane 0 does not take the result, and its PC goes on.
theorem test_guard : after (.addI32 1 3 1 2) (mach (crewOf [(1, 4), (2, 5)]) [0]) (fun t => ((lane0 t).get 3, (lane0 t).pc)) =
    some (0, 4) := by decide +kernel
-- R63, R101: 1 + 2^-24 rounds to 1 with NX (16); 1 / 0 is infinity with DZ (2); 0 / 0 is the NaN with NV (1).
theorem test_fadd_inexact : f3 (.faddF32 0 3 1 2) 0x3F800000 0x33800000 = some (0x3F800000, 16) := by decide +kernel
theorem test_fdiv_zero : f3 (.fdivF32 0 3 1 2) 0x3F800000 0 = some (0x7F800000, 2) := by decide +kernel
theorem test_fdiv_nan : f3 (.fdivF32 0 3 1 2) 0 0 = some (0x7FC00000, 1) := by decide +kernel
theorem test_fmul_overflow : f3 (.fmulF32 0 3 1 2) 0x7F7FFFFF 0x40000000 = some (0x7F800000, 20) := by decide +kernel
-- R104 and R183's examples: to I8, 300.7 gives 127 with NV, 127.4 gives 127 with NX, 127.6 gives 127 with NV.
theorem test_fcvt : f3 (.fcvt 0 3 1 8 6) 0x4396599A 0 = some (127, 1) ∧ f3 (.fcvt 0 3 1 8 6) 0x42FECCCD 0 = some (127, 16) ∧
    f3 (.fcvt 0 3 1 8 6) 0x42FF3333 0 = some (127, 1) := by decide +kernel
theorem test_fsqrt : f3 (.fsqrtF32 0 3 1) 0x40800000 0 = some (0x40000000, 0) := by decide +kernel
-- R173: ICMP LT is signed, LTU unsigned; a write of %p0 is dropped.
theorem test_icmp : after (.icmpReg 0 1 2 2 0 1) (mach (crewOf [(1, 0xFFFFFFFF), (2, 1)]) [0]) (fun t => (lane0 t).pred 1) = some true ∧
    after (.icmpReg 0 1 2 4 0 1) (mach (crewOf [(1, 0xFFFFFFFF), (2, 1)]) [0]) (fun t => (lane0 t).pred 1) = some false ∧
    after (.icmpReg 0 1 2 4 0 0) (mach (crewOf [(1, 0xFFFFFFFF), (2, 1)]) [0]) (fun t => (lane0 t).pred 0) = some true := by
  decide +kernel
-- R187: BRA adds four times its signed offset; CALL links the next word in %w15 of the new window; RET goes back.
theorem test_bra : after (.bra 0 0x3FFFFF) (mach (crewOf []) [0]) (fun t => (lane0 t).pc) = some 0xFFFFFFFC := by decide +kernel
theorem test_call : after (.call 0 2) (mach (crewOf []) [0]) (fun t => ((lane0 t).pc, (lane0 t).depth, (lane0 t).get ((lane0 t).entry 31))) =
    some (8, 1, 4) := by decide +kernel
-- R195, R359: TRAP 5 enters the handler at the trap vector with code 0x17 and USER 5; RESUME is the next word.
theorem test_trap_entry : after (.trap 0 5) { State.reset.withFetchWord 32 0 with cur := ⟨0, [0]⟩ }
    (fun t => ((lane0 t).pc, (lane0 t).trap, (lane0 t).depth, (lane0 t).trapinfo, (lane0 t).trappc)) =
    some (0x1000, true, 1, 0x0517, 0) := by decide +kernel
-- R132: IMMX's payload is pending for the next word, MOVI then takes it.
theorem test_immx : after (.immx 0x12) (mach (crewOf []) [0]) (fun t => (lane0 t).hints.immx) = some (some 0x12) := by decide +kernel
-- R212: a 2-byte store of %g3 to deck offset 6 joins the FIFO for line 0 with its low bytes at offsets 6 and 7.
theorem test_st16 : after (.st16 0 3 4 1) (mach (crewOf [(4, 0xC0000004), (5, 0x00FFFFFF), (3, 0xAABBCCDD)]) [0])
    (fun t => ((t.crew? 0).map fun c => c.fifo.map (·.bytes)).getD []) = some [[(6, 0xDD), (7, 0xCC)]] := by decide +kernel
-- R76, R75: the first crew counter has index 0 and generation 1.
theorem test_calloc : after (.calloc 0 4 0) (mach (crewOf []) [0]) (fun t => ((t.crew? 0).map fun c =>
    ((c.ctrs.ctr 0).live, (c.ctrs.ctr 0).gen, (c.ctrs.ctr 1).live)).getD (false, 0, true)) = some (true, 1, false) := by decide +kernel
-- R62: CSRR of %LANE; R205: CSRW of %FPFLAGS keeps bits 4 to 0.
theorem test_csrr : after (.csrr 0 3 0x001) (mach (crewOf []) [0]) (fun t => (lane0 t).get 3) = some 0 := by decide +kernel
theorem test_csrw : after (.csrw 0 1 0x021) (mach (crewOf [(1, 0xFF)]) [0]) (fun t => (lane0 t).fpflags) = some 0x1F := by
  decide +kernel
-- R192: EXIT.
theorem test_exit : after (.exit 0) (mach (crewOf []) [0]) (fun t => (lane0 t).st) = some .exited := by decide +kernel
-- R341: a host write goes by bytes.
theorem test_host_write : after (.hostMemWrite 0x1000 [1, 2, 3]) (mach (crewOf []) []) (fun t => (t.mem.byte 0x1001, t.mem.byte 0x1003)) =
    some (2, 0) := by decide +kernel
-- R437: after THERMTRIP# nothing runs.
theorem test_halt : (match step { State.reset with boot := { Boot.reset with thermtrip := true } } with
    | .fault f => f == .thermtripHalt
    | _ => false) = true := by decide +kernel

/-! ## States that meet the hypotheses of the obligations -/

theorem runs_of {s : State} {c : Crew}
    (h : s.crew? s.cur.slot = some c ∧ (∀ l ∈ s.cur.lanes, l < c.threads.length) ∧ s.cur.lanes.Pairwise (· < ·)) : s.Runs c :=
  ⟨h.1, h.2.1, h.2.2⟩

/-- A crew of one thread, alone in slot 0, and its run. -/
def one : Crew := crewOf []
def alone : State := mach one [0]

theorem ready : alone.Runs one ∧ alone.Plain one ∧ alone.activeLanes one 0 = [0] :=
  ⟨runs_of (by decide +kernel), (by decide +kernel : ∀ l ∈ [0], (one.thread l).hints.immx = none), by decide +kernel⟩

/-- The same with its one thread changed. -/
def withThread (t : Thread) : Crew := { probeCrew with threads := [t] }
theorem readyWith (t : Thread) (h : t.hints.immx = none) :
    (mach (withThread t) [0]).Runs (withThread t) ∧ (mach (withThread t) [0]).Plain (withThread t) :=
  ⟨⟨rfl, by simp [mach, withThread], by simp [mach]⟩, by simpa [State.Plain, mach, withThread, Crew.thread] using h⟩

theorem ok_of {ε α : Type} {r : Except ε α} {p : α} (h : r.toOption = some p) : r = .ok p := by
  cases r <;> simp_all [Except.toOption]

theorem witness_IntegerWords : alone.Runs one ∧ alone.Plain one := ⟨ready.1, ready.2.1⟩
theorem witness_ShiftMultiplyAndFieldWords : alone.Runs one ∧ alone.Plain one := ⟨ready.1, ready.2.1⟩
theorem witness_DivideAndImmediateWords : (alone.Runs one ∧ alone.Plain one ∧ alone.Plain16 one) ∧ 48 ≤ (48 : Reg).toNat ∧
    (46 : Reg).toNat < 48 ∧ (46 : Reg).toNat % 2 = 0 :=
  ⟨⟨ready.1, ready.2.1, fun l hl p hp => by simp [ready.2.1 l hl] at hp⟩, by decide⟩
theorem witness_CompareAndCrewWords : alone.Runs one ∧ alone.Plain one := ⟨ready.1, ready.2.1⟩
theorem witness_FloatArithmetic : alone.Runs one ∧ alone.Plain one ∧
    ∀ l ∈ alone.cur.lanes, ∀ p, (one.thread l).hints.modx = some p → p.getLsbD 9 = true →
      (p.extractLsb' 3 6).toNat < 48 → (p.extractLsb' 3 6).toNat % 2 = 0 :=
  ⟨ready.1, ready.2.1, fun l hl p hp => by
    simp [alone, mach] at hl; subst hl; simp [one, crewOf, probeThread, newThread, Crew.thread, Thread.gone] at hp⟩
theorem witness_FloatSpecialAndCompareWords : alone.Runs one ∧ alone.Plain one ∧ (0 : BitVec 2) = 0 ∧
    ((2 : BitVec 2) = 1 ∨ (2 : BitVec 2) = 2) := ⟨ready.1, ready.2.1, by decide⟩
theorem witness_FloatRoundingAndInvalid :
    ((fmt32.val 0x7FC00000).isNan = true ∨ (fmt32.val 0).isNan = true) ∧
    fmt32.val 0x7F800000 = .inf false ∧ fmt32.val 0xFF800000 = .inf true ∧ fmt32.val 0 = .fin false 0 (-149) ∧
    fmt32.val 1 = .fin false 1 (-149) ∧ fmt32.val 0x80000001 = .fin true (0 + 1) (-149) := by decide +kernel

-- The boundaries of R187 and R189: a window that is full but for the frame a CALL needs, and depth 1,020.
theorem witness_BranchWords :
    (∀ l ∈ alone.activeLanes one 0, (one.thread l).trap = false ∧ (one.thread l).depth + 2 ≤ 5 + (one.thread l).lo ∧ (one.thread l).depth ≤ 1020) ∧
    (let c := withThread { probeThread with depth := 1020, lo := 1017 }
     ((mach c [0]).Runs c ∧ (mach c [0]).Plain c) ∧
     ∀ l ∈ (mach c [0]).activeLanes c 0, (c.thread l).trap = false ∧ (c.thread l).depth + 2 ≤ 5 + (c.thread l).lo ∧ (c.thread l).depth ≤ 1020) ∧
    (let c := withThread { probeThread with depth := 1 }
     ((mach c [0]).Runs c ∧ (mach c [0]).Plain c) ∧
     ∀ l ∈ (mach c [0]).activeLanes c 0, (c.thread l).trap = false ∧ (c.thread l).lo < (c.thread l).depth ∧
        ((c.thread l).get ((c.thread l).entry 31)).toNat % 4 = 0) ∧
    (alone.core (coreOf alone.cur.slot)).ldet = false :=
  ⟨by decide +kernel, ⟨readyWith _ rfl, by decide +kernel⟩, ⟨readyWith _ rfl, by decide +kernel⟩, by decide +kernel⟩

/-- The probe of State.withFetchWord with its run. -/
def placed (w : Nat) : State := { State.reset.withFetchWord 32 w with cur := ⟨0, [0]⟩ }
theorem placed_ready (w : Nat) : (placed w).Runs probeCrew ∧ (placed w).Plain probeCrew :=
  ⟨⟨rfl, by simp [placed, probeCrew], by simp [placed]⟩, by simp [State.Plain, placed, probeCrew, Crew.thread, probeThread, newThread, Thread.gone]⟩
theorem placed_active : (placed 0).activeLanes probeCrew 0 = [0] := by decide +kernel

/-- The probe crew with %g2:3 the code base. -/
def brancher : Crew := { probeCrew with threads := [{ probeThread with regs := [(2, 0x40000000)] }] }
/-- Its package, a TGT hint of both LAND bits at the code base. -/
def landing : State := { placed ((encodeNat (.tgt 3)).getD 0) with crews := [(0, brancher)] }
theorem witness_IndirectBranchWords : landing.Runs brancher ∧ landing.Plain brancher ∧ landing.activeLanes brancher 0 = [0] ∧
    ((landing.landing 0 brancher (brancher.read64 (brancher.thread 0) 2) 0).1 matches .ok 0) = true ∧
    ((landing.landing 0 brancher (brancher.read64 (brancher.thread 0) 2) 1).1 matches .ok 0) = true ∧
    (brancher.thread 0).trap = false ∧ (brancher.thread 0).depth + 2 ≤ 5 + (brancher.thread 0).lo ∧ (brancher.thread 0).depth ≤ 1020 :=
  ⟨runs_of (by decide +kernel), (by decide +kernel : ∀ l ∈ [0], (brancher.thread l).hints.immx = none), by decide +kernel,
   by decide +kernel, by decide +kernel, by decide +kernel⟩

theorem witness_TrapAndHintWords : alone.Runs one ∧ alone.Plain one ∧ (∀ l ∈ alone.cur.lanes, (one.thread l).hints = {}) ∧
    (4 : BitVec 3).toNat < 5 ∧ (2 : BitVec 2) ≠ 3 ∧ (1 : BitVec 2) ≠ 0 := ⟨ready.1, ready.2.1, by decide +kernel⟩

theorem witness_TrapEntry :
    let s := placed 0
    let th := probeCrew.thread 0
    let f : Trap := { code := 0x17, user := 5 }
    s.crew? 0 = some probeCrew ∧ 0 < probeCrew.threads.length ∧ th.trap = false ∧ s.replayable probeCrew.ctx false f = false ∧
    (f.code = 0x16 → (s.context probeCrew.ctx).debugger = false) ∧ th.spillb.toNat % 64 = 0 ∧
    (∃ p, (s.check 0 probeCrew (th.spillb - 64) 64 .write).1 = .ok p) ∧ probeCrew.trapv = some 0x1000 :=
  ⟨rfl, by decide +kernel, by decide +kernel, by decide +kernel, by decide +kernel, by decide +kernel,
   ⟨⟨.global, 0x50000000, false⟩, by rfl⟩, rfl⟩

/-- The probe crew with its lane 0 in its handler. -/
def inHandler : Crew := { probeCrew with threads := [{ probeThread with trap := true, depth := 3, lo := 1 }] }
def handling : State := { placed 0 with crews := [(0, inHandler)] }
theorem witness_DoubleAndReplayableFaults :
    (handling.crew? 0 = some inHandler ∧ 0 < inHandler.threads.length ∧ (inHandler.thread 0).trap = true ∧
      handling.replayable inHandler.ctx true { code := 0x17 } = false ∧ (handling.context inHandler.ctx).debugger = false) ∧
    (let s := (placed 0).setContext 0 { Context.reset with replay := true }
     let f : Trap := { code := 0x05, walk := some ⟨3, 1⟩ }
     s.crew? 0 = some probeCrew ∧ 0 < probeCrew.threads.length ∧ (probeCrew.thread 0).trap = false ∧ f.walk = some ⟨3, 1⟩ ∧
     (⟨3, 1⟩ : WalkFault).cause < 2 ∧ (s.context probeCrew.ctx).replay = true) :=
  ⟨⟨by decide +kernel, by decide +kernel, by decide +kernel, by decide +kernel, by decide +kernel⟩,
   ⟨rfl, by decide +kernel, by decide +kernel, rfl, by decide +kernel, by decide +kernel⟩⟩

theorem handling_ready : handling.Runs inHandler ∧ handling.Plain inHandler ∧ handling.activeLanes inHandler 0 = [0] :=
  ⟨runs_of (by decide +kernel), (by decide +kernel : ∀ l ∈ [0], (inHandler.thread l).hints.immx = none), by decide +kernel⟩
theorem witness_ReturnLaunchServiceAndFrameWords :
    (handling.Runs inHandler ∧ handling.Plain inHandler ∧ handling.activeLanes inHandler 0 = [0]) ∧
    (∀ l ∈ handling.activeLanes inHandler 0, (inHandler.thread l).trap = true) ∧ inHandler.crew = 0 ∧ inHandler.depth ≠ 10 ∧
    (inHandler.read64 (inHandler.thread 0) 0).toNat % 64 = 0 ∧ (inHandler.read64 (inHandler.thread 0) 0).toNat < windowBase ∧
    (let c1 := inHandler.next ([0].filter fun k => !([0].contains k))
     (inHandler.thread 0).lo < (inHandler.thread 0).depth ∧ (inHandler.thread 0).spillb.toNat % 64 = 0 ∧
      ∃ p, ((handling.setCrew 0 c1).check 0 c1 ((inHandler.thread 0).spillb + BitVec.ofNat 64 (64 * (inHandler.thread 0).lo)) 64 .write).1 = .ok p) ∧
    (∀ k ∈ [0], (inHandler.thread k).trap = true ∧ (inHandler.thread k).lo ≠ 0 ∧ (inHandler.thread k).depth + 2 ≤ 5 + (inHandler.thread k).lo ∧
      (inHandler.thread k).spillb.toNat % 64 = 0) :=
  ⟨handling_ready, by decide +kernel, by decide +kernel, by decide +kernel, by decide +kernel, by decide +kernel,
   ⟨by decide +kernel, by decide +kernel, ⟨.global, 0x50000080, false⟩, by rfl⟩, by decide +kernel⟩

/-- The lone crew in a privileged context. -/
def privileged : State := alone.setContext 0 { Context.reset with priv := true }
theorem witness_SpecialRegisters : (alone.Runs one ∧ alone.Plain one ∧ alone.activeLanes one 0 = [0] ∧ (alone.context one.ctx).priv = false) ∧
    (privileged.Runs one ∧ privileged.Plain one ∧ privileged.activeLanes one 0 = [0] ∧ (privileged.context one.ctx).priv = true) ∧
    0x200 ≤ (0x200 : BitVec 10).toNat :=
  ⟨⟨ready.1, ready.2.1, ready.2.2, by decide +kernel⟩, ⟨⟨rfl, ready.1.2, ready.1.3⟩, ready.2.1, by decide +kernel, by decide +kernel⟩, by decide⟩

/-- A crew with %g2:3 an address of its own deck, 16 bytes below the deck's end. -/
def decker : Crew := crewOf [(2, 0xC007FFF0), (3, 0x00FFFFFF)]
def decking : State := mach decker [0]
theorem decking_ready : decking.Runs decker ∧ decking.Plain decker ∧ decking.activeLanes decker 0 = [0] :=
  ⟨runs_of (by decide +kernel), (by decide +kernel : ∀ l ∈ [0], (decker.thread l).hints.immx = none), by decide +kernel⟩
theorem witness_LoadAndStoreWords : (decking.Runs decker ∧ decking.Plain decker ∧ decking.activeLanes decker 0 = [0]) ∧
    (∀ n ∈ [1, 2, 4, 8, 16], (decking.check 0 decker (decker.read64 (decker.thread 0) 2 + (decker.thread 0).offM 0 n) n .read).1 =
      .ok ⟨.deck 0, 0x7FFF0, false⟩ ∧
      (decking.check 0 decker (decker.read64 (decker.thread 0) 2 + (decker.thread 0).offM 0 n) n .write).1 = .ok ⟨.deck 0, 0x7FFF0, false⟩ ∧
      decker.watched (decker.read64 (decker.thread 0) 2 + (decker.thread 0).offM 0 n) n false true = false) :=
  ⟨decking_ready, by
    intro n hn
    simp only [List.mem_cons, List.not_mem_nil, or_false] at hn
    rcases hn with rfl | rfl | rfl | rfl | rfl <;> exact ⟨ok_of (by decide +kernel), ok_of (by decide +kernel), by decide +kernel⟩⟩

/-- The probe crew with %g2:3 an address of mapped memory and %g4 a deck offset. -/
def atomist : Crew := { probeCrew with threads := [{ probeThread with regs := [(2, 0x40001000)] }] }
def atomic : State := { placed 0 with crews := [(0, atomist)] }
theorem atomic_ready : atomic.Runs atomist ∧ atomic.Plain atomist ∧ atomic.activeLanes atomist 0 = [0] :=
  ⟨runs_of (by decide +kernel), (by decide +kernel : ∀ l ∈ [0], (atomist.thread l).hints.immx = none), by decide +kernel⟩
theorem witness_AtomicWords : (atomic.Runs atomist ∧ atomic.Plain atomist ∧ atomic.activeLanes atomist 0 = [0]) ∧
    (∀ n ∈ [4, 8], ∀ k ∈ [0, 9, 10], ∃ u, (atomic.checkAtom 0 atomist 0 (atomist.read64 (atomist.thread 0) 2) n k).1 = .ok u ∧ u.lane = 0 ∧
      atomist.watched u.va n true true = false) ∧
    (∀ n ∈ [4, 8], ∃ u, (atomic.checkDeck 0 atomist 0 (atomist.read32 (atomist.thread 0) 4) n).1 = .ok u ∧ u.lane = 0 ∧
      atomist.watched u.va n true true = false) ∧
    (∃ u, (atomic.checkGlobal 0 atomist 0 (atomist.read64 (atomist.thread 0) 2 &&& ~~~(0x7F : DWord)) 4 .atomic).1 = .ok u ∧ u.lane = 0 ∧
      atomist.watched u.va 4 true true = false ∧ u.place.addr < hostBase) ∧ (47 : Reg).toNat < 48 :=
  ⟨atomic_ready, by
    intro n hn k hk
    simp only [List.mem_cons, List.not_mem_nil, or_false] at hn hk
    rcases hn with rfl | rfl <;> rcases hk with rfl | rfl | rfl <;> exact ⟨_, rfl, rfl, by decide +kernel⟩, by
    intro n hn
    simp only [List.mem_cons, List.not_mem_nil, or_false] at hn
    rcases hn with rfl | rfl <;> exact ⟨_, rfl, rfl, by decide +kernel⟩, ⟨_, rfl, rfl, by decide +kernel, by decide +kernel⟩, by decide⟩
theorem witness_CacheFenceAndMailboxWords : (atomic.Runs atomist ∧ atomic.Plain atomist ∧ atomic.activeLanes atomist 0 = [0]) ∧
    (let a := atomist.read64 (atomist.thread 0) 2
     (∃ u, (atomic.checkMcast 0 atomist 0 a (atomist.read64 (atomist.thread 0) 6)).1 = .ok u) ∧ a.toNat < windowBase ∧
     ∃ p, (atomic.check 0 atomist a 1 .read).1 = .ok p) ∧
    (atomist.read64 (atomist.thread 0) 6).toNat < 1024 * atomist.nTeam ∧ (atomist.read64 (atomist.thread 0) 6).toNat % 1024 < 64 * atomist.nCrew ∧
    (4 : BitVec 3).toNat < 5 ∧ (atomic.core 0).unanswered.length < 32 ∧ (atomic.slice (atomic.homeSlice 0x40001000)).ingress.length < 32 ∧
    (let c := { atomist with pcieWrites := true }
     (mach c [0]).Runs c ∧ (mach c [0]).Plain c ∧ (mach c [0]).activeLanes c 0 = [0] ∧ c.pcieWrites = true) :=
  ⟨atomic_ready, ⟨⟨_, rfl⟩, by decide +kernel, ⟨⟨.global, 0x40001000, false⟩, ok_of (by decide +kernel)⟩⟩, by decide +kernel,
   by decide +kernel, by decide, by decide +kernel, by decide +kernel, runs_of (by decide +kernel), (by decide +kernel : ∀ l ∈ [0], (atomist.thread l).hints.immx = none),
   by decide +kernel, rfl⟩

-- R208's ranges at their ends: 2^56, a misaligned byte, an unmapped and a mapped page, the deck's last bytes and one past them.
theorem witness_AccessChecks :
    2 ^ 56 ≤ (0x0100000000000000 : DWord).toNat ∧ (0x00FFFFFFFFFFFFFF : DWord).toNat < 2 ^ 56 ∧ (0x00FFFFFFFFFFFFFF : DWord).toNat % 2 ≠ 0 ∧
    (0x00FFFFFFBFFFFFF8 : DWord).toNat < windowBase ∧ (0x00FFFFFFBFFFFFF8 : DWord).toNat % 8 = 0 ∧
    ((placed 0).translate 0 0 0x00FFFFFFBFFFFFF8 .read).1.toOption = none ∧
    ((placed 0).translate 0 0 0x40000000 .read).1.toOption = some (0x40000000, false) ∧
    windowBase ≤ (0x00FFFFFFC007FFF8 : DWord).toNat ∧ (0x00FFFFFFC007FFF8 : DWord).toNat < windowBase + 0x80000 ∧
    (0x00FFFFFFC007FFF8 : DWord).toNat - windowBase + 8 ≤ probeCrew.deckSize := by decide +kernel

-- R374, R375, R377: a 64 KiB page by entry 3 of its group of 16, which holds PA[15:12] = 3; a walk reads one entry at each level.
theorem test_walk_c64 :
    let m : Memory := (((Memory.write [] 0 (bytesOf 8 0x100001)).write 0x100000 (bytesOf 8 0x101001)).write 0x101000
      (bytesOf 8 0x102001)).write 0x102098 (bytesOf 8 0x6311F)
    (walkFrom m [] 0x13008 1 3 0).toOption = some ⟨0x10000, 0x10000, 0x60000, 7, false⟩ ∧
    walkLines m [] 0x13008 3 0 = [0, 0x100000, 0x101000, 0x102080] := by decide +kernel

/-- A home with some counters and waiters. -/
def homeOf (ctrs : List (Nat × Counter)) (w : List Waiter) : CtrHome := { CtrHome.reset with ctrs := ctrs, waiters := w }

/-- A crew with one live counter of its own, whose handle is in %g2:3, and a threshold of 5 in %g4:5. -/
def counter : Crew := { crewOf [(3, 0), (2, 1), (4, 5), (8, 5)] with ctrs := homeOf [(0, ⟨5, true, 1, 0, 0⟩)] [] }
def counting : State := mach counter [0]
theorem counting_ready : counting.Runs counter ∧ counting.Plain counter ∧ counting.activeLanes counter 0 = [0] :=
  ⟨runs_of (by decide +kernel), (by decide +kernel : ∀ l ∈ [0], (counter.thread l).hints.immx = none), by decide +kernel⟩
theorem witness_CrewCounterWords : (counting.Runs counter ∧ counting.Plain counter ∧ counting.activeLanes counter 0 = [0]) ∧
    counter.efault = none ∧
    ((∀ j < 1, (counter.ctrs.ctr j).live = true) ∧ (counter.ctrs.ctr 1).live = false ∧ Cells.canonical Counter.reset counter.ctrs.ctrs = true) ∧
    (let t0 := counter.thread 0
     let h := counter.read64 t0 2
     let k := counter.ctrs.ctr (handleIndex h)
     handleScope h = 0 ∧ handleHome h = 0 ∧ handleIndex h < 16 ∧ k.live = true ∧ k.gen = handleGen h ∧
     (∀ w ∈ counter.ctrs.waiters, w.index ≠ handleIndex h) ∧ k.value + (counter.read32 t0 4).toNat < 2 ^ 64 ∧
     (counter.read64 t0 4).toNat ≤ k.value ∧ (counter.read64 t0 8).toNat ≤ k.value) ∧
    counter.issued.getD 0 0 ≤ (0 : BitVec 7).toNat ∧
    (let c := { counter with issued := [1, 0, 0] }
     (0 : BitVec 7).toNat < c.issued.getD 0 0 ∧ c.done.getD 0 0 < c.issued.getD 0 0 - (0 : BitVec 7).toNat ∧
     (mach c [0]).Runs c ∧ (mach c [0]).Plain c ∧ (mach c [0]).activeLanes c 0 = [0]) :=
  ⟨counting_ready, rfl, by decide +kernel, by decide +kernel, by decide +kernel,
   ⟨by decide +kernel, by decide +kernel, runs_of (by decide +kernel), (by decide +kernel : ∀ l ∈ [0], (counter.thread l).hints.immx = none),
    by decide +kernel⟩⟩

/-- A crew with the handle of core counter 255, generation 1, in %g2:3. -/
def asker : Crew := crewOf [(2, 0xFF000001), (3, 0x20000000)]
def asking : State := mach asker [0]
theorem asking_ready : asking.Runs asker ∧ asking.Plain asker ∧ asking.activeLanes asker 0 = [0] :=
  ⟨runs_of (by decide +kernel), (by decide +kernel : ∀ l ∈ [0], (asker.thread l).hints.immx = none), by decide +kernel⟩
/-- The handling crew's outer state with a pending engine fault. -/
def faulted : Crew := { probeCrew with efault := some ⟨0x0C, 1, 0⟩ }
theorem witness_CounterRequestWords :
    ((asking.Runs asker ∧ asking.Plain asker ∧ asking.activeLanes asker 0 = [0]) ∧ asker.efault = none ∧ (1 : BitVec 3) ≠ 0 ∧
      handleScope (asker.read64 (asker.thread 0) 2) ≠ 0 ∧ asking.reach 0 asker (asker.read64 (asker.thread 0) 2) = some (.core 0) ∧
      asker.sharedWait (asker.read64 (asker.thread 0) 2) (asker.read64 (asker.thread 0) 4) asking.nextId = none ∧
      (asking.setCluster 0 { Cluster.reset with owner := some 0 }).cluster (clusterOf 0) = { Cluster.reset with owner := some asker.ctx }) ∧
    (let s := { placed 0 with crews := [(0, faulted)] }
     (s.Runs faulted ∧ s.Plain faulted ∧ s.activeLanes faulted 0 = [0]) ∧ faulted.efault = some ⟨0x0C, 1, 0⟩ ∧
     (s.context faulted.ctx).debugger = false ∧ (faulted.thread 0).trap = false ∧ faulted.trapv = some 0x1000 ∧
     (faulted.thread 0).spillb.toNat % 64 = 0 ∧
     (let c1 := faulted.next ([0].filter fun k => !([0].contains k))
      ∃ p, ((s.setCrew 0 c1).check 0 c1 ((faulted.thread 0).spillb - 64) 64 .write).1 = .ok p)) :=
  ⟨⟨asking_ready, rfl, by decide, by decide +kernel, by decide +kernel, by decide +kernel, by decide +kernel⟩,
   ⟨runs_of (by decide +kernel), (by decide +kernel : ∀ l ∈ [0], (faulted.thread l).hints.immx = none), by decide +kernel⟩, rfl,
   by decide +kernel, by decide +kernel, rfl, by decide +kernel, ⟨⟨.global, 0x50000000, false⟩, ok_of (by decide +kernel)⟩⟩

-- R230's offsets at the ends of their ranges: past the window, misaligned, past the team's deck, its last block.
theorem witness_PostingAndRecordWords : (alone.Runs one ∧ alone.Plain one ∧ alone.activeLanes one 0 = [0]) ∧
    (2 ^ 19 ≤ (0x80000 : Word).toNat ∧ ((0x7FFFF : Word).toNat < 2 ^ 19 ∧ (0x7FFFF : Word).toNat % 64 ≠ 0) ∧
      ({ one with deckSize := 0x7FF80 } : Crew).deckSize < (0x7FFC0 : Word).toNat + 64 ∧
      (0x7FFC0 : Word).toNat % 64 = 0 ∧ (0x7FFC0 : Word).toNat + 64 ≤ one.deckSize) ∧
    ((alone.setCore 0 { Core.reset with records := [(31, ⟨0, 128, 0, 0, 0, 0, 0, 0⟩)] }).core 0).record? (31 : BitVec 5).toNat ≠ none ∧
    (let c := crewOf [(1, 524287)]
     (c.read32 (c.thread 0) 1).toNat < 524288 ∧ ((mach c [0]).core 0).accBad 524287 = false ∧ (mach c [0]).Runs c) :=
  ⟨ready, by decide +kernel, by decide +kernel, by decide +kernel, by decide +kernel, runs_of (by decide +kernel)⟩

/-- A whole crew whose streams 0 to 3 hold streams of generators 0, 1, 1 and 2. -/
def streamer : Crew := { probeCrew with
  threads := List.replicate 64 probeThread, scopy := [(1, false), (2, false), (2, false), (4, false), (0, true), (0, true), (0, true), (0, true)]
  nStreams := 7 }
def streaming : State := mach streamer (List.range 64)
theorem witness_StreamWordsAndOperations :
    (streaming.Runs streamer ∧ streaming.Plain streamer ∧ streaming.cur.lanes ≠ [] ∧ streamer.threads.length = 64) ∧
    (let tag := fun (r : BitVec 3) => (streamer.sview r.toNat).1
     let holds := fun (r : BitVec 3) => r.toNat < streamer.nStreams ∧ (streamer.sview r.toNat).2 = false
     (6 : BitVec 3).toNat < streamer.nStreams ∧ holds 0 ∧ holds 1 ∧ tag 0 &&& tag 1 = 0 ∧ holds 2 ∧ tag 1 = tag 2 ∧
     tag 1 = (1 : BitVec 16) <<< (1 : Nat) ∧ holds 3 ∧ tag 3 &&& tag 0 = 0 ∧ tag 3 &&& tag 1 = 0 ∧
     streamer.nStreams ≤ (7 : BitVec 3).toNat ∧ (streamer.sview (4 : BitVec 3).toNat).2 = true ∧ tag 1 &&& tag 2 ≠ 0 ∧ tag 0 ≠ tag 1) ∧
    (let c := { probeCrew with threads := [probeThread] }
     let s := (mach c []).setCore 0 { Core.reset with streamq := [⟨0, .scnt 0 1, [0], [], [], [(0, 3)]⟩] }
     s.crew? 0 = some c ∧ (7 : BitVec 3).toNat < c.streams.length ∧
     (s.core 0).streamq = [⟨0, .scnt 0 1, [0], [], [], [(0, 3)]⟩] ∧ ([(0, 3)] : List (Nat × Nat)).Pairwise (fun x y => x.1 ≠ y.1) ∧
     ∀ e ∈ [((0 : Nat), (3 : Nat))], e.1 < c.threads.length ∧ e.2 ≠ 0) :=
  ⟨⟨runs_of (by decide +kernel), (by decide +kernel : ∀ l ∈ List.range 64, (streamer.thread l).hints.immx = none), by decide +kernel,
     by decide +kernel⟩, by decide +kernel, by decide +kernel⟩

theorem witness_PrivilegedWords :
    (privileged.Runs one ∧ privileged.Plain one ∧ privileged.activeLanes one 0 = [0] ∧ (privileged.context one.ctx).priv = true ∧
      (one.read64 (one.thread 0) 2).toNat % 64 = 0) ∧
    (alone.Runs one ∧ alone.Plain one ∧ alone.activeLanes one 0 = [0] ∧ (alone.context one.ctx).priv = false) :=
  ⟨⟨⟨rfl, ready.1.2, ready.1.3⟩, ready.2.1, by decide +kernel, by decide +kernel, by decide +kernel⟩,
   ready.1, ready.2.1, ready.2.2, by decide +kernel⟩

/-- A subcore whose first count has reached 1,024 and whose crew has used its issue budget. -/
def stalled (ldet : Bool) : State :=
  ({ mach one [] with cycle := 1024 } : State).setCore 0 { Core.reset with
    ldet := ldet, subcores := [(0, ⟨some 0, 65536, [⟨0, 0, 0, 0, 0, 1024⟩], none, 7, none⟩)] }
theorem witness_FetchAndProgress :
    (let s := placed 0
     s.crew? 0 = some probeCrew ∧ (s.sub (0 / 8)).forced = none ∧ 0 < probeCrew.threads.length ∧ (probeCrew.thread 0).st = .runnable ∧
     (probeCrew.thread 0).outside = false ∧
     (∀ k, k < probeCrew.threads.length → (probeCrew.thread k).st = .runnable ∧ (probeCrew.thread k).outside = false →
       (probeCrew.thread 0).pc.toNat ≤ (probeCrew.thread k).pc.toNat) ∧
     (probeCrew.cb.toNat + (probeCrew.thread 0).pc.toNat) % 2 ^ 64 % 4 = 0 ∧ (s.codePlace 0 probeCrew 0x40000000).1 = .ok 0x40000000 ∧
     Cells.find (s.core (coreOf 0)).icache (lineOf 0x40000000) = none) ∧
    (let c := { probeCrew with cb := BitVec.ofNat 64 (probeBase + 2) }
     (c.cb.toNat + (c.thread 0).pc.toNat) % 2 ^ 64 % 4 ≠ 0) ∧
    (∀ b, (stalled b).crew? 0 = some one ∧ ((stalled b).core (0 / 4)).ldet = b ∧ ((stalled b).sub 0).stalls = [⟨0, 0, 0, 0, 0, 1024⟩] ∧
      1024 ≤ (stalled b).cycle - 0 ∧ 65536 ≤ ((stalled b).sub 0).budget ∧ ((stalled b).sub 0).current = some 0 ∧
      ((stalled b).sub 0).forced = none) ∧
    (stalled true).ticks < (stalled true).cycle / 256 :=
  ⟨⟨rfl, by decide +kernel, by decide +kernel, by decide +kernel, by decide +kernel, by decide +kernel, by decide +kernel,
    ok_of (by decide +kernel), by decide +kernel⟩, by decide +kernel, by decide +kernel, by decide +kernel⟩

/-- Entries of a store to line 0 of LPDDR-5X, of the deck of core 0, and a mailbox write to thread 0. -/
def entryOf (id : Nat) (op : EntryOp) (sp : Space) (sent : Bool) : Entry where
  id := id
  op := op
  space := sp
  line := 0
  bytes := [(0, 1)]
  items := [⟨0, 0, 0, 7, 0, .discard, {}⟩]
  lane := 0
  size := 4
  cxl := false
  policy := 0
  series := 0
  seq := 0
  sent := sent
  pc := 0
  cycle := 0
  after := []
def storing (l : List Entry) : State := mach { one with fifo := l } []
/-- The first of four bytes that a lane loads from line 0. -/
def laneLoad (dest : Dest) : LaneLoad := ⟨0, 0, 0, 4, [none, none, none, none], dest, [(0, {})], false⟩
/-- A load of line 0 with those lanes. -/
def loadOf (lanes : List LaneLoad) (cycle : Nat) : Load := ⟨2, .global, 0, lanes, false, 0, 0, cycle⟩
/-- A store's request to a slice. -/
def request (gen : Nat) : Req := ⟨5, 0, 0, .entry 0 1, 0, 0, false, gen, 1⟩

-- R298's turn at its ends: slot 7 sent last, so slot 0 is next, and slot 1 is passed over while slot 0 can send.
theorem witness_StoreSending :
    (∀ sp ∈ [Space.global, .deck 0, .obuf 0], let c := { one with fifo := [entryOf 1 .store sp false] }
      let s := storing c.fifo
      s.crew? 0 = some c ∧ c.fifo = [] ++ entryOf 1 .store sp false :: [] ∧
      (∀ d ∈ s.coreCrews 0, (∀ x ∈ d.2.fifo, x.sent = true → (sp, 0) ∉ s.entryLines d.1 d.2 x) ∧ d.2.loads = []) ∧
      (∀ k, k < 8 → (k + 15 - (s.sub 0).lastSent % 8) % 8 < (0 + 15 - (s.sub 0).lastSent % 8) % 8 → s.nextEntry k = none) ∧
      ((s.coreCrews 0).map fun d => d.2.loads.length + (d.2.fifo.filter fun x => x.sent).length).sum < 2048 ∧
      (s.sub 0).sentAt ≠ some s.cycle ∧ (s.core 0).unanswered.length < 32 ∧ (s.slice (s.homeSlice 0)).ingress.length < 32) ∧
    (let s := storing [entryOf 1 .store .global true, entryOf 2 .store .global false]
     ∃ d ∈ s.coreCrews 0, ∃ x ∈ d.2.fifo, x.sent = true ∧ (Space.global, 0) ∈ s.entryLines d.1 d.2 x) ∧
    (let c := { one with fifo := [entryOf 1 .store .global false] }
     let s := { mach c [] with crews := [(0, c), (1, c)] }
     (0 + 15 - (s.sub (1 / 8)).lastSent % 8) % 8 < (1 + 15 - (s.sub (1 / 8)).lastSent % 8) % 8 ∧ (s.nextEntry 0).isSome = true) ∧
    (let s := (storing [entryOf 1 .store .global false]).setCore 0 { Core.reset with
       unanswered := List.replicate 32 (request 0), subcores := [(0, { Subcore.reset with sentAt := some 0 })] }
     (s.sub 0).sentAt = some s.cycle ∧ ¬(s.core 0).unanswered.length < 32 ∧
     ¬((s.setSlice 3 { Slice.reset with ingress := List.replicate 32 (request 0) }).slice 3).ingress.length < 32) := by
  refine ⟨?_, by decide +kernel, by decide +kernel, by decide +kernel⟩
  intro sp hs
  simp only [List.mem_cons, List.not_mem_nil, or_false] at hs
  rcases hs with rfl | rfl | rfl <;> decide +kernel

theorem witness_StoresAndResponses :
    (let s := alone.setCore 0 { Core.reset with sendq := [request 0], unanswered := [{ request 0 with id := 4 }] }
     (s.core 0).sendq = request 0 :: [] ∧ (s.core 0).unanswered.any (fun q => q.id == 4) = true ∧ (request 0).core = 0 ∧
     (s.slice (s.firstSlice (request 0))).ingress.length < 32 ∧ ((s.core 0).unanswered.filter fun q => !(q.id == 4)).length < 32) ∧
    (∀ after ∈ [[], List.replicate 128 (0 : Byte)], let x := { entryOf 1 .store .global true with after := after }
     let c := { one with fifo := [x] }
     let s := { (mach c []).setCore 0 { Core.reset with l1 := [(0, ⟨[], 4, 9⟩)] } with msgs := [(9, .ack 0 1 5)] }
     s.crew? 0 = some c ∧ Cells.find s.msgs 9 = some (.ack 0 1 5) ∧ c.entry? 1 = some x ∧
     (∀ m ∈ s.msgs, (m.2 matches .atomic _ _ _ _) = false) ∧ Cells.find (s.core (coreOf 0)).l1 x.line = some ⟨[], 4, 9⟩ ∧
     x.space = .global ∧ (5 : Nat) ≠ 0) ∧
    (∀ dest ∈ [Dest.regs [3] true, .step 6], let x := laneLoad dest
     let c := { one with loads := [loadOf [x] 0] }
     ∀ r ∈ [LoadResult.bytes [1, 2, 3, 4], .partly [1, 2, 3, 4] [1], .partly [1, 2, 3, 4] [0], .poison, .linkdown, .hostatom, .remaplost],
       let s := { mach c [] with msgs := [(9, .load 0 2 r)] }
       s.crew? 0 = some c ∧ Cells.find s.msgs 9 = some (.load 0 2 r) ∧ c.loads.find? (fun y => y.id == 2) = some (loadOf [x] 0) ∧
       (loadOf [x] 0).lanes = [x] ∧ 0 < c.threads.length ∧ x.watch = false ∧ x.fwd.length = x.size ∧ x.fwd[0]? = some none ∧ x.lane ∉ [1]) ∧
    (∀ st ∈ [ThreadState.runnable, .exited],
     let c := { withThread { probeThread with st := st } with fifo := [entryOf 1 (.rput 7) .mailbox true] }
     let s := { mach c [] with msgs := [(9, .mailbox 0 1)] }
     s.crew? 0 = some c ∧ c.entry? 1 = some (entryOf 1 (.rput 7) .mailbox true) ∧
     (entryOf 1 (.rput 7) .mailbox true).items = [⟨0, 0, 0, 7, 0, .discard, {}⟩] ∧ s.threadOf c.grid 0 = some (0, 0) ∧ (c.thread 0).st = st) := by
  refine ⟨by decide +kernel, ?_, ?_, ?_⟩
  · intro after ha
    simp only [List.mem_cons, List.not_mem_nil, or_false] at ha
    rcases ha with rfl | rfl <;> decide +kernel
  · intro dest hd x c r hr
    simp only [List.mem_cons, List.not_mem_nil, or_false] at hd hr
    rcases hd with rfl | rfl <;> rcases hr with rfl | rfl | rfl | rfl | rfl | rfl | rfl <;> decide +kernel
  · intro st hs
    simp only [List.mem_cons, List.not_mem_nil, or_false] at hs
    rcases hs with rfl | rfl <;> decide +kernel

theorem witness_RetryAndRemap :
    (let s := (mach one []).setSlice 3 { Slice.reset with ingress := [request 0] }
     (3, s.slice 3) ∈ s.slices ∧ (∀ e ∈ s.slices, e.1 = 3 → e.2 = s.slice 3) ∧ request 0 ∈ (s.slice 3).ingress ∧
     (∀ e ∈ s.slices, ∀ r ∈ e.2.ingress, r.id = 5 → e.1 = 3 ∧ r = request 0) ∧ (s.slice 3).off = false ∧
     (s.slice 3).ingress = [] ++ request 0 :: [] ∧ 3 ≠ s.homeSlice (request 0).line) ∧
    (∀ b, let s := (mach one []).setCore 0 { Core.reset with retry := [⟨request 0, b, 0⟩], unanswered := [request 0] }
     (s.core 0).retry = [] ++ ⟨request 0, b, 0⟩ :: [] ∧ 0 ≤ s.cycle ∧ (request 0).core = 0 ∧
     (s.slice (s.firstSlice (request 0))).ingress.length < 32) := by decide +kernel

/-- The probe crew waiting outside the PC table for a completion step whose reads have brought something. -/
def stepping (kind : StepKind) (got : List (Nat × StepData)) : Crew := { probeCrew with
  threads := [{ probeThread with outside := true, trap := true, depth := 1, lo := 1 }]
  steps := [⟨4, kind, [0], 0, 0, [], [], got⟩] }
def steppingIn (kind : StepKind) (got : List (Nat × StepData)) : State := { placed 0 with
  crews := [(0, stepping kind got)]
  rm := { Ringmaster.reset with grids := [⟨0, 0, 0, 0, none, 0, 0, 0, 0, [], true, 1, 0, 0, true⟩] } }
-- A record of zeros is well formed; one whose hint count is 32 is not.
theorem witness_StepsAndReads :
    (∀ kind ∈ [StepKind.eret, .fillf, .launch 0x50000000],
     ∀ got ∈ [[((0 : Nat), StepData.bytes (List.replicate 64 0))], [(0, .bytes (List.replicate 24 0 ++ [32] ++ List.replicate 39 0))],
       [(0, .fault { code := 0x12 })]],
     let c := stepping kind got
     let p : Pending := ⟨4, kind, [0], 0, 0, [], [], got⟩
     (steppingIn kind got).crew? 0 = some c ∧ c.steps = [] ++ p :: [] ∧ 0 < c.threads.length ∧ (c.thread 0).outside = true ∧
     (c.thread 0).trap = true ∧ ((steppingIn kind got).context c.ctx).debugger = false ∧
     ((steppingIn kind got).rm.grids.find? (fun x => x.serial == c.grid.toNat)).isSome = true) ∧
    (natOf (((List.replicate 64 (0 : Byte)).drop 24).take 1) < 32 ∧
      32 ≤ natOf (((List.replicate 24 (0 : Byte) ++ [32] ++ List.replicate 39 0).drop 24).take 1)) ∧
    (∀ kind ∈ [StepKind.eret, .fillf], let c := { stepping kind [] with steps := [⟨4, kind, [0], 0, 0, [], [0], []⟩] }
     c.steps.find? (fun q => q.kind == kind) = some ⟨4, kind, [0], 0, 0, [], [0], []⟩ ∧ (⟨4, kind, [0], 0, 0, [], [0], []⟩ : Pending).due ≠ []) := by
  refine ⟨?_, by decide +kernel, ?_⟩
  · intro kind hk got hg
    simp only [List.mem_cons, List.not_mem_nil, or_false] at hk hg
    rcases hk with rfl | rfl | rfl <;> rcases hg with rfl | rfl | rfl <;> decide +kernel
  · intro kind hk
    simp only [List.mem_cons, List.not_mem_nil, or_false] at hk
    rcases hk with rfl | rfl <;> decide +kernel

/-- A copy block: 64 bytes from accumulator offset 0 to 128. -/
def accCopy : List Byte := bytesOf 8 0 ++ bytesOf 8 128 ++ bytesOf 8 0 ++ bytesOf 4 64 ++ bytesOf 2 1 ++ bytesOf 2 1 ++ bytesOf 2 1 ++
  bytesOf 2 0 ++ List.replicate 24 0 ++ bytesOf 4 5
/-- A reservation descriptor of 128 bytes. -/
def oneRecord : List Byte := bytesOf 4 0 ++ bytesOf 4 128 ++ List.replicate 56 0
/-- A control block that names context 1. -/
def control : List Byte := bytesOf 1 1 ++ List.replicate 63 0
/-- A copy command at the head of a channel, its crew's next ticket. -/
def copying (block : List Byte) : CopyCmd := ⟨0, 1, block, 0, 0, [], false, false, 0, 0, 0, false, false, none, none, 0, false⟩
theorem witness_PostingsAndControlBlocks :
    (∀ p ∈ [(PostKind.xcopy, accCopy), (.obres 31, oneRecord), (.mxtab 0 0x50000000, []), (.xcopy, [])], let kind := StepKind.post p.1 none p.2
     let c := stepping kind []
     let c1 := { c with steps := [] }
     let q : Pending := ⟨4, kind, [0], 0, 0, [], [], []⟩
     let s := steppingIn kind []
     s.crew? 0 = some c ∧ c.steps = [] ++ q :: [] ∧ (c.thread 0).outside = true ∧ c.issued.length = 3 ∧
     ((s.setCrew 0 c1).postChecks 0 c1 q p.1 none p.2).1.toOption = (if p = (.xcopy, []) then none else some p.2) ∧
     ((s.core (coreOf 0)).channel 0).length < 8 ∧ (s.core (coreOf 0)).matrixq.length < 16 ∧ (s.die (dieOf (coreOf 0))).collq.length < 64) ∧
    (let kind := StepKind.post .xcopy none accCopy
     8 ≤ ((((steppingIn kind []).setCore 0 { Core.reset with copyq := [(0, List.replicate 8 (copying []))] }).core (coreOf 0)).channel
       (natOf ((accCopy.drop 60).take 4) / 16 % 4)).length) ∧
    (∀ kind ∈ [StepKind.ctxsave 0x50000000, .ctxload 0x50000000], let got := [((0 : Nat), StepData.bytes control)]
     let s := steppingIn kind got
     s.crew? 0 = some (stepping kind got) ∧ (stepping kind got).steps = [] ++ ⟨4, kind, [0], 0, 0, [], [], got⟩ :: [] ∧ control.length = 64 ∧
     (control.getD 0 0).toNat < 16 ∧ (control.getD 0 0).toNat ≠ (stepping kind got).ctx ∧ (∀ i < 64, 0 < i → control.getD i 0 = 0) ∧
     (s.context 1).held = false ∧ ((s.setContext 1 { Context.reset with held := true }).context 1).held = true ∧
     ∀ g ∈ s.rm.grids, g.ctx = 1 → g.unmet = []) ∧
    ((16 : Byte).toNat ≥ 16 ∧ (0 : Byte).toNat = probeCrew.ctx) := by
  refine ⟨?_, by decide +kernel, ?_, by decide +kernel⟩
  · intro p hp
    simp only [List.mem_cons, List.not_mem_nil, or_false] at hp
    rcases hp with rfl | rfl | rfl | rfl <;> decide +kernel
  · intro kind hk
    simp only [List.mem_cons, List.not_mem_nil, or_false] at hk
    rcases hk with rfl | rfl <;> decide +kernel

/-- An operation on core counter 255, generation 1, of a crew in slot 0. -/
def opOf (kind : CtrKind) : CtrOp := ⟨7, kind, 0x20000000FF000001, 5, [0], .discard, [], false, 0, 0, [(0, {})], 0⟩
def operating (kind : CtrKind) (value : Nat) (w : List Waiter) : State :=
  (mach { one with ctrOps := [opOf kind] } []).setCore 0 { Core.reset with ctrs := homeOf [(255, ⟨value, true, 1, 0, 1⟩)] w }
theorem operating_leaves (kind : CtrKind) (value : Nat) (w : List Waiter) :
    (operating kind value w).crew? 0 = some { one with ctrOps := [opOf kind] } ∧ Leaves { one with ctrOps := [opOf kind] } (opOf kind) :=
  ⟨rfl, ⟨rfl, rfl, by simp [opOf], fun _ => ⟨rfl, by intro l hl; simp [one, crewOf, probeCrew] at hl⟩⟩⟩
-- A home that has served a read of this c, whose place is 64 and on, is past an add's turn and not past a read's.
theorem witness_CounterHomes :
    (let s := operating (.alloc 1) 0 []
     (1 : Nat) ≠ 0 ∧ Cells.canonical Counter.reset (s.home (.core 0)).ctrs = true ∧ 0 < s.homeSize (.core 0) ∧
     ((s.home (.core 0)).ctr 0).live = false ∧ (s.home (.core 0)).served = (0, 0)) ∧
    (∀ kind ∈ [CtrKind.free, .read, .test, .add 1, .addr 1, .wait], ∀ v ∈ [(5 : Nat), 2 ^ 64 - 1], let s := operating kind v []
     (∀ sc, kind ≠ .alloc sc) ∧ handleScope (opOf kind).handle ≠ 0 ∧ s.reach 0 one (opOf kind).handle = some (.core 0) ∧
     ((s.home (.core 0)).ctr (handleIndex (opOf kind).handle)).live = true ∧
     ((s.home (.core 0)).ctr (handleIndex (opOf kind).handle)).gen = handleGen (opOf kind).handle ∧ (s.home (.core 0)).waiters = []) ∧
    (let w : Waiter := ⟨255, 0, 6, .lanes 3⟩
     let s := operating (.add 1) 5 [w]
     (s.home (.core 0)).waiters = [] ++ w :: [] ∧ w.index = handleIndex (opOf (.add 1)).handle ∧ w.threshold ≤ 5 + 1 ∧ w.who = .lanes 3) ∧
    (let s := { (mach { one with ctrOps := [opOf .free] } []).setCore 0 { Core.reset with
         ctrs := { homeOf [(255, ⟨6, true, 1, 0, 1⟩)] [] with served := (0, 0), woken := [(255, .lanes 3)] } } with
       msgs := [(1, .wake 3 0 false)], nextId := 2 }
     (s.home (.core 0)).waiters = [] ∧ (s.home (.core 0)).served.1 = s.cycle ∧
     (handleIndex (opOf .free).handle, .lanes 3) ∈ (s.home (.core 0)).woken ∧ 1 < s.nextId ∧ Cells.find s.msgs 1 = some (.wake 3 0 false)) ∧
    (let s := (operating (.add 1) 5 []).setCore 0 { Core.reset with
       ctrs := { homeOf [(255, ⟨5, true, 1, 0, 1⟩)] [] with served := (0, 64) } }
     (s.home (.core 0)).served.1 = s.cycle ∧ ¬(s.home (.core 0)).served.2 ≤ 0 + homeInput (.core 0) (coreOf 0) (subOf 0) 255 ∧
       (s.home (.core 0)).served.2 ≤ 64 + homeInput (.core 0) (coreOf 0) (subOf 0) 255) := by
  refine ⟨by decide +kernel, ?_, by decide +kernel, by decide +kernel, by decide +kernel⟩
  intro kind hk v hv
  simp only [List.mem_cons, List.not_mem_nil, or_false] at hk hv
  rcases hk with rfl | rfl | rfl | rfl | rfl | rfl <;> rcases hv with rfl | rfl <;> exact ⟨fun sc => nofun, by decide +kernel⟩

/-- A die whose one queued overflow operation is due at a cycle. -/
def overflowing (late : LateCtr) (o : CtrOp) (live : Bool) : State := (mach { one with ctrOps := [o] } []).setDie 0 { Die.reset with
  pages := 1, overflow := [⟨late, 0⟩], ctrs := homeOf [(65536, ⟨5, live, 1, 0, 4⟩)] [] }
/-- A thread's wait for core counter 255 until a cycle. -/
def waitUntil (x : Nat) : CounterWait := ⟨0x20000000FF000001, 5, some x, some 1, some 0, 7⟩
def waiting (x : Nat) (msgs : List (Nat × Msg)) : State :=
  { (mach { withThread { probeThread with st := .waitCounter (waitUntil x) } with ctrOps := [opOf .read] } []).setCore 0 { Core.reset with
      ctrs := homeOf [(255, ⟨5, true, 1, 0, 1⟩)] [] } with msgs := msgs, cycle := 9 }
theorem witness_CounterHomeSteps :
    (let o : CtrOp := { opOf (.add 1) with handle := handleOf 4 0 65536 1, taken := true }
     let s := overflowing (.op 0 o) o true
     (s.die 0).overflow = ⟨.op 0 o, 0⟩ :: [] ∧ (0 : Nat) ≤ s.cycle ∧ s.crew? 0 = some { one with ctrOps := [o] } ∧
     ([o].find? fun p => p.id == o.id).isSome = true ∧ s.reach 0 { one with ctrOps := [o] } o.handle = some (.die 0) ∧
     ((s.home (.die 0)).ctr (handleIndex o.handle)).live = true ∧ ((s.home (.die 0)).ctr (handleIndex o.handle)).gen = handleGen o.handle ∧
     65536 ≤ handleIndex o.handle) ∧
    (∀ live, let s := overflowing (.add (.engine 0) (handleOf 4 0 65536 1) 1 0) (opOf .read) live
     (s.die 0).overflow = ⟨.add (.engine 0) (handleOf 4 0 65536 1) 1 0, 0⟩ :: [] ∧ (0 : Nat) ≤ s.cycle ∧
     ((s.home (.die 0)).ctr (handleIndex (handleOf 4 0 65536 1))).live = live ∧ (s.home (.die 0)).waiters = []) ∧
    (∀ x ∈ [8, 9, 10], ∀ msgs ∈ [[((1 : Nat), Msg.wake 7 0 false)], [(1, .wake 7 0 true)], [(1, .answer 0 7 (.ok 5 0))],
       [(1, .answer 0 7 (.fault 0x0C 0 none))], []], let s := waiting x msgs
     let c := { withThread { probeThread with st := .waitCounter (waitUntil x) } with ctrOps := [opOf .read] }
     s.crew? 0 = some c ∧ (∀ e ∈ s.crews, e.1 = 0 → e.2 = c) ∧ 0 < c.threads.length ∧ (c.thread 0).st = .waitCounter (waitUntil x) ∧
     (waitUntil x).op = 7 ∧ (∀ e ∈ s.crews, e.1 = 0) ∧ Cells.find s.msgs 1 = msgs.head?.map (·.2) ∧
     c.ctrOps.find? (fun p => p.id == 7) = some (opOf .read) ∧ (opOf .read).lanes = [0] ∧ (opOf .read).hints = [(0, {})] ∧
     (waitUntil x).expiry = some x ∧ (waitUntil x).poller = some 0 ∧ 0 ≤ s.cycle ∧ s.cycle = 9 ∧
     s.reach 0 c (waitUntil x).handle = some (.core 0) ∧ (waitUntil x).threshold.toNat ≤ ((s.home (.core 0)).ctr 255).value) := by
  refine ⟨by decide +kernel, ?_, ?_⟩
  · intro live
    cases live <;> decide +kernel
  · intro x hx msgs hm
    simp only [List.mem_cons, List.not_mem_nil, or_false] at hx hm
    rcases hx with rfl | rfl | rfl <;> rcases hm with rfl | rfl | rfl | rfl | rfl <;> decide +kernel

/-- A slice that holds line 0 and a crew whose entry 1 asks for it. -/
def served (op : EntryOp) : Crew := { one with fifo := [entryOf 1 op .global true] }
def asked (k : ReqKind) : Req := ⟨5, 0, 0, k, 0, 0, false, 0, 1⟩
def serving (op : EntryOp) (k : ReqKind) (present : Bool) : State :=
  (mach (served op) []).setSlice ((mach (served op) []).homeSlice 0) { Slice.reset with
    ingress := [asked k], lines := [(0, ⟨present, 0, 0, false, false, false, []⟩)] }
theorem witness_SliceRequests :
    (∀ op ∈ [EntryOp.store, .atom 0 false true, .atomr 0], ∀ k ∈ [ReqKind.load 0 2 false, .entry 0 1], ∀ present ∈ [true, false],
     let s := serving op k present
     let n := s.homeSlice 0
     s.crew? 0 = some (served op) ∧ 0 < hostBase ∧ (s.slice n).off = false ∧
     (s.slice n).ingress = [] ++ asked k :: [] ∧ (s.slice n).serving = [] ∧ ((s.slice n).line 0).present = present ∧
     (s.slice n).missing 0 = false ∧ (s.slice n).mshr.length < 256 ∧ (0 / 128 * 128) ∉ s.poison ∧ (s.slice n).stores = [] ∧
     (served op).entry? 1 = some (entryOf 1 op .global true)) ∧
    (Cells.rising (entryOf 1 .store .global true).bytes = true ∧ ∀ b ∈ (entryOf 1 .store .global true).bytes, b.1 < 128) ∧
    (let s := serving .store (.entry 0 1) true
     let t := s.setSlice (s.homeSlice 0) { s.slice (s.homeSlice 0) with stores := [⟨0, 0, 0, [], 7⟩] }
     (t.slice (t.homeSlice 0)).stores = [⟨0, (entryOf 1 .store .global true).series, (entryOf 1 .store .global true).seq, [], 7⟩]) ∧
    (let s := { serving .store (.load 0 2 false) true with poison := [0] }
     0 / 128 * 128 ∈ s.poison) ∧
    (let s := serving .store (.entry 0 1) false
     let t := s.setSlice (s.homeSlice 0) { s.slice (s.homeSlice 0) with mshr := [(0, [asked (.load 0 2 false)])] }
     Cells.find (t.slice (t.homeSlice 0)).mshr 0 = some [asked (.load 0 2 false)]) := by
  refine ⟨?_, by decide +kernel, by decide +kernel, by decide +kernel, by decide +kernel⟩
  intro op ho k hk present hp
  simp only [List.mem_cons, List.not_mem_nil, or_false] at ho hk hp
  rcases ho with rfl | rfl | rfl <;> rcases hk with rfl | rfl <;> rcases hp with rfl | rfl <;> decide +kernel

/-- A slice that serves line 0, line by line. -/
def atSlice (op : EntryOp) (known : List Filtered) : State :=
  (serving op (.entry 0 1) true).setSlice ((mach (served op) []).homeSlice 0) { Slice.reset with
    serving := [⟨asked (.entry 0 1)⟩], replay := known }
theorem witness_AtomicsAndDecks :
    (∀ op ∈ [EntryOp.atom 0 false true, .atomr 0], ∀ known ∈ [[], [(⟨0, 0, 0, [(0, 3)], 7⟩ : Filtered)]], let s := atSlice op known
     let e := entryOf 1 op .global true
     let n := s.homeSlice e.line
     s.crew? 0 = some (served op) ∧ (s.slice n).serving = ⟨asked (.entry 0 1)⟩ :: [] ∧
     (served op).entry? e.id = some e ∧ e.items = [⟨0, 0, 0, 7, 0, .discard, {}⟩] ∧ e.line + 128 ≤ hostBase ∧ e.line % 128 = 0 ∧
     e.line ∉ s.poison ∧ (e.size = 4 ∨ e.size = 8) ∧
     ((s.slice n).replay.find? fun f => f.core == 0 && f.series == e.series && f.seq == e.seq) = known.head?) ∧
    (let s := { atSlice (.atomr 0) [] with cox := { Coxswain.reset with routines := [(0, [0x00150513])] } }
     Cells.find s.cox.routines (64 * (served (.atomr 0)).ctx + 0) = some [0x00150513] ∧
     (routineRun [0x00150513] 17 0 (List.replicate 32 0) (s.bytesAt .global 0 128)).isSome = true) ∧
    (let c := { one with loads := [{ loadOf [laneLoad .discard] 0 with space := .deck 0 }],
                         fifo := [{ entryOf 1 (.scadd 0) (.deck 0) true with size := 4 }, { entryOf 3 .binapp (.deck 0) true with size := 8 }] }
     ∀ bad ∈ [[], [(0 : Nat)]],
     let s := (mach c []).setCore 0 { Core.reset with deckq := [.load 0 2, .entry 0 1], badDeck := bad, beats := [⟨1, 0, 0, 0, [1]⟩] }
     s.crew? 0 = some c ∧ (s.core 0).deckq = .load 0 2 :: [.entry 0 1] ∧
     c.loads.find? (fun x => x.id == 2) = some { loadOf [laneLoad .discard] 0 with space := .deck 0 } ∧
     (s.core 0).badDeck = bad ∧ (c.entry? 1).isSome = true ∧ (c.entry? 3).isSome = true ∧ (s.core 0).beats = ⟨1, 0, 0, 0, [1]⟩ :: []) ∧
    (let s := (serving (.mcast 0) (.entry 0 1) true).setSlice 7 { Slice.reset with mcast := [⟨0, [(0, 1, 0)], [(1, 0, 0)]⟩] }
     (s.slice 7).mcast = ⟨0, [(0, 1, 0)], [(1, 0, 0)]⟩ :: [] ∧ ((served (.mcast 0)).entry? 1).isSome = true ∧ (0 : Nat) ∉ s.poison ∧
     (0 : Nat) ∈ ({ s with poison := [0] } : State).poison) := by
  refine ⟨?_, by decide +kernel, ?_, by decide +kernel⟩
  · intro op ho known hk
    simp only [List.mem_cons, List.not_mem_nil, or_false] at ho hk
    rcases ho with rfl | rfl <;> rcases hk with rfl | rfl <;> decide +kernel
  · intro c bad hb
    simp only [List.mem_cons, List.not_mem_nil, or_false] at hb
    rcases hb with rfl | rfl <;> decide +kernel

theorem witness_SliceMaps :
    (let s := alone.setDie 0 { Die.reset with pending := some ⟨[], 1, 0⟩ }
     (s.die 0).pending = some ⟨[], 1, 0⟩ ∧ 0 ≤ s.cycle ∧ ∀ e, ∀ x ∈ (s.slice e).lines, hostBase ≤ x.1 → x.2.dirty = false) ∧
    (let s := alone.setDie 0 { Die.reset with pending := some ⟨[], 1, 1⟩ }
     (s.die 0).pending = some ⟨[], 1, 1⟩ ∧ s.cycle < 1) ∧
    (let m : LineMeta := ⟨true, 0, 0, true, false, true, [1]⟩
     let s := alone.setSlice 0 { Slice.reset with retired := true, lines := [(hostBase, m)] }
     (s.slice 0).retired = true ∧ (s.slice 0).gating = false ∧ (s.die (0 / 48)).pending = none ∧
     (∀ e ∈ s.slices, e.2.ingress = [] ∧ e.2.mshr = []) ∧ s.cores = [] ∧ (s.slice 0).flush = [] ∧
     ((s.slice 0).lines.map (·.1)).Pairwise (· < ·) ∧
     ((s.slice 0).lines.filter fun e => decide (hostBase ≤ e.1) && e.2.present && e.2.dirty) = [(hostBase, m)]) ∧
    (let s := (alone.setDie 0 { Die.reset with gen := 1 }).setSlice 0 { Slice.reset with retired := true, ingress := [request 0] }
     ∃ e ∈ s.slices, ∃ q ∈ e.2.ingress, ¬(homeDie q.line = 0 / 48 → q.gen = (s.die 0).gen)) ∧
    (let s := alone.setSlice 0 { Slice.reset with retired := true, gating := true, flush := [(hostBase, [1])] }
     (s.slice 0).gating = true ∧ (s.slice 0).off = false ∧ (s.slice 0).ingress = [] ∧ (s.slice 0).mshr = [] ∧
     (s.slice 0).serving = [] ∧ (s.slice 0).mcast = [] ∧ (s.slice 0).lines = [] ∧
     (s.slice 0).flush = [(hostBase, [1])] ∧ hostBase ≤ hostBase) := by
  refine ⟨⟨by decide +kernel, by decide +kernel, ?_⟩, by decide +kernel, by decide +kernel, by decide +kernel, by decide +kernel⟩
  intro e x hx
  simp [State.slice, State.setDie, alone, mach, State.reset, Cells.get, Slice.reset] at hx

def copier (cmd : CopyCmd) : State := (mach one []).setCore 0 { Core.reset with
  copyq := [(0, [cmd])], ctrs := homeOf [(255, ⟨5, true, 1, 0, 1⟩)] [] }
/-- A carousel block: one row of 64 bytes an item, two items, FILLED and FREED the same core counter. -/
def carousel : List Byte := bytesOf 8 0x40000000 ++ bytesOf 8 0x40001000 ++ bytesOf 8 0x20000000FF000001 ++ bytesOf 4 64 ++ bytesOf 2 1 ++
  bytesOf 2 2 ++ bytesOf 2 1 ++ bytesOf 2 0 ++ List.replicate 16 0 ++ bytesOf 8 0x20000000FF000001 ++ bytesOf 4 64
/-- The probe's tables with the third GiB mapped to host memory over PCIe, with the link up. -/
def hostMapped (s : State) : State := { s with
  mem := s.mem.write 0x100010 (bytesOf 8 (hostBase + 0x1F)), links := { Links.reset with pup := true, pgen := 6 } }
/-- A copy block of one row of 64 bytes from a virtual address to accumulator offset 128. -/
def rowFrom (src : Nat) : List Byte := bytesOf 8 src ++ (accCopy.drop 8).take 52 ++ bytesOf 4 4
-- Rows that move, wait for host data, and fault at 2^56; the completion with and without a counter.
theorem witness_CopyEngine :
    (let cmd := copying accCopy
     let s := copier cmd
     let b := copyBlock cmd.block
     (s.core 0).channel 0 = cmd :: [] ∧ s.crew? cmd.slot = some one ∧ one.early = [] ∧ one.done.length = 3 ∧ one.done.getD 0 0 + 1 = cmd.ticket ∧
     (cmd.moved = false ∧ cmd.held = none ∧ (s.core 0).preempt = false ∧ (s.core 0).stopped = false ∧ ∀ e ∈ one.fifo, e.id ∉ cmd.older) ∧
     b.car = false ∧ b.srck = 1 ∧ b.dstk = 1 ∧ b.c1 = 1 ∧ b.c2 = 1 ∧ b.c3 = 1 ∧ b.src < 2 ^ 64 ∧ b.dst < 2 ^ 64 ∧ cmd.row = 0 ∧
     cmd.part = none ∧ (s.core 0).badAcc = [] ∧ coreOf cmd.slot = 0 ∧
     (s.moveRows (.copy 0 0) cmd.slot one b cmd.lts b.rowAt ⟨cmd.wtime, cmd.pcieWrites⟩ cmd.part 1 cmd.row).stop = none) ∧
    (let b := copyBlock (rowFrom 0x80000000)
     let s := hostMapped { placed 0 with crews := [(0, one)], cores := (copier (copying (rowFrom 0x80000000))).cores }
     (s.moveRows (.copy 0 0) 0 one b 0 b.rowAt ⟨0, false⟩ none 1 0).stop = some .wait) ∧
    (let b := copyBlock (rowFrom (2 ^ 56))
     let m := (copier (copying (rowFrom (2 ^ 56)))).moveRows (.copy 0 0) 0 one b 0 b.rowAt ⟨0, false⟩ none 1 0
     ∃ f, m.stop = some (.fault f) ∧ m.state.holdAccess 0 one f = none ∧ m.state.crew? 0 = some one) ∧
    (let s := { copier (copying []) with rm := { Ringmaster.reset with contexts := [(0, { Context.reset with replay := true })] } }
     (s.holdAccess 0 one (xlateTrap .read 0 ⟨3, 1⟩)).isSome = true) ∧
    (∀ cnt ∈ [(0 : DWord), 0x20000000FF000001], let cmd := { copying accCopy with moved := true, cnt := cnt }
     let s := copier cmd
     cmd.moved = true ∧ cmd.pcieWrites = false ∧ s.links.pcie = [] ∧ (∀ e ∈ s.cores, e.2.beats = []) ∧
     (cnt ≠ 0 → s.reach cmd.slot one cnt = some (.core 0) ∧ (s.home (.core 0)).waiters = [] ∧ (s.home (.core 0)).served = (0, 0) ∧
       ((s.home (.core 0)).ctr (handleIndex cnt)).live = true ∧ ((s.home (.core 0)).ctr (handleIndex cnt)).gen = handleGen cnt)) ∧
    (∀ x ∈ [copying carousel, { copying carousel with started := true }, { copying carousel with started := true, i0 := 6 },
       { copying carousel with started := true, waiting := true }, { copying carousel with itemMoved := true }],
     ∀ msgs ∈ [[], [((1 : Nat), Msg.carouselWake 0 0 3 false)], [(1, .carouselWake 0 0 3 true)]],
     let s := { placed 0 with crews := [(0, one)], cores := (copier x).cores, msgs := msgs }
     let b := copyBlock x.block
     (s.core 0).channel 0 = x :: [] ∧ s.crew? x.slot = some one ∧ b.car = true ∧ x.moved = false ∧ x.held = none ∧
     (s.core 0).preempt = false ∧ (s.core 0).stopped = false ∧ s.reach 0 one b.cnt = some (.core 0) ∧
     s.reach 0 one b.freed = some (.core 0) ∧ ((s.home (.core 0)).ctr (handleIndex b.cnt)).live = true ∧
     ((s.home (.core 0)).ctr (handleIndex b.cnt)).gen = handleGen b.cnt ∧ (s.home (.core 0)).waiters.length < waiterRoom (.core 0) ∧
     (x.i0 + x.item + 1 ≤ ((s.home (.core 0)).ctr (handleIndex b.freed)).value + b.c3 ↔ x.i0 = 0) ∧
     s.carouselMsg 0 0 = msgs.head?.map (fun m => (1, 3, decide (m.2 = .carouselWake 0 0 3 true))) ∧
     (s.moveRows (.copy 0 0) x.slot one b x.lts (b.itemRow x.item (x.i0 + x.item)) ⟨0, false⟩ x.part b.c1 0).stop = none) ∧
    (∀ x ∈ [copying accCopy, { copying carousel with started := true, waiting := true }],
     let s := alone.setCore 5 { Core.reset with preempt := true, copyq := [(0, [x])], ctrs := homeOf [] [⟨255, 0, 6, .carousel 5 0⟩] }
     (s.core 5).preempt = true ∧ (s.core 5).stopped = false ∧ (s.core 5).streamq = [] ∧
     (∀ q ∈ (s.core 5).copyq, ∀ y ∈ q.2.head?, y.started = false ∨ (y.moved = false ∧ y.itemMoved = false ∧ y.part = none ∧
       (copyBlock y.block).car = true ∧ y.row = 0)) ∧ (s.core 5).matrixq = []) := by
  refine ⟨by decide +kernel, by decide +kernel, ⟨_, rfl, by decide +kernel, by decide +kernel⟩, by decide +kernel, ?_, ?_, ?_⟩
  · intro cnt hc
    simp only [List.mem_cons, List.not_mem_nil, or_false] at hc
    rcases hc with rfl | rfl <;> decide +kernel
  · intro x hx msgs hm
    simp only [List.mem_cons, List.not_mem_nil, or_false] at hx hm
    rcases hx with rfl | rfl | rfl | rfl | rfl <;> rcases hm with rfl | rfl | rfl <;> decide +kernel
  · intro x hx
    simp only [List.mem_cons, List.not_mem_nil, or_false] at hx
    rcases hx with rfl | rfl <;> decide +kernel

/-- A matrix command of a crew, its next ticket: 64 × 256 × 128 on records 0 and 1, output and save area in mapped memory. -/
def mxOf (table : Option (Nat × DWord)) (ctrl out : Nat) : MatrixCmd where
  slot := 0
  ticket := 1
  table := table
  block := bytesOf 2 64 ++ bytesOf 2 256 ++ bytesOf 2 128 ++ [0, 1] ++ bytesOf 4 0 ++ bytesOf 4 ctrl ++ bytesOf 8 0 ++ bytesOf 8 out ++
    bytesOf 8 1024 ++ bytesOf 8 0x50000000 ++ bytesOf 8 0 ++ bytesOf 8 0x50010000
  lts := 0
  older := []
  started := false
  done := false
  tile := 0
  kdone := 0
  saved := false
  bias := []
  written := none
  held := none
  wtime := 0
  pcieWrites := false
def mxState (cmd : MatrixCmd) (preempt : Bool) : State := { placed 0 with
  crews := [(0, one)], cores := [(0, { Core.reset with
    matrixq := [cmd], preempt := preempt
    records := [(0, ⟨0, 8192, 4, 0, 0, 0, 0, 0⟩), (1, ⟨8192, 32768, 4, 0, 0, 0, 0, 0⟩)] })] }
/-- A collective of one member, its crew's next ticket. -/
def collOf : CollCmd where
  slot := 0
  ticket := 1
  core := 0
  block := List.replicate 64 0
  kind := 2
  lts := 0
  older := []
  started := false
  done := false
  posted := (0, 0)
  data := []
  written := 0
  since := 0
  wtime := 0
  pcieWrites := false
  held := none
def collState (x : CollCmd) (ended : List (Nat × Nat)) : State := ({ placed 0 with
  crews := [(0, one)], cycle := 2 ^ 24, cox := { Coxswain.reset with groups := [⟨0, [(0, 0)]⟩] } } : State).setDie 0
    { Die.reset with collq := [x], collDone := ended }
-- Tiles with their elements done, up to the last, and a row whose write faults; the split point at a tile's end.
theorem witness_MatrixAndCollectiveEngines :
    (let cmd := mxOf (some (0, 0x50000000)) 0 0
     let s := mxState cmd false
     let r := s.engineRead (.matrix 0) 0 one 0x50000000 2048
     (s.core 0).matrixq = cmd :: [] ∧ s.crew? cmd.slot = some one ∧ cmd.held = none ∧ one.early = [] ∧ one.done.length = 3 ∧
     one.done.getD 1 0 + 1 = cmd.ticket ∧ cmd.started = false ∧ (s.core 0).preempt = false ∧ (s.core 0).stopped = false ∧
     (∀ e ∈ one.fifo, e.id ∉ cmd.older) ∧ r.1.toOption = some (List.replicate 2048 0) ∧ r.2.crew? 0 = some one) ∧
    (let b := mxBlock (mxOf none 2 0).block
     (mxBlock (mxOf none 0 0).block).ctrl.testBit 1 = false ∧ (mxOf none 0 0).bias = [] ∧ b.ctrl.testBit 1 = true ∧
     ((mxState (mxOf none 2 0) false).engineRead (.matrix 0) 0 one b.biasp (4 * b.n)).1.toOption.isSome = true) ∧
    (let cmd := { mxOf none 0x400 0 with started := true, tile := 1, written := some (64, 0) }
     let s := mxState cmd false
     ∃ x, (s.core 0).setup cmd.block = some x ∧ x.block = mxBlock cmd.block ∧ (s.savedArea 0 one cmd x).1.toOption = some [] ∧
       cmd.tile < x.block.n / 128 ∧ ((s.savedArea 0 one cmd x).2.runTiles one x [] 0 1 cmd).stop = none) ∧
    (let cmd := { mxOf none 0x400 (2 ^ 63) with started := true, tile := 1, written := some (63, 0) }
     let s := mxState cmd false
     ∃ x, (s.core 0).setup cmd.block = some x ∧
       (((s.savedArea 0 one cmd x).2.runTiles one x [] 0 1 cmd).stop.any fun f =>
         (((s.savedArea 0 one cmd x).2.runTiles one x [] 0 1 cmd).state.holdAccess 0 one f).isNone) = true ∧
       ((s.savedArea 0 one cmd x).2.runTiles one x [] 0 1 cmd).state.crew? 0 = some one) ∧
    (let cmd := { mxOf none 0x500 0 with started := true, written := some (64, 0) }
     let s := mxState cmd true
     (s.core 0).preempt = true ∧ cmd.splitPoint (mxBlock cmd.block) 0 128 = true ∧
     ∃ x, (s.core 0).setup cmd.block = some x ∧ 128 = x.block.k ∧ ((s.savedArea 0 one cmd x).2.runTiles one x [] 0 1 cmd).stop = none ∧
       (((s.savedArea 0 one cmd x).2.runTiles one x [] 0 1 cmd).state.saveTile 0 one
         ((s.savedArea 0 one cmd x).2.runTiles one x [] 0 1 cmd).cmd x [] 0 128).1.stop = none) ∧
    (let cmd := { mxOf none 0 0 with started := true, done := true }
     (mxState cmd false).links.pcie = [] ∧ (mxBlock cmd.block).cnt = 0 ∧ cmd.pcieWrites = false) ∧
    (∀ started done ended, let x := { collOf with started := started, done := done }
     let s := collState x (if ended = true then [(0, 0)] else [])
     (s.die 0).collq = [] ++ x :: [] ∧ s.crew? x.slot = some one ∧ x.held = none ∧ one.done.getD 2 0 + 1 = x.ticket ∧
     s.group? (natOf ((x.block.drop 32).take 4)) = some ⟨0, [(0, 0)]⟩ ∧ s.cox.moduleNo = 0 ∧ (∀ e ∈ one.fifo, e.id ∉ x.older) ∧
     ((natOf ((x.block.drop 32).take 4), natOf ((x.block.drop 36).take 4)) ∈ (s.die 0).collDone ↔ ended = true) ∧
     ((s.die 0).collq.filter (·.started)).length < 8 ∧
     (∀ n < 4, n ≠ 0 → (s.die n).collq = []) ∧ s.links.pcie = [] ∧ natOf ((x.block.drop 16).take 8) = 0 ∧ x.since + 2 ^ 24 ≤ s.cycle ∧
     windowExtent (natOf ((x.block.drop 8).take 8)) x.data.length = none ∧
     (s.engineWrite x.slot one x.lts ((natOf ((x.block.drop 8).take 8) + x.written) % 2 ^ 64) (x.data.drop x.written)).1.stop = none) ∧
    (((collState collOf []).readSend 0 collOf 1 0).1.toOption.isSome = true) := by
  refine ⟨by decide +kernel, by decide +kernel, ⟨_, rfl, by decide +kernel, by decide +kernel, by decide +kernel, by decide +kernel⟩,
    ⟨_, rfl, by decide +kernel, by decide +kernel⟩,
    ⟨by decide +kernel, by decide +kernel, _, rfl, by decide +kernel, by decide +kernel, by decide +kernel⟩, by decide +kernel, ?_, by decide +kernel⟩
  intro a b c
  cases a <;> cases b <;> cases c <;> decide +kernel

/-- A launch record: one crew a team, one team, entry 0 and code base 0x40000000. -/
def record : BitVec 512 := BitVec.ofNat 512 (0x40000000 + 2 ^ 128)
def recordIn (bits : BitVec 512) : State :=
  (alone.setQueue 0 { Queue.reset with en := true, records := [⟨bits, 0, .window 0, 0⟩] }).setContext 0 { Context.reset with pcrews := 4 }
/-- A pending grid that depends on package counter 0. -/
def pending (unmet : List (Nat × DWord × Nat)) (started : Bool) : Grid := ⟨0, 0, 0, 0, none, 0, record, 0, 0, unmet, started, 0, 1, 0, true⟩
def gridIn (g : Grid) (v : Nat) : State :=
  { (alone.setDie 0 { Die.reset with ctrs := homeOf [(0, ⟨v, true, 1, 0, 4⟩)] [] }) with rm := { Ringmaster.reset with grids := [g] } }
theorem witness_LaunchAndGrids :
    (let s := recordIn record
     s.rm.queues = [] ++ (0, s.queue 0) :: [] ∧ (s.queue 0).children = [] ∧
     (s.queue 0).records = ⟨record, 0, .window 0, 0⟩ :: [] ∧ (launchOf record).reserved = false ∧ (launchOf record).streams ≤ 8 ∧
     (launchOf record).teams = 1 ∧ (launchOf record).done = 0 ∧ (launchOf record).deps = [] ∧ (launchOf record).cluster = false ∧
     (launchOf record).crews ≤ (s.context 0).pcrews ∧ (∀ g ∈ s.rm.grids, g.serial ≠ s.rm.serial)) ∧
    ((launchOf (record ||| 4)).reserved = true ∧ (launchOf (BitVec.ofNat 512 0x40000000)).teams = 0 ∧
      (launchOf (record ||| 1)).cluster = true ∧ (launchOf (record ||| 1)).teams % 4 ≠ 0 ∧ (launchOf (record ||| 1)).done = 0) ∧
    (∀ v ∈ [(3 : Nat), 4], let d : Nat × DWord × Nat := (0, handleOf 4 0 0 1, 3)
     let s := gridIn (pending [d] false) v
     s.rm.grids = [] ++ pending [d] false :: [] ∧ s.hasSaved 0 = false ∧ s.packageHome d.2.1 = some (.die 0) ∧
     ((s.home (.die 0)).ctr (handleIndex d.2.1)).live = true ∧ ((s.home (.die 0)).ctr (handleIndex d.2.1)).gen = handleGen d.2.1 ∧
     d.2.2 ≤ ((s.home (.die 0)).ctr (handleIndex d.2.1)).value ∧ (s.context 0).saving = false ∧
     (∀ e ∈ s.dies, ∀ w ∈ e.2.ctrs.waiters, w.who ≠ .dependence 0 0) ∧ s.depWake 0 0 = none) ∧
    (let d : Nat × DWord × Nat := (0, handleOf 4 0 0 1, 3)
     let s := fun stale => { gridIn (pending [d] false) 0 with msgs := [(1, .dependenceWake 0 0 9 stale)] }
     (s true).depWake 0 0 = some (9, true) ∧ (s false).depWake 0 0 = some (9, false) ∧ (launchOf (pending [d] false).bits).done = 0) ∧
    (∀ done ∈ [(0 : DWord), handleOf 4 0 0 1], let g := { pending [] true with done := done }
     let s := gridIn g 0
     s.rm.grids = [] ++ g :: [] ∧ g.started = true ∧ (launchOf g.bits).teams ≤ g.exited ∧ (∀ x ∈ s.rm.grids, x.parent ≠ some g.serial) ∧
     s.rm.queues = [] ∧ g.parent = none ∧ (done ≠ 0 → s.packageHome done = some (.die 0) ∧ (s.home (.die 0)).waiters = [] ∧
       ((s.home (.die 0)).ctr (handleIndex done)).live = true ∧ ((s.home (.die 0)).ctr (handleIndex done)).gen = handleGen done)) := by
  refine ⟨by decide +kernel, by decide +kernel, ?_, by decide +kernel, ?_⟩
  · intro v hv
    simp only [List.mem_cons, List.not_mem_nil, or_false] at hv
    rcases hv with rfl | rfl <;> decide +kernel
  · intro v hv
    simp only [List.mem_cons, List.not_mem_nil, or_false] at hv
    rcases hv with rfl | rfl <;> decide +kernel

/-- A package with a graph of one node at 0x1000 registered in slot 0 for queue 0. -/
def graph (q : Queue) : State := ({ alone with
  mem := Memory.write [] 0x1000 (bytesOf 4 1), rm := { Ringmaster.reset with graphs := [(0, (0x1000, 0))] } } : State).setQueue 0 q
theorem witness_QueuesAndKicks :
    alone.boot.tdi = .unlocked ∧ ((alone.setQueue 0 { Queue.reset with en := true }).queue 0).en = true ∧ (256 : BitVec 64).getLsbD 8 = true ∧
    (0 : BitVec 64).getLsbD 8 = false ∧ (alone.queue 0).en = false ∧ (alone.queue 0).records = [] ∧ (alone.queue 0).children = [] ∧
    alone.rm.grids = [] ∧ alone.cores = [] ∧ 7 ≤ (7 : BitVec 64).toNat % 32 ∧ (24 : BitVec 64).toNat % 32 ≤ 24 ∧ (6 : BitVec 64).toNat % 32 < 7 ∧
    (∃ k ∈ (alone.setCore 0 { Core.reset with ctx := some 3 }).cores, k.2.ctx = some 3) ∧
    ({ alone with boot := { alone.boot with tdi := .locked } } : State).boot.tdi = .locked ∧
    (let s := graph { Queue.reset with en := true }
     Cells.find s.rm.graphs ((0 : BitVec 64).toNat % 64) = some (0x1000, 0) ∧ (s.queue 0).path = false ∧ (s.queue 0).kicks = [] ∧
     0x1000 + 64 + 64 * 1 ≤ dramSize ∧ s.poison = [] ∧ natOf (s.mem.read 0x1000 4) = 1 ∧ (∀ j < 64, 4 ≤ j → s.mem.byte (0x1000 + j) = 0) ∧
     (s.queue 0).records.length + 1 ≤ 256) ∧
    (let s := graph { Queue.reset with en := true, kicks := [⟨0, some [⟨record, 0, .graph, 0⟩]⟩] }
     (s.queue 0).kicks = ⟨0, some [⟨record, 0, .graph, 0⟩]⟩ :: [] ∧ (s.queue 0).records.length + [record].length ≤ 256) ∧
    (let l := List.replicate 256 (⟨record, 0, .graph, 0⟩ : LaunchRecord)
     let s := graph { Queue.reset with en := true, records := l }
     256 < (s.queue 0).records.length + 1) ∧ (63 : Nat) < 64 ∧ (launchOf record).done = 0 := by decide +kernel

/-- A team of one crew to be placed, and a crew that has nothing left. -/
def dispatching : State := { (recordIn record) with rm := { (recordIn record).rm with grids := [{ pending [] true with exited := 0 }] }, crews := [] }
def ended : Crew := withThread Thread.gone
/-- A crew blocked in a CWAIT, while a grid of its context finds no room. -/
def blocked : Crew := withThread { probeThread with st := .waitCounter ⟨0, 0, none, none, none, 0⟩ }
def parking : State := { (mach blocked []) with
  rm := { Ringmaster.reset with
    contexts := [(0, { Context.reset with pcrews := 32 })]
    grids := [{ pending [] true with serial := 1, bits := record ||| BitVec.ofNat 512 (15 * 2 ^ 60 + 8 * 2 ^ 56) }] } }
theorem witness_TeamPlacement :
    (let s := dispatching
     let g := { pending [] true with exited := 0 }
     s.nextRestore.isNone = true ∧ s.nextTeam = some g ∧ (launchOf g.bits).cluster = false ∧ s.fitCore g.need = some 0 ∧ s.fit 0 g.need = some ([0], 0)) ∧
    (let s := mach ended []
     s.crew? 0 = some ended ∧ ended.threads.all (fun t => t.st == .exited) = true ∧ ended.fifo = [] ∧
     (∀ k, k < 3 → ended.done.getD k 0 = ended.issued.getD k 0) ∧ ended.ctrOps = [] ∧ (s.core (coreOf 0)).streamq = [] ∧ ended.efault = none ∧
     (∀ e ∈ s.crews, e.1 = 0) ∧ s.rm.saved = []) ∧
    (one.threads.any (fun t => t.st != .exited) = true) ∧
    (parking.crew? 0 = some blocked ∧ parking.parkable blocked.grid.toNat blocked.team = true ∧ parking.crews = [(0, blocked)] ∧ parking.rm.saved = []) := by
  decide +kernel

/-- A context whose slice has run out, on core 0. -/
def expired (saving : Bool) : State := { alone with
  cores := [(0, { Core.reset with ctx := some 0, preempt := saving, stopped := saving })]
  rm := { Ringmaster.reset with contexts := [(0, { Context.reset with slice := 1, timer := 256, saving := saving })] } }
/-- A saved core of one crew. -/
def saved : SavedCore := ⟨Core.reset, none, 0, 0, 0, [⟨one, 0, one⟩], [], false, true⟩
theorem witness_ContextSaving :
    (let v := (expired false).context 0
     v.slice ≠ 0 ∧ 256 * v.slice ≤ v.timer ∧ v.saving = false ∧ (∃ k ∈ (expired false).cores, k.2.ctx = some 0) ∧ (expired false).rm.grids = [] ∧
     (∃ e ∈ (expired false).crews, e.2.ctx = 0 ∧ (expired false).releasable e.1 e.2 = false)) ∧
    (let s := { expired false with crews := [(0, ended)] }
     ∀ e ∈ s.crews, e.2.ctx = 0 → s.releasable e.1 e.2 = true) ∧
    (let s := expired true
     (s.core 0).ctx = some 0 ∧ (s.context 0).saving = true ∧ s.crew? 0 = some one ∧ (s.core (coreOf 0)).preempt = true ∧
     (s.core (coreOf 0)).stopped = true ∧ s.crewSettled 0 one = true ∧
     s.releasable 0 one = false ∧ s.deckQuiet (coreOf 0) 0 = true ∧ (s.die (dieOf (coreOf 0))).collq = [] ∧ (∀ k ∈ s.cores, k.2.beats = [])) ∧
    (let s := { expired true with crews := [] }
     (s.context 0).saving = true ∧ (s.context 0).saveAdds = [] ∧ s.crews = [] ∧ s.rm.saved = []) ∧
    (let c := { one with fifo := [entryOf 1 .store .global true] }
     ∃ e ∈ c.fifo, e.sent = true) ∧
    (let s := { expired false with crews := [], cores := [], rm := { (expired false).rm with saved := [saved] } }
     (s.nextRestore == some [(saved, 0)]) = true ∧ saved.crews = [⟨one, 0, one⟩]) ∧
    (let s := { dispatching with cores := [(0, { Core.reset with last := some 7 })], clusters := [(9, { Cluster.reset with gated := false })], cycle := 65536 }
     (s.core 0).last = some 7 ∧ s.crews = [] ∧ (s.core 0).freeAt ≤ s.cycle ∧ s.passesFrom 7 0 = true ∧ (s.cluster 9).gated = false ∧
     (s.cluster 9).idleSince + 65536 ≤ s.cycle) := by decide +kernel
/-! ## The host, boot, the replay block -/

/-- The package with a live package counter at index 7 of C-die 0, value 5. -/
def hosting : State := alone.setDie 0 { Die.reset with ctrs := homeOf [(7, ⟨5, true, 1, 0, 4⟩)] [] }
def lockedOf (s : State) (t : TdiState) : State := { s with boot := { s.boot with tdi := t } }
theorem witness_HostAccesses :
    (hosting.boot.tdi = .unlocked ∧ ((hosting.die 0).ctrs.ctr 7).scope = 4 ∧ ((hosting.die 1).ctrs.ctr 7).scope ≠ 4 ∧
      ((hosting.die 1).ctrs.ctr 7).scope ≠ 5) ∧
    (let w : BitVec 64 := 0x00000001FFFFFFFF
     let k := (hosting.die 0).ctrs.ctr 7
     k.live = true ∧ w.toNat / 2 ^ 32 % 2 ^ 24 = k.gen ∧ w.toNat / 2 ^ 56 = 0 ∧ k.value + w.toNat % 2 ^ 32 < 2 ^ 64 ∧
     (∀ x ∈ (hosting.die 0).ctrs.waiters, x.index ≠ 7) ∧ (0x00000002FFFFFFFF : BitVec 64).toNat / 2 ^ 32 % 2 ^ 24 ≠ k.gen) ∧
    (let s := alone.setDie 0 { Die.reset with pages := 1, ctrs := homeOf [(65536, ⟨5, true, 1, 0, 4⟩)] [] }
     ((s.die 0).ctrs.ctr 65536).live = true ∧ ((s.die 0).ctrs.ctr 65536).scope = 4 ∧ ((s.die 0).ctrs.ctr 65536).gen = 1 ∧ 65536 < 2 ^ 24) ∧
    ((∀ d ∈ hosting.dies, d.2.pages = 0) ∧ hosting.inOverflow 0 = false ∧ 2 ^ 41 - 8 + 8 ≤ 2 ^ 41 ∧ hosting.cox.hostq.length < 64 ∧
      hosting.writesWaiting 204 = false ∧ hosting.writesWaiting 203 = false ∧
      (∀ e, ∀ l, ((hosting.slice e).line l).dirty = false)) ∧
    (let s := { hosting with rpl := { Replay.reset with arrivals := [⟨204, .hdmWrite 0 [1], 0⟩, ⟨203, .bar0Write 0 1 false, 0⟩] } }
     s.writesWaiting 204 = true ∧ s.writesWaiting 203 = true) ∧
    (64 ≤ ({ hosting with cox := { Coxswain.reset with hostq := List.replicate 64 ⟨2, 0, none, 0⟩ } } : State).cox.hostq.length ∧
      (0x0100000000000000 : BitVec 64).toNat / 2 ^ 56 ≠ 0) ∧
    (hosting.boot.stage = 0 ∧ hosting.boot.lockstep = false ∧ (0x500000 : Nat) ≤ 0x500000) ∧
    (lockedOf hosting .locked).boot.tdi ≠ .unlocked := by
  refine ⟨by decide +kernel, by decide +kernel, by decide +kernel, ⟨by decide +kernel, by decide +kernel, by decide +kernel,
    by decide +kernel, by decide +kernel, by decide +kernel, fun e l => ?_⟩, by decide +kernel, by decide +kernel, by decide +kernel, by decide +kernel⟩
  simp [hosting, alone, mach, State.reset, State.slice, State.setDie, Slice.line, Cells.get, Slice.reset,
    LineMeta.absent]

/-- A package that holds host line 0 in its home slice. -/
def snooped (dirty : Bool) : State := alone.setSlice (alone.homeSlice hostBase)
  { Slice.reset with lines := [(hostBase, ⟨true, 3, 4, dirty, false, true, List.replicate 128 7⟩)], ways := ⟨[(0, hostBase)], []⟩ }
/-- A load that waits for its PCIe completion, sent at cycle 0. -/
def pcieLoad : PcieReq := ⟨9, 0, 4, .load, 0, none⟩
def linked (kind : PcieKind) (cycle : Nat) : State := { alone with
  crews := [(0, one)], cycle := cycle, links := { Links.reset with pup := true, cup := true, pcie := [{ pcieLoad with kind := kind }] } }
theorem witness_HostLinksAndSnoops :
    (∀ dirty, let s := snooped dirty
     let v := s.slice (s.homeSlice hostBase)
     hostBase / 128 * 128 = hostBase ∧ (∀ x ∈ v.serving, x.req.line ≠ hostBase) ∧ Cells.find v.mshr hostBase = none ∧
     (∀ x ∈ s.slices, Cells.find x.2.flush hostBase = none) ∧ (v.line hostBase).present = true ∧ (v.line hostBase).dirty = dirty ∧
     (v.line (hostBase + 128)).present = false ∧ v.ingress = [] ∧
     (∀ x ∈ s.slices, Cells.find x.2.flush (hostBase + 128) = none ∧ (x.2.line (hostBase + 128)).present = false)) ∧
    (let q : Req := { asked (.load 0 2 false) with line := hostBase, cxl := true }
     let n := alone.homeSlice hostBase
     Cells.find ((alone.setSlice n { Slice.reset with mshr := [(hostBase, [q])] }).slice n).mshr hostBase = some [q] ∧
     (∃ x ∈ ((alone.setSlice n { Slice.reset with ingress := [q] }).slice n).ingress, x.line = hostBase ∧ x.cxl = true) ∧
     (∃ x ∈ ((alone.setSlice n { Slice.reset with serving := [⟨q⟩] }).slice n).serving, x.req.line = hostBase) ∧
     (let s := alone.setSlice 7 { Slice.reset with gating := true, flush := [(hostBase, [1])] }
      s.heldBefore hostBase = some (7, [1], true) ∧ ((s.slice (s.homeSlice hostBase)).line hostBase).present = false)) ∧
    (let s := snooped true
     s.rpl.active = false ∧ (s.slices.map fun e => e.2.dirtyHost).flatten = [(hostBase, List.replicate 128 7)] ∧ s.rm.saved = [] ∧
     s.links.cld = false ∧
     ({ s.cox with slogSize := 255 } : Coxswain).slogSize < 256 * (s.cox.slogUsed + 1) ∧
     (let c := { s.cox with slogBase := dramSize - 256, slogSize := 256 }
      256 * (c.slogUsed + 1) ≤ c.slogSize ∧ c.slogBase + 256 * c.slogUsed + 256 ≤ dramSize)) ∧
    (let s := linked .load 0
     s.links.pcie = [] ++ pcieLoad :: [] ∧ pcieLoad.id = 9 ∧ pcieLoad.kind = .load ∧ s.cycle < pcieLoad.sentAt + s.links.timeout ∧
     s.rpl.active = false ∧ (∀ e ∈ s.crews, e.2.fifo = []) ∧ s.rm.saved = [] ∧ s.links.pup = true ∧ s.links.cup = true ∧
     s.boot.tdi = .unlocked) ∧
    pcieLoad.sentAt + (linked .load 135000000).links.timeout ≤ (linked .load 135000000).cycle ∧
    (linked .fence 0).links.pcie = [] ++ { pcieLoad with kind := .fence } :: [] := by
  refine ⟨?_, by decide +kernel, by decide +kernel, by decide +kernel, by decide +kernel, by decide +kernel⟩
  intro dirty
  cases dirty <;> decide +kernel

-- Whether an image is accepted rests on uninterpreted functions (log 8), so neither case is shown of a given image.
theorem witness_BootAndReset :
    (State.reset.boot.stage = 0x81 ∧ State.reset.boot.thermtrip = false ∧ State.reset.boot.lockstep = false ∧ State.reset.boot.recov = false) ∧
    (let s := { State.reset with boot := { Boot.reset with stage := 0x02, recov := true } }
     s.boot.recov = true ∧ s.boot.stage = 0x02 ∧ s.boot.rverify = false ∧
     ({ s.boot with rverify := true } : Boot).rverify = true) ∧
    (∀ n ∈ [1, 3, 4, 5, 6], ({ Boot.reset with stage := BitVec.ofNat 8 (0x80 + n) } : Boot).stage.toNat = 0x80 + n) ∧ alone.boot.tdi = .unlocked ∧ (lockedOf alone .run).boot.tdi ≠ .unlocked ∧
    (let s := { alone with cycle := 28311552, rpl := { Replay.reset with epochAt := some 28311552, mode := 2 } }
     s.rpl.epochAt = some 28311552 ∧ (28311552 : Nat) ≤ s.cycle ∧ s.rpl.mode ≠ 1) ∧
    (let s := { alone with rpl := { Replay.reset with epochAt := some 28311552 } }
     s.rpl.epochAt = some 28311552 ∧ s.cycle < 28311552) := by
  refine ⟨⟨rfl, rfl, rfl, rfl⟩, by decide +kernel, by decide +kernel, by decide +kernel, by decide +kernel, by decide +kernel, by decide +kernel⟩

/-- A package inside an SPDM session with streams 0 and 3 keyed. -/
def inSession (t : TdiState) : State := { alone with boot := { alone.boot with session := true, ide := [0, 3], tdi := t, nonce := 5 } }
theorem witness_TrustedInterface :
    (let s := inSession .unlocked
     s.boot.session = true ∧ 1 < 4 ∧ 1 ∉ s.boot.ide ∧ s.boot.tdi = .unlocked ∧ s.boot.ide ≠ [] ∧ 3 ∈ s.boot.ide) ∧
    (let s := inSession .locked
     s.boot.session = true ∧ s.boot.tdi = .locked ∧ s.boot.nonce = 5 ∧ (4 : BitVec 256) ≠ s.boot.nonce ∧ 3 ∈ s.boot.ide) ∧
    (inSession .run).boot.tdi = .run ∧ (inSession .error).boot.tdi = .error ∧ alone.boot.session = false := by decide +kernel

/-- A package whose replay block runs in a mode, its log at 1 GiB. -/
def inMode (m : Nat) : State := { alone with rpl := { Replay.reset with active := m != 0, curMode := m, base := 1 } }
def presenting (x : Access) (cycle : Nat) : State := { alone with cycle := cycle, rpl := { Replay.reset with arrivals := [⟨203, x, 0⟩] } }
theorem witness_Arrivals :
    (∀ m < 3, let s := inMode m
     s.rpl.frozen = false ∧ s.fleet.clockStopped = false ∧ s.boot.lockstep = false ∧ (s.rpl.active = false ↔ m = 0) ∧
     (s.recording = true ↔ m = 1) ∧ (s.replaying = true ↔ m = 2)) ∧
    (let s := inMode 1
     let l := accessPayload (.hdmWrite 0 [1])
     let size := 16 + (l.length + 15) / 16 * 16
     replayBlock (.hdmWrite 0 [1]) = false ∧ s.rpl.head + size < 2 ^ 34 ∧ s.rpl.base * 2 ^ 30 + s.rpl.head + size ≤ dramSize) ∧
    (({ alone with rpl := { Replay.reset with frozen := true } } : State).rpl.frozen = true ∧ bootServed (.hdmWrite 0 [1]) = false) ∧
    (∀ x ∈ [.hdmRead 0 8, .hdmWrite 0 [1], .bar0Write 0x200018 1 false, .snoopInv hostBase, .completion 0 true [], .portState 0 2 1,
       .raiseSvn 3, .deviceControl2 64, .configWrite 4 1], let s := presenting x 32
     s.rpl.arrivals = ⟨203, x, 0⟩ :: [] ∧ replayBlock x = false ∧ s.rpl.frozen = false ∧ s.fleet.clockStopped = false ∧ 0 + 32 ≤ s.cycle ∧
     s.boot.stage = 0 ∧ s.boot.lockstep = false ∧ s.boot.tdi = .unlocked ∧ (∀ v ∈ s.slices, v.2.serving = [] ∧ v.2.ingress = [])) ∧
    (presenting (.hdmRead 0 8) 31).cycle < 0 + 32 ∧ (presenting (.bar0Write barReplay 1 false) 33).cycle = 0 + 33 ∧
    (let h := handleOf 5 0 7 1
     let k : Counter := ⟨5, true, 1, 0, 5⟩
     let s := (presenting (.peerAdd h 3) 32).setDie 0 { Die.reset with ctrs := homeOf [(7, k)] [] }
     handleScope h = 5 ∧ s.packageHome h = some (.die 0) ∧ (s.home (.die 0)).ctr (handleIndex h) = k ∧ k.gen = handleGen h ∧
     (∀ w ∈ (s.home (.die 0)).waiters, w.index ≠ handleIndex h) ∧ (s.home (.die 0)).waiters.length < waiterRoom (.die 0) ∧
     handleIndex h < 65536 ∧ k.value + (3 : Word).toNat < 2 ^ 64) := by
  refine ⟨by decide +kernel, by decide +kernel, by decide +kernel, by decide +kernel, by decide +kernel, by decide +kernel⟩

/-- A package in replay with one record at the head of its log. -/
def replayOf (source kind cycle now : Nat) (payload : List Byte) : State := { alone with
  cycle := now, mem := Memory.write [] (2 ^ 30) (logRecord cycle source kind payload), rpl := { Replay.reset with active := true, curMode := 2, base := 1 } }
theorem witness_LogAndFreeze :
    (∀ e ∈ [(0, 0, accessPayload (.raiseSvn 3)), (0, 32, accessPayload (.raiseSvn 3)), (2, 0, []), (3, 32, [1, 2, 3, 4])],
      let s := replayOf 221 e.1 0 e.2.1 e.2.2
      s.replaying = true ∧ s.rpl.frozen = false ∧ s.rpl.head < 2 ^ 34 ∧ s.logValid (s.logAt s.rpl.head) = true ∧
      (s.logAt s.rpl.head).kind = e.1 ∧ (e.1 = 0 → accessOf (s.logAt s.rpl.head).payload = some (.raiseSvn 3))) ∧
    (∀ m ∈ [1, 2], let s := { inMode m with cycle := 2 ^ 20 }
     s.rpl.active = true ∧ s.rpl.epoch + (Cells.get 0 s.rpl.checks 203 + 1) * 2 ^ 20 ≤ s.cycle ∧ s.rpl.curMode = m ∧ s.rpl.head + 32 < 2 ^ 34 ∧
     s.rpl.base * 2 ^ 30 + s.rpl.head + 32 ≤ dramSize ∧ s.rpl.frozen = false) ∧
    (replayOf 203 3 (2 ^ 20) (2 ^ 20) [0, 0, 0, 0]).logDigest 203 (2 ^ 20) 65536 0 = some (Cells.get 0 (inMode 2).rpl.digests 203) ∧
    (replayOf 203 3 (2 ^ 20) (2 ^ 20) [1, 0, 0, 0]).logDigest 203 (2 ^ 20) 65536 0 ≠ some (Cells.get 0 (inMode 2).rpl.digests 203) ∧
    (let s := { alone with rpl := { Replay.reset with armed := true, stopcyc := 1 } }
     s.rpl.armed = true ∧ s.rpl.frozen = false ∧ s.cycle < s.rpl.stopcyc ∧ s.rpl.stopcyc ≤ ({ s with cycle := 1 } : State).cycle) ∧
    alone.boot.tdi = .unlocked ∧ ((0x2002 : BitVec 64).toNat / 256 % 256 ≤ 32 ∧ (0x2002 : BitVec 64).toNat % 4 ≠ 3) ∧
    (32 < (0x2100 : BitVec 64).toNat / 256 % 256 ∧ (3 : BitVec 64).toNat % 4 = 3) ∧ (lockedOf alone .run).boot.tdi ≠ .unlocked := by
  refine ⟨by decide +kernel, by decide +kernel, by decide +kernel, by decide +kernel, by decide +kernel, by decide +kernel, by decide,
    by decide, by decide +kernel⟩

/-- A frozen package, its PCIe link up or down. -/
def frozenAt (up : Bool) (t : TdiState) : State := { alone with
  boot := { alone.boot with tdi := t }, links := { Links.reset with pup := up }, rpl := { Replay.reset with frozen := true } }
theorem witness_ScanAndAlignment :
    ((frozenAt true .run).boot.tdi ≠ .unlocked ∧ alone.rpl.frozen = false ∧
      ({ frozenAt true .unlocked with rpl := { Replay.reset with frozen := true, scanBusy := true } } : State).rpl.scanBusy = true) ∧
    (∀ up, (frozenAt up .unlocked).boot.tdi = .unlocked ∧ (frozenAt up .unlocked).rpl.frozen = true ∧ (frozenAt up .unlocked).rpl.scanBusy = false ∧
      (frozenAt up .unlocked).links.pup = up ∧ (frozenAt up .unlocked).rpl.scannedIn = false) ∧
    natOf ((frozenAt true .unlocked).hostMem.read 0x1000 4) ≠ 0x485A5343 ∧
    (let s := { frozenAt true .unlocked with rpl := { Replay.reset with frozen := true, scannedIn := true } }
     s.rpl.scannedIn = true ∧ s.rpl.mode ≠ 1) ∧
    (let s := { alone with rpl := { Replay.reset with syncPort := some 15, syncT1 := 7 } }
     s.rpl.syncPort = some 15 ∧ s.boot.tdi = .unlocked) ∧ alone.rpl.syncPort = none := by
  refine ⟨by decide +kernel, ?_, by decide +kernel, by decide +kernel, by decide +kernel, by decide +kernel⟩
  intro up
  cases up <;> decide +kernel

/-- A host whose memory holds an image's identity, with that image held. -/
theorem witness_ScanAndAlignment_image : ∀ l : List Byte,
    bytesOf 4 0x485A5343 ++ bytesOf 4 Config.scanVersion.toNat ++ bytesOf 8 Config.deviceSerial.toNat = l → l.length = 16 →
    (Memory.write [] 0x1000 l).read 0x1000 16 = l := by
  intro l _ h
  rw [← h]
  exact Memory.read_write [] 0x1000 l

/-- A sampled package: one crew in slot 0, its buffer at 0x1000. -/
def sampling (size : Nat) : State := { alone with
  crews := [(0, one)], fleet := { Fleet.reset with smpActive := true, smpBuf := 0x1000, smpSize := size, smpPeriod := 16 } }
theorem witness_SamplesPortsAndPower :
    (∀ size ∈ [0, 64], let s := sampling size
     s.fleet.smpActive = true ∧ s.fleet.smpBase + s.fleet.smpK * s.fleet.smpPeriod ≤ s.cycle ∧ s.crews = [] ++ (0, one) :: [] ∧
     (0 / 8 % 4 = s.fleet.smpK % 4 ∧ ∃ t ∈ one.threads, t.st ≠ .exited) ∧
     s.fleet.smpBuf + 32 * s.fleet.smpHead + 32 ≤ dramSize) ∧
    (32 * ((sampling 64).fleet.smpHead + 1) ≤ (sampling 64).fleet.smpSize ∧ (sampling 0).fleet.smpSize < 32 * ((sampling 0).fleet.smpHead + 1)) ∧
    (alone.fleet.smpActive = false ∧ alone.fleet.clockStopped = false ∧ alone.cox.groups = [] ∧ (∃ t ∈ [(839 : Int), 840], 840 ≤ t) ∧
      (∀ t ∈ [(839 : Int)], t < 840)) ∧
    (({ alone with fleet := { Fleet.reset with clockStopped := true } } : State).fleet.clockStopped = true ∧ (∀ t ∈ [(800 : Int)], t ≤ 800) ∧
      ∃ t ∈ [(801 : Int)], 800 < t) ∧
    (∀ v ∈ [4, 5], let h := handleOf 4 0 7 1
     let n : Notification := ⟨3, h, 5, 1⟩
     let s := ({ alone with cox := { Coxswain.reset with notes := [n] } } : State).setDie 0 { Die.reset with ctrs := homeOf [(7, ⟨v, true, 1, 0, 4⟩)] [] }
     s.cox.notes = n :: [] ∧ s.packageHome n.handle = some (.die 0) ∧ ((s.home (.die 0)).ctr (handleIndex n.handle)).live = true ∧
     ((s.home (.die 0)).ctr (handleIndex n.handle)).gen = handleGen n.handle ∧ ((s.home (.die 0)).ctr (handleIndex n.handle)).value = v) := by
  refine ⟨?_, by decide +kernel, by decide +kernel, by decide +kernel, ?_⟩
  · intro v hv
    simp only [List.mem_cons, List.not_mem_nil, or_false] at hv
    rcases hv with rfl | rfl <;> decide +kernel
  · intro v hv
    simp only [List.mem_cons, List.not_mem_nil, or_false] at hv
    rcases hv with rfl | rfl <;> decide +kernel

theorem witness_SoftErrors :
    (let c := { one with streams := [Stream.reset, Stream.reset] }
     let s := mach c [0]
     s.crew? 0 = some c ∧ 1 < c.streams.length ∧ 1023 < 1024) ∧ (∀ w ∈ (alone.die 0).ctrs.waiters, w.index ≠ 7) ∧ 2 ^ 24 - 1 < 2 ^ 24 ∧
    (ErrorSite.register 0 5 = .register 0 5 ∧ ErrorSite.dramLine 4096 = .dramLine 4096) := by
  refine ⟨⟨rfl, by decide, by decide⟩, by decide +kernel, by decide, rfl, rfl⟩

/-! ## Service calls -/

/-- A block without CNT, with the arguments from offset 16. -/
def block (args : List Byte) : List Byte := List.replicate 16 0 ++ args ++ List.replicate (48 - args.length) 0
/-- The block at an address, whose call the host has posted. -/
def callAt (a n : Nat) : Call := ⟨n, BitVec.ofNat 64 a, none, 0⟩
def posting (n : Nat) (b : List Byte) : State := { alone with
  mem := Memory.write [] 0x1000 b, cox := { Coxswain.reset with hostq := [callAt 0x1000 n] } }
/-- `Posted` in a decidable form. -/
abbrev Posting (s : State) (n : Nat) (b : List Byte) : Prop := s.nextCall = some (callAt 0x1000 n) ∧ s.poison = [] ∧
  s.mem.read 0x1000 64 = b ∧ blk b 0 8 = 0 ∧ blk b 13 3 = 0 ∧ blk b 12 1 < 16 ∧ s.boot.tdi = .unlocked ∧
  s.inOverflow (callAt 0x1000 n).block.toNat = false
theorem posted {n : Nat} {b : List Byte} {s : State} (h : Posting s n b) : Posted s n (callAt 0x1000 n) b :=
  ⟨h.1, rfl, rfl, (by decide : (0x1000 : BitVec 64).toNat % 64 = 0), (by decide : (0x1000 : BitVec 64).toNat + 64 ≤ dramSize),
    h.2.2.2.2.2.2.2, by simp [h.2.1], h.2.2.1, h.2.2.2.1, h.2.2.2.2.1, h.2.2.2.2.2.1, h.2.2.2.2.2.2.1⟩
/-- Arenas of context 0: 2 MiB at 2 MiB, its first kilobyte given out. -/
def arenas : State := { posting 5 (block (bytesOf 8 129 ++ bytesOf 8 128)) with
  cox := { (posting 5 []).cox with arenas := [(0, ⟨2 ^ 21, 2 ^ 21, [(2 ^ 21, 1024)]⟩)] } }
/-- A call that a crew of context 0 has posted, its block at 0x40001000 of the mapped pages. -/
def devicePost (n : Nat) (priv : Bool) : State := { placed 0 with cox := { Coxswain.reset with deviceq := [⟨n, 0x40001000, some (0, priv), 0⟩] } }
theorem witness_CallFrameAndMemoryCalls :
    alone.nextCall.isNone = true ∧ ((posting 3 []).nextCall = some (callAt 0x1000 3) ∧ (callAt 0x1000 3).number ≠ 2) ∧
    Posting (posting 2 (block [])) 2 (block []) ∧ Posting (posting 48 (block [])) 48 (block []) ∧
    (let s := { alone with cox := { Coxswain.reset with hostq := [callAt dramSize 2] } }
     s.nextCall = some (callAt dramSize 2) ∧ s.boot.tdi ≠ .error ∧ (callAt dramSize 2).device = none ∧
     (callAt dramSize 2).block.toNat % 64 = 0 ∧ dramSize ≤ (callAt dramSize 2).block.toNat) ∧
    (let b := bytesOf 8 (handleOf 4 0 7 1).toNat ++ List.replicate 56 0
     let s := (posting 2 b).setDie 0 { Die.reset with ctrs := homeOf [(7, ⟨5, true, 1, 0, 4⟩)] [] }
     s.nextCall = some (callAt 0x1000 2) ∧ s.poison = [] ∧ s.mem.read 0x1000 64 = b ∧ BitVec.ofNat 64 (blk b 0 8) = handleOf 4 0 7 1 ∧
     s.packageHome (handleOf 4 0 7 1) = some (.die 0) ∧ ((s.home (.die 0)).ctr (handleIndex (handleOf 4 0 7 1))).live = true ∧
     ((s.home (.die 0)).ctr (handleIndex (handleOf 4 0 7 1))).gen = handleGen (handleOf 4 0 7 1) ∧ blk b 12 1 < 16 ∧ blk b 13 3 = 0 ∧
     (∀ w ∈ (s.home (.die 0)).waiters, w.index ≠ handleIndex (handleOf 4 0 7 1))) ∧
    (∀ b ∈ [block [], List.replicate 12 0 ++ [16] ++ List.replicate 51 0, List.replicate 15 0 ++ [1] ++ List.replicate 48 0],
      (posting 2 b).nextCall = some (callAt 0x1000 2) ∧ (posting 2 b).mem.read 0x1000 64 = b ∧ blk b 0 8 = 0) ∧
    (∀ n ∈ [1, 2], ∀ priv, let s := devicePost n priv
     s.nextCall = some ⟨n, 0x40001000, some (0, priv), 0⟩ ∧ (s.walk 0 0x40001000 .read).toOption.isSome = true ∧
     (s.walk 0 0x40001000 .read).toOption = (s.walk 0 0x40001000 .write).toOption ∧
     (s.walk 0 0x40001000 .read).toOption.map (fun g => g.pa + (0x40001000 - g.va)) = some 0x40001000 ∧ s.poison = [] ∧
     blk (s.mem.read 0x40001000 64) 0 8 = 0 ∧ blk (s.mem.read 0x40001000 64) 13 3 = 0 ∧
     (s.walk 0 0x100000000000 .read).toOption = none) ∧
    (Posting arenas 5 (block (bytesOf 8 129 ++ bytesOf 8 128)) ∧
      (Cells.get ⟨0, 0, []⟩ arenas.cox.arenas 0).allocs = [(2 ^ 21, 1024)]) ∧
    (∀ n ∈ [0, 1, 3, 4, 6, 7, 8, 9], Posting (posting n (block [])) n (block [])) := by
  refine ⟨?_, ?_, ?_, ?_, ?_, ?_, ?_, ?_, ?_, ?_⟩ <;> decide +kernel

/-- The handle of package counter 7 of C-die 0, generation 1, as an argument. -/
def handleArg : List Byte := block (bytesOf 8 (handleOf 4 0 7 1).toNat)
def withCounter (n : Nat) : State := (posting n handleArg).setDie 0 { Die.reset with ctrs := homeOf [(7, ⟨5, true, 1, 0, 4⟩)] [] }
theorem witness_CounterAndEventCalls :
    (∀ n ∈ [11, 12, 15], Posting (withCounter n) n handleArg ∧
      BitVec.ofNat 64 (blk handleArg 16 8) = handleOf 4 0 7 1 ∧ (withCounter n).packageHome (handleOf 4 0 7 1) = some (.die 0) ∧
      (((withCounter n).home (.die 0)).ctr (handleIndex (handleOf 4 0 7 1))).live = true ∧
      (((withCounter n).home (.die 0)).ctr (handleIndex (handleOf 4 0 7 1))).gen = handleGen (handleOf 4 0 7 1) ∧
      ∀ w ∈ ((withCounter n).home (.die 0)).waiters, w.index ≠ handleIndex (handleOf 4 0 7 1)) ∧
    (let b := block [5, 3]
     Posting (posting 10 b) 10 b ∧ Cells.canonical Counter.reset ((posting 10 b).die 3).ctrs.ctrs = true ∧
     (((posting 10 b).die 3).ctrs.ctr 0).live = false) ∧
    (let b := block [3]
     let s := { posting 13 b with cox := { (posting 13 b).cox with notes := [⟨3, 0, 5, 1⟩] } }
     Posting s 13 b ∧ ∃ n ∈ s.cox.notes, n.id = blk b 16 4) ∧
    (let b := block [3, 0, 255, 0]
     Posting (posting 14 b) 14 b ∧ blk b 16 1 < 4 ∧ blk b 18 2 ≤ 255 ∧ ((posting 14 b).die 3).pages ≤ blk b 18 2) ∧
    (let b := block (bytesOf 8 0x2000 ++ bytesOf 4 (2 ^ 20))
     Posting (posting 16 b) 16 b ∧ blk b 24 4 = 2 ^ 20) ∧
    (let b := block (bytesOf 8 (2 ^ 41 - 48))
     Posting (posting 18 b) 18 b ∧ blk b 16 8 + 48 ≤ dramSize) ∧
    (∀ v ∈ [63, 64, 255], Posting (posting 20 (block [6, v])) 20 (block [6, v])) ∧
    ∀ n ∈ [17, 19, 21], Posting (posting n (block [])) n (block []) := by
  refine ⟨?_, ?_, ?_, ?_, ?_, ?_, ?_, ?_⟩ <;> decide +kernel

/-- What lane 63 of a crew of 64 threads waits for: the answer to report 1. -/
def faultInfo : ReplayFault := ⟨0x03, 0x80000000, 2, 1, 1⟩
/-- That crew. -/
def reported : Crew := { probeCrew with threads := List.replicate 63 Thread.gone ++ [{ probeThread with st := .replay faultInfo }] }
def answering (yes : Nat) : State := { posting 22 (block (bytesOf 8 1 ++ [BitVec.ofNat 8 yes])) with
  mem := Memory.write (probeMemory [] []) 0x1000 (block (bytesOf 8 1 ++ [BitVec.ofNat 8 yes])), crews := [(0, reported)]
  cox := { (posting 22 []).cox with reports := [⟨1, 0, 0x80000000, 0x03, 2, 1, 0, 0, false⟩] } }
theorem witness_ContextCalls :
    (∀ yes ∈ [0, 1], let b := block (bytesOf 8 1 ++ [BitVec.ofNat 8 yes])
     let s := answering yes
     Posting s 22 b ∧ blk b 16 8 = 1 ∧ blk b 24 1 = yes ∧
     s.cox.reports = [] ++ ⟨1, 0, 0x80000000, 0x03, 2, 1, 0, 0, false⟩ :: [] ∧ s.crews = [(0, reported)] ∧ s.cores = [] ∧ s.dies = [] ∧
     s.rm.saved = [] ∧ reported.threads.length = 64 ∧ (reported.thread 63).st = .replay faultInfo ∧ faultInfo.report = 1 ∧
     (∀ n < 64, (reported.thread n).st = .replay faultInfo → n = 63) ∧ (∀ n < 63, (reported.thread n).st = .exited) ∧
     (reported.thread 63).trap = false ∧ reported.trapv = some 0x1000 ∧ (reported.thread 63).spillb.toNat % 64 = 0 ∧
     (s.check 0 reported ((reported.thread 63).spillb - 64) 64 .write).1.toOption.isSome = true) ∧
    (∀ n ∈ [23, 24, 25, 27], Posting (posting n (block [15])) n (block [15])) ∧
    (let s := { posting 26 (block [0]) with crews := [(0, one), (1, { one with ctx := 3 })] }
     Posting s 26 (block [0]) ∧ (∀ g ∈ s.rm.grids, g.ctx = 0 → g.done = 0) ∧ (s.crews.map (·.1)).Nodup) ∧
    (∀ w ∈ [0x00000013, 0x00000000], let b := block ([15, 63, 1, 0, 0, 0, 0, 0] ++ bytesOf 8 0x2000)
     let s := { posting 28 b with mem := ((posting 28 b).mem).write 0x2000 (bytesOf 4 w) }
     Posting s 28 b ∧ natOf (s.mem.read 0x2000 4) = w ∧ blk b 18 1 = 1 ∧ blk b 24 8 = 0x2000) ∧
    Posting (posting 29 (block [15, 63])) 29 (block [15, 63]) ∧
    (let b := block (bytesOf 4 7 ++ bytesOf 4 4096 ++ bytesOf 8 0x2000)
     Posting (posting 30 b) 30 b ∧ blk b 20 2 = 4096 ∧ blk b 24 8 + 4 * 4096 ≤ dramSize) ∧
    (let b := block []
     (∀ n ∈ [31, 32], let s := { collState collOf [] with mem := Memory.write [] 0x1000 b, cox := { (posting n []).cox with groups := [⟨0, [(0, 0)]⟩] } }
      Posting s n b ∧ (∃ g ∈ s.cox.groups, g.id = blk b 16 4) ∧
      (s.die 0).collq = [] ++ collOf :: [] ∧ (∀ e < 4, e ≠ 0 → (s.die e).collq = []) ∧
      collOf.group = blk b 16 4 ∧ collOf.seq = blk b 20 4 ∧ collOf.started = false ∧ s.crew? collOf.slot = some one ∧ one.efault = none ∧
      ∀ l < 64, ((one.thread l).st matches .waitTicket _ _ _) = false)) := by
  refine ⟨?_, ?_, ?_, ?_, ?_, ?_, ?_⟩ <;> decide +kernel

theorem witness_FleetCalls :
    (∀ n ∈ [33, 36, 37, 39, 41, 42, 43, 46], Posting (posting n (block [])) n (block [])) ∧
    (∀ v ∈ [(47 : Byte), 48], let b := block ([3] ++ List.replicate 7 0 ++ bytesOf 8 0x2000)
     let s := { posting 34 b with mem := (posting 34 b).mem.write 0x2000 [v] }
     Posting s 34 b ∧ (s.mem.read 0x2000 768).all (fun x => decide (x.toNat < 48)) = (v == 47) ∧ (s.die 3).pending = none) ∧
    (let b := block [191, 0]
     Posting (posting 35 b) 35 b ∧ ((posting 35 b).die 3).pending = none ∧ ((posting 35 b).slice 191).serving = [] ∧
     ((posting 35 b).slice 144).retired = false) ∧
    (let b := block (bytesOf 8 (2 ^ 41 - 64) ++ bytesOf 4 64 ++ bytesOf 4 16)
     Posting (posting 38 b) 38 b ∧ blk b 16 8 + blk b 24 4 ≤ dramSize ∧ (posting 38 b).fleet.smpActive = false) ∧
    (∀ v ∈ [599, 600, 2600, 2601], Posting (posting 40 (block (bytesOf 4 v))) 40 (block (bytesOf 4 v))) ∧
    (∀ v ∈ [0, 2, 5, 6], let b := block (bytesOf 8 0x2000 ++ [v])
     Posting (posting 44 b) 44 b ∧ blk b 16 8 + 64 ≤ dramSize ∧ blk b 24 1 = v.toNat) ∧
    Posting (posting 45 (block [])) 45 (block []) ∧
    (let b := block (bytesOf 8 0x2000 ++ bytesOf 4 512)
     Posting (posting 47 b) 47 b ∧ blk b 16 8 + blk b 24 4 ≤ dramSize) := by
  refine ⟨?_, ?_, ?_, ?_, ?_, ?_, ?_, ?_⟩ <;> decide +kernel

/-! ## The machine as a whole -/

theorem witness_DecodeOfEncode : (Instr.st64 0 46 34 7).wellFormed = true ∧ (encode (.st64 0 46 34 7)).isSome = true := by decide +kernel
theorem witness_EncodeOfDecode : (decode 0x641ACA00).toOption.isSome = true := by decide +kernel
theorem witness_StepKeepsMemories : (placed 0x08165801).Inv ∧ ((step { placed 0x08165801 with agenda := [.issue 0] }) matches .next _) = true := by
  refine ⟨⟨?_, ?_⟩, ?_⟩ <;> decide +kernel

theorem witness_StepRunsTheWord :
    let s := State.reset.withFetchWord 32 0x08165801
    let s0 := ({ s with agenda := [] } : State).refresh
    let c := (s0.crew? 0).getD probeCrew
    s.agenda = .issue 0 :: [] ∧ s0.running = true ∧ (s0.core 0).preempt = false ∧ (s0.core 0).stopped = false ∧ (s0.core 0).ldet = false ∧
    (s0.context c.ctx).held = false ∧ c.startAt ≤ s0.cycle ∧ (s0.sub 0).forced = none ∧ s0.crew? 0 = some c ∧
    earliestOf (s0.subCrews 0) = some 0 ∧ c.fetched = none ∧ c.lowestPc = some 0 ∧ c.runAt 0 = [0] ∧ (∀ l ∈ c.runAt 0, l ∉ c.badLanes) ∧
    c.codeAddr 0 % 4 = 0 ∧ (s0.codePlace 0 c (c.codeAddr 0)).1.toOption = some 0x40000000 ∧ 0x40000000 < dramSize ∧
    (let s1 := (s0.codePlace 0 c (c.codeAddr 0)).2
     Cells.find (s1.core 0).icache (0x40000000 / 128 * 128) = none ∧
     ((s1.codeWord 0 0x40000000).2.holdOf 0 c [0] (.addImm 0 22 22 1)).isNone = true) ∧
    natOf (s.mem.read 0x40000000 4) = (0x08165801 : BitVec 32).toNat ∧ (decode 0x08165801).toOption = some (.addImm 0 22 22 1) := by
  refine ⟨rfl, ?_, ?_, ?_, ?_, ?_, ?_, ?_, ?_, ?_, ?_, ?_, ?_, ?_, ?_, ?_, ?_, ⟨?_, ?_⟩, ?_, ?_⟩ <;> decide +kernel

theorem witness_UniformRegisterWidths : 48 ≤ (48 : Reg).toNat ∧ (63 : Reg) ≠ 48 ∧ 48 ≤ (63 : Reg).toNat := by decide
theorem witness_LinkdownEnds :
    let s := { alone with links := { Links.reset with pup := true, cup := true, pld := true, cld := true } }
    s.boot.tdi = .unlocked ∧ (3 : BitVec 64).getLsbD 0 = true ∧ (3 : BitVec 64).getLsbD 1 = true ∧ s.links.pup = true ∧ s.links.cup = true ∧
    alone.links.pup = false ∧ (0 : BitVec 64).getLsbD 0 = false := by decide +kernel
theorem witness_ScansUnderLock : ∀ t ∈ [TdiState.locked, .run, .error], ∀ off ∈ [0x300000, 0x300030, 0x300040],
    let s := lockedOf (presenting (.bar0Write off 1 true) 33) t
    s.boot.tdi ≠ .unlocked ∧ s.boot.stage = 0 ∧ s.boot.lockstep = false ∧ s.rpl.arrivals = [⟨203, .bar0Write off 1 true, 0⟩] ∧
    s.fleet.clockStopped = false ∧ 0 + 33 ≤ s.cycle := by decide +kernel

/-! ## Completion on the state alone -/

/-- A carousel block within the accumulator store: one row of 64 bytes an item, two items, one slot. -/
def accCarousel : List Byte := bytesOf 8 0 ++ bytesOf 8 128 ++ bytesOf 8 0x20000000FF000001 ++ bytesOf 4 64 ++ bytesOf 2 1 ++
  bytesOf 2 2 ++ bytesOf 2 1 ++ bytesOf 2 0 ++ List.replicate 16 0 ++ bytesOf 8 0x20000000FF000001 ++ bytesOf 4 69
theorem witness_FormsComplete_branches :
    ((alone.Runs one ∧ alone.Plain one) ∧ ∀ l ∈ alone.activeLanes one 0,
      (one.thread l).trap = false ∧ (one.thread l).depth + 2 ≤ 5 + (one.thread l).lo ∧ (one.thread l).depth ≤ 1020) ∧
    (let c := withThread { probeThread with depth := 1 }
     ((mach c [0]).Runs c ∧ (mach c [0]).Plain c) ∧ ∀ l ∈ (mach c [0]).activeLanes c 0, (c.thread l).trap = false ∧
       (c.thread l).lo < (c.thread l).depth ∧ ((c.thread l).get ((c.thread l).entry 31)).toNat % 4 = 0) ∧
    (landing.Runs brancher ∧ landing.Plain brancher ∧ landing.activeLanes brancher 0 = [0] ∧
      ((landing.landing 0 brancher (brancher.read64 (brancher.thread 0) 2) 0).1 matches .ok 0) = true ∧
      ((landing.landing 0 brancher (brancher.read64 (brancher.thread 0) 2) 1).1 matches .ok 0) = true ∧
      (brancher.thread 0).trap = false ∧ (brancher.thread 0).depth + 2 ≤ 5 + (brancher.thread 0).lo ∧ (brancher.thread 0).depth ≤ 1020) :=
  ⟨⟨⟨ready.1, ready.2.1⟩, by decide +kernel⟩, ⟨readyWith _ rfl, by decide +kernel⟩,
   ⟨runs_of (by decide +kernel), (by decide +kernel : ∀ l ∈ [0], (brancher.thread l).hints.immx = none), by decide +kernel,
    by decide +kernel, by decide +kernel, by decide +kernel⟩⟩
theorem witness_FormsComplete_requests :
    (∀ kind ∈ [StepKind.eret, .fillf, .launch 0x50000000], let b := List.replicate 64 (0 : Byte)
     let s := steppingIn kind [(0, .bytes b)]
     s.crew? 0 = some (stepping kind [(0, .bytes b)]) ∧ (stepping kind [(0, .bytes b)]).steps = [⟨4, kind, [0], 0, 0, [], [], [(0, .bytes b)]⟩] ∧
     natOf ((b.drop 16).take 4) % 4 = 0 ∧ natOf ((b.drop 24).take 1) < 32 ∧
     s.rm.grids = [⟨0, 0, 0, 0, none, 0, 0, 0, 0, [], true, 1, 0, 0, true⟩]) ∧
    (let s := serving .store (.load 0 2 false) false
     let n := s.homeSlice 0
     s.slices = [(n, s.slice n)] ∧ (s.slice n).ingress = asked (.load 0 2 false) :: [] ∧ (s.slice n).mshr = [] ∧ (s.slice n).serving = [] ∧
     ((s.slice n).line 0).present = false ∧ (s.slice n).off = false ∧ n = s.homeSlice (asked (.load 0 2 false)).line ∧
     (asked (.load 0 2 false)).line < hostBase ∧ (0 : Nat) ∉ s.poison ∧
     ((s.setSlice n { Slice.reset with mshr := [(0, [asked (.load 0 2 false)])] }).slice n).mshr = [(0, [asked (.load 0 2 false)])]) ∧
    (∀ b, let s := alone.setCore 0 { Core.reset with retry := [⟨request 0, b, 0⟩] }
     (s.core 0).retry = [⟨request 0, b, 0⟩] ∧ (request 0).core = 0 ∧ 0 ≤ s.cycle ∧ (s.slice (s.firstSlice (request 0))).ingress = []) ∧
    (∀ op ∈ [EntryOp.atom 0 false true, .atomr 0], let s := { atSlice op [] with cox := { Coxswain.reset with routines := [(0, [0x00150513])] } }
     let n := s.homeSlice 0
     let e := entryOf 1 op .global true
     s.crew? 0 = some (served op) ∧ (s.slice n).serving = [⟨asked (.entry 0 1)⟩] ∧ (served op).entry? e.id = some e ∧
     e.items = [⟨0, 0, 0, 7, 0, .discard, {}⟩] ∧ e.line = 0 ∧ (s.slice n).replay = [] ∧ e.line ∉ s.poison ∧ e.size = 4 ∧
     Cells.find s.cox.routines (64 * (served op).ctx + 0) = some [0x00150513]) ∧
    (let l := { loadOf [laneLoad .discard] 0 with space := .deck 0 }
     let s := (mach { one with loads := [l] } []).setCore 0 { Core.reset with deckq := [.load 0 2] }
     (s.core 0).deckq = [.load 0 l.id] ∧ s.crew? 0 = some { one with loads := [l] } ∧ l.space = .deck 0 ∧ (s.core 0).badDeck = []) ∧
    (let s := (serving (.mcast 0) (.entry 0 1) true).setSlice 7 { Slice.reset with mcast := [⟨0, [(0, 1, 0)], [(1, 0, 0)]⟩] }
     (s.slice 7).mcast = [⟨0, [(0, 1, 0)], [(1, 0, 0)]⟩] ∧ (0 : Nat) ∉ s.poison) := by
  refine ⟨?_, by decide +kernel, ?_, ?_, by decide +kernel, by decide +kernel⟩
  · intro kind hk
    simp only [List.mem_cons, List.not_mem_nil, or_false] at hk
    rcases hk with rfl | rfl | rfl <;> decide +kernel
  · intro b
    cases b <;> decide +kernel
  · intro op ho
    simp only [List.mem_cons, List.not_mem_nil, or_false] at ho
    rcases ho with rfl | rfl <;> decide +kernel
/-- A core whose crew has commands in its channel 0 and its matrix FIFO, in the second cycle. -/
def engined (x : CopyCmd) (m : List MatrixCmd) : State := { alone with
  cycle := 1, cores := [(0, { Core.reset with copyq := [(0, [x])], matrixq := m, ctrs := homeOf [(255, ⟨5, true, 1, 0, 1⟩)] [] })] }
theorem witness_FormsComplete :
    (∀ x ∈ [copying accCopy, { copying accCopy with moved := true }, copying accCarousel, { copying accCarousel with started := true },
       { copying accCarousel with itemMoved := true }],
     ∀ m ∈ [mxOf none 0 0, { mxOf none 0 0 with started := true, done := true }], let s := engined x [m]
     let b := copyBlock x.block
     s.crew? 0 = some one ∧ coreOf 0 = 0 ∧ one.fifo = [] ∧ one.early = [] ∧ one.done = [0, 0, 0] ∧ (s.core 0).preempt = false ∧
     (s.core 0).stopped = false ∧ (s.core 0).badAcc = [] ∧ (s.core 0).beats = [] ∧ s.cores = [(0, s.core 0)] ∧ s.links.pcie = [] ∧
     (s.core 0).channel 0 = [x] ∧ x.slot = 0 ∧ x.ticket = 1 ∧ x.held = none ∧ x.part = none ∧ x.pcieWrites = false ∧ x.row = 0 ∧
     b.srck = 1 ∧ b.dstk = 1 ∧ b.c1 = 1 ∧ b.c3 = 1 ∧ b.split = 0 ∧ (b.car = true → s.reach 0 one b.cnt = some (.core 0) ∧
       s.reach 0 one b.freed = some (.core 0) ∧ (s.core 0).ctrs.stale b.cnt = false ∧ (s.core 0).ctrs.stale b.freed = false ∧
       (s.core 0).ctrs.waiters = [] ∧ (s.core 0).ctrs.served = (0, 0) ∧ 0 < s.cycle ∧
       x.i0 + x.item + 1 ≤ ((s.core 0).ctrs.ctr (handleIndex b.freed)).value + b.c3) ∧
     (s.core 0).matrixq = [m] ∧ m.slot = 0 ∧ m.ticket = 1 ∧ m.held = none ∧ m.table = none ∧ m.pcieWrites = false ∧ m.bias = [] ∧
     (mxBlock m.block).ctrl.testBit 1 = false ∧ (mxBlock m.block).cnt = 0) ∧
    (let k := (alone.setCore 5 { Core.reset with preempt := true }).core 5
     k.preempt = true ∧ k.stopped = false ∧ k.streamq = [] ∧ k.copyq = [] ∧ k.matrixq = []) ∧
    (let s := recordIn record
     let f := launchOf record
     s.rm.queues = [(0, s.queue 0)] ∧ (s.queue 0).children = [] ∧ (s.queue 0).records = [⟨record, 0, .window 0, 0⟩] ∧ s.rm.grids = [] ∧
     f.reserved = false ∧ f.streams ≤ 8 ∧ f.deck ≤ 4096 * 128 ∧ f.crews * f.streams ≤ 32 ∧ f.teams ≠ 0 ∧ f.cluster = false ∧ f.done = 0 ∧
     f.deps = [] ∧ f.crews ≤ (s.context (s.queue 0).ctx).pcrews ∧ 1 ≤ f.crews ∧ f.crews ≤ 32) ∧
    ((pending [] false).unmet = [] ∧ (gridIn (pending [] true) 0).rm.queues = [] ∧
      (launchOf (pending [] true).bits).teams = (pending [] true).exited ∧ (pending [] true).parent = none ∧
      ({ gridIn (pending [(0, handleOf 4 0 0 1, 3)] false) 0 with msgs := [(1, .dependenceWake 0 0 9 true)] } : State).depWake 0 0 = some (9, true)) ∧
    (let s := dispatching
     s.rm.areas = [] ∧ (s.context 0).held = false ∧ (s.context 0).saving = false ∧ s.rm.saved = [] ∧ s.crews = [] ∧
     (s.core 0).freeAt ≤ s.cycle ∧ (s.core 0).placed = [] ∧ (launchOf record).crews ≤ (s.context 0).pcrews ∧
     s.rm.grids = [{ pending [] true with exited := 0 }] ∧ (pending [] true).dispatched < (launchOf record).teams) ∧
    (let s := mach ended []
     s.crews = [(0, ended)] ∧ (s.core 0).streamq = [] ∧ ended.fifo = [] ∧ ended.ctrOps = [] ∧ s.rm.saved = [] ∧
     ended.threads.all (fun t => t.st == .exited) = true ∧ ended.done = ended.issued) ∧
    (let s := expired true
     s.crews = [(0, one)] ∧ one.threads.any (fun t => t.st != .exited) = true ∧ (s.core 0).preempt = true ∧ (s.core 0).stopped = true ∧
     (s.core 0).streamq = [] ∧ (s.core 0).deckq = [] ∧ (s.core 0).beats = [] ∧ one.loads = [] ∧ one.steps = [] ∧ one.ctrOps = [] ∧ s.msgs = [] ∧
     s.links.pcie = [] ∧ (s.die 0).collq = [] ∧ s.cores = [(0, s.core 0)] ∧ one.cluster = false ∧ s.rm.saved = []) := by
  refine ⟨?_, by decide +kernel, by decide +kernel, by decide +kernel, by decide +kernel, by decide +kernel, by decide +kernel⟩
  intro x hx m hm
  simp only [List.mem_cons, List.not_mem_nil, or_false] at hx hm
  rcases hx with rfl | rfl | rfl | rfl | rfl <;> rcases hm with rfl | rfl <;> decide +kernel

end Sys2Proof.Tests
end

section
/-! The counter window (R95): which adds a counter takes, and what an add does at a die that nothing waits at. -/

namespace Sys2Proof.Machine

/-! ## Handles -/

/-- The index of a handle made of its fields (R72). -/
theorem handleIndex_handleOf (scope home index gen : Nat) (h : index < 2 ^ 24) :
    handleIndex (handleOf scope home index gen) = index := by
  simp only [handleIndex, handleOf, field, BitVec.toNat_ofNat]
  omega

/-! ## An add at a die -/

@[simp] theorem State.home_die (s : State) (d : Nat) : s.home (.die d) = (s.die d).ctrs := rfl

@[simp] theorem State.setHome_die_die (s : State) (d n : Nat) (v : CtrHome) :
    (s.setHome (.die d) v).die n = if n = d then { s.die d with ctrs := v } else s.die n :=
  State.die_setDie ..

/-- A wake check that meets no waiter puts the home back as it was (R86). -/
theorem State.wakeCheck_unwaited (s : State) (r : HomeRef) (i : Nat) (h : ∀ x ∈ (s.home r).waiters, x.index ≠ i) :
    s.wakeCheck r i = s.setHome r (s.home r) := by
  have met : (s.home r).waiters.filter
      (fun w => w.index == i && decide (w.threshold ≤ ((s.home r).ctr i).value)) = [] := by
    rw [List.filter_eq_nil_iff]
    intro x hx
    simp [h x hx]
  have kept : (s.home r).waiters.filter
      (fun w => !(w.index == i && decide (w.threshold ≤ ((s.home r).ctr i).value))) = (s.home r).waiters := by
    rw [List.filter_eq_self]
    intro x hx
    simp [h x hx]
  simp only [State.wakeCheck, met, kept, List.foldl_nil, List.map_nil, List.append_nil]
  cases r <;> rfl

/-- An add at a die without a waiter for the counter: the counter's new value and time, the other dies and the rest of the
package as they were. -/
theorem State.applyAdd_die (s : State) (d : Nat) (h : DWord) (inc lts : Nat) (k : Counter)
    (hk : (s.die d).ctrs.ctr (handleIndex h) = k) (hw : ∀ x ∈ (s.die d).ctrs.waiters, x.index ≠ handleIndex h) :
    ∃ t, s.applyAdd (.die d) h inc lts = (k.value, decide (ctrMax < k.value + inc), t) ∧
      (t.die d).ctrs.ctr (handleIndex h) = { k with value := min ctrMax (k.value + inc), lts := max k.lts lts } ∧
      (∀ n, n ≠ d → t.die n = s.die n) ∧ t = { s with dies := t.dies } := by
  subst hk
  refine ⟨_, rfl, ?_, fun n hn => ?_, ?_⟩ <;>
    rw [State.wakeCheck_unwaited _ _ _ (by simpa [CtrHome.add, CtrHome.setCtr] using hw)]
  · simp [CtrHome.add, CtrHome.ctr, CtrHome.setCtr]
  · simp [hn]
  · rfl

/-! ## Adds through the window -/

/-- A counter takes a window add of a word (R95): it is live, of package or system scope, of the generation that the word
names, and the word's RES0 bits are 0. -/
def Counter.Takes (k : Counter) (w : BitVec 64) : Prop :=
  k.live = true ∧ (k.scope = 4 ∨ k.scope = 5) ∧ w.toNat / 2 ^ 32 % 2 ^ 24 = k.gen ∧ w.toNat / 2 ^ 56 = 0

theorem Counter.hostReach_iff (k : Counter) : k.hostReach = true ↔ k.scope = 4 ∨ k.scope = 5 := by
  simp [Counter.hostReach]

/-- The bits [63:56] of a 64-bit word. -/
theorem field_top (w : BitVec 64) : field w.toNat 56 8 = w.toNat / 2 ^ 56 := by
  have := w.isLt
  simp only [field]
  omega

/-- The model's test of a window add says whether the counter takes it. -/
theorem Counter.takes_iff (k : Counter) (w : BitVec 64) :
    (!k.live || !k.hostReach || k.gen != field w.toNat 32 24 || field w.toNat 56 8 != 0) = false ↔ k.Takes w := by
  rw [field_top]
  simp only [Bool.or_eq_false_iff, Bool.not_eq_false', bne_eq_false_iff_eq, Counter.hostReach_iff, Counter.Takes, field,
    eq_comm (a := k.gen), and_assoc]

/-- An add that its counter takes goes to the die with the largest write time of the host's earlier writes (log 32). -/
theorem State.windowAdd_taken (s : State) (source die i : Nat) (w : BitVec 64) (h : (s.dieCtr die i).Takes w) :
    s.windowAdd source die i w =
      let q := s.unitAdd (.logged source 0xFF) (.die die) (s.dieHandle die i) (w.toNat % 2 ^ 32) s.links.hostTime
      if q.1 then q.2.event source 16 0xFF (bytesOf 8 (s.dieHandle die i).toNat) else q.2 := by
  have hi : field w.toNat 0 32 = w.toNat % 2 ^ 32 := by simp [field]
  simp only [State.windowAdd, (Counter.takes_iff _ _).2 h, hi, Bool.false_eq_true, ↓reduceIte]

/-- An add that its counter does not take is dropped and logged (R95). -/
theorem State.windowAdd_dropped (s : State) (source die i : Nat) (w : BitVec 64) (h : ¬(s.dieCtr die i).Takes w) :
    s.windowAdd source die i w = s.event source 16 0xFF (bytesOf 8 (s.dieHandle die i).toNat) := by
  rw [← Counter.takes_iff, Bool.not_eq_false] at h
  simp only [State.windowAdd, h, ↓reduceIte]

/-- An add below saturation to a counter of the die's own table that nothing waits for (R79, R95). -/
theorem State.windowAdd_counter (s : State) (source die i : Nat) (w : BitVec 64) (h : (s.dieCtr die i).Takes w)
    (hi : i < 65536) (hv : (s.dieCtr die i).value + w.toNat % 2 ^ 32 < 2 ^ 64)
    (hw : ∀ x ∈ (s.die die).ctrs.waiters, x.index ≠ i) :
    let t := s.windowAdd source die i w
    (t.die die).ctrs.ctr i = { s.dieCtr die i with
      value := (s.dieCtr die i).value + w.toNat % 2 ^ 32, lts := max (s.dieCtr die i).lts s.links.hostTime } ∧
    (∀ d, d ≠ die → t.die d = s.die d) ∧ t = { s with dies := t.dies } := by
  have hx : handleIndex (s.dieHandle die i) = i := handleIndex_handleOf _ _ _ _ (by omega)
  have hk : (s.die die).ctrs.ctr (handleIndex (s.dieHandle die i)) = s.dieCtr die i := by rw [hx]; rfl
  obtain ⟨t, ha, hc, ho, hr⟩ :=
    s.applyAdd_die die (s.dieHandle die i) (w.toNat % 2 ^ 32) s.links.hostTime _ hk (by rwa [hx])
  have hs : ¬ ctrMax < (s.dieCtr die i).value + w.toNat % 2 ^ 32 := by simp only [ctrMax]; omega
  have he : s.windowAdd source die i w = t := by
    simp only [State.windowAdd_taken s source die i w h, State.unitAdd, overflowAt, hx, Nat.not_le.2 hi, ha, hs, decide_false,
      Bool.false_eq_true, ↓reduceIte]
  rw [hx, Nat.min_eq_right (by omega)] at hc
  rw [he]
  exact ⟨hc, ho, hr⟩

/-- An add to an overflow counter waits 220 c at the die's engine (R87, R95). -/
theorem State.windowAdd_overflow (s : State) (source die i : Nat) (w : BitVec 64) (h : (s.dieCtr die i).Takes w)
    (hi : 65536 ≤ i) (hl : i < 2 ^ 24) :
    s.windowAdd source die i w = s.modDie die fun x => { x with overflow := x.overflow ++
      [⟨.add (.logged source 0xFF) (s.dieHandle die i) (w.toNat % 2 ^ 32) s.links.hostTime, s.cycle + 220⟩] } := by
  have hx : handleIndex (s.dieHandle die i) = i := handleIndex_handleOf _ _ _ _ hl
  simp only [State.windowAdd_taken s source die i w h, State.unitAdd, overflowAt, hx, hi, decide_true, ↓reduceIte,
    Bool.false_eq_true, State.takeLate]

end Sys2Proof.Machine
end

section
/-! The device memory as the host reads and writes it (R279, R341, R344): the lines it names, and a write's bytes and times. -/

namespace Sys2Proof.Machine

/-! ## Overflow pages -/

/-- A value found in a table is listed there. -/
theorem Cells.mem_of_find {α : Type} {m : List (Nat × α)} {k : Nat} {v : α} (h : Cells.find m k = some v) : (k, v) ∈ m := by
  induction m with
  | nil => simp at h
  | cons e t ih =>
    by_cases he : e.1 = k
    · simp only [Cells.find, he, ↓reduceIte, Option.some.injEq] at h
      simp [← he, ← h]
    · simp only [Cells.find, he, ↓reduceIte] at h
      exact List.mem_cons_of_mem _ (ih h)

/-- A die with overflow pages is one of those that the state lists: at reset a die has none. -/
theorem State.listed_of_pages {s : State} {d : Nat} (h : (s.die d).pages ≠ 0) :
    (s.dies.any fun e => e.2.pages != 0) = true := by
  cases hf : Cells.find s.dies d with
  | none => simp [State.die, Cells.get, hf, Die.reset] at h
  | some v =>
    have hv : s.die d = v := by simp [State.die, Cells.get, hf]
    exact List.any_eq_true.2 ⟨(d, v), Cells.mem_of_find hf, by simpa [hv] using h⟩

/-- An address lies in an overflow page that its die has been granted (R74). -/
theorem State.inOverflow_iff (s : State) (a : Nat) :
    s.inOverflow a = true ↔ ∃ d n, Config.overflowPage (a / 0x200000) = some (d, n) ∧ n < (s.die d).pages := by
  unfold State.inOverflow
  cases ho : Config.overflowPage (a / 0x200000) with
  | none => simp
  | some p =>
    simp only [Bool.and_eq_true, decide_eq_true_eq, Option.some.injEq]
    constructor
    · exact fun h => ⟨p.1, p.2, rfl, h.2⟩
    · rintro ⟨d, n, rfl, hn⟩
      exact ⟨State.listed_of_pages (Nat.ne_zero_of_lt hn), hn⟩

/-- Dies of the same pages hold the same overflow pages. -/
theorem State.inOverflow_congr {s t : State} (h : ∀ d, (t.die d).pages = (s.die d).pages) (a : Nat) :
    t.inOverflow a = s.inOverflow a := by
  rw [Bool.eq_iff_iff, State.inOverflow_iff, State.inOverflow_iff]
  simp only [h]

/-! ## The lines of a range -/

theorem mem_upFrom (m n k : Nat) : m ∈ upFrom n k ↔ n ≤ m ∧ m < n + k := by
  induction k generalizing n with
  | zero => simp only [upFrom, List.not_mem_nil, false_iff]; omega
  | succ k ih => rw [upFrom, List.mem_cons, ih]; omega

/-- The lines of a range are those that share a byte with it. -/
theorem mem_linesOf (a n x : Nat) :
    x ∈ linesOf a n ↔ 0 < n ∧ ∃ l, x = l * 128 ∧ l * 128 < a + n ∧ a < l * 128 + 128 := by
  by_cases hn : n = 0
  · simp [linesOf, hn]
  · simp only [linesOf, hn, ↓reduceIte, List.mem_map, mem_upFrom]
    constructor
    · rintro ⟨l, hl, rfl⟩
      exact ⟨by omega, l, by omega, by omega, by omega⟩
    · rintro ⟨-, l, rfl, hl⟩
      exact ⟨l, by omega, by omega⟩

/-- Whether a host read's answer is marked poisoned (R344, R283): a line of it is poisoned or lies in an overflow page. -/
theorem State.badLine_iff (s : State) (a n : Nat) :
    ((linesOf a n).any fun l => s.poisoned l || s.inOverflow l) = true ↔
      0 < n ∧ ∃ l, (l * 128 ∈ s.poison ∨ s.inOverflow (l * 128) = true) ∧ l * 128 < a + n ∧ a < l * 128 + 128 := by
  have hp (l : Nat) : s.poisoned (l * 128) = true ↔ l * 128 ∈ s.poison := by
    rw [State.poisoned, show lineOf (l * 128) = l * 128 by simp [lineOf], List.contains_iff_mem]
  simp only [List.any_eq_true, mem_linesOf, Bool.or_eq_true]
  constructor
  · rintro ⟨_, ⟨hn, l, rfl, hl⟩, hb⟩
    exact ⟨hn, l, by rwa [← hp], hl⟩
  · rintro ⟨hn, l, hb, hl⟩
    exact ⟨_, ⟨hn, l, rfl, hl⟩, by rwa [hp]⟩

/-- Device lines used one after another: lines move, and that is all. -/
theorem State.useLines_moves (s : State) (l : List Nat) (own : Bool) (h : ∀ x ∈ l, x < hostBase) :
    LinesMove s (l.foldl (fun s x => s.useLine x own) s) := by
  induction l generalizing s with
  | nil => exact LinesMove.refl s
  | cons x t ih =>
    exact (s.useLine_moves x own (h x (by simp))).trans (ih _ fun y hy => h y (by simp [hy]))

theorem bytesOf_zero (n : Nat) : bytesOf n 0 = List.replicate n 0 := by
  induction n with
  | zero => rfl
  | succ n ih => rw [bytesOf, Nat.zero_div, ih, List.replicate_succ]; rfl

/-! ## A write at one home -/

/-- A line has one home while the dies' maps stay. -/
theorem State.homeSlice_congr {s t : State} (h : ∀ d, (t.die d).map = (s.die d).map) (a : Nat) :
    t.homeSlice a = s.homeSlice a := by
  simp only [State.homeSlice, Die.mapped, h]

theorem StoredAt.map {a : Nat} {s t : State} (h : StoredAt a s t) (d : Nat) : (t.die d).map = (s.die d).map := by
  rw [h.dies d]

@[simp] theorem State.homeSlice_setSlice (s : State) (n : Nat) (v : Slice) (a : Nat) :
    (s.setSlice n v).homeSlice a = s.homeSlice a := rfl

@[simp] theorem State.line_modLine (s : State) (a : Nat) (f : LineMeta → LineMeta) : (s.modLine a f).line a = f (s.line a) := by
  simp [State.line, State.modLine, State.modSlice, Slice.setLine, Slice.line]

/-- The times after a write at a line's home: it takes place after the line's leases (R279). -/
theorem State.homeWrite_line (s : State) (a : Nat) :
    ((s.homeWrite a 0).2.line a).wts = (s.line a).rts + 1 ∧ ((s.homeWrite a 0).2.line a).rts = (s.line a).rts + 1 := by
  simp [State.homeWrite]

/-- A host write within a line is a unit's store, and its time is kept as the host's (R347, log 32). -/
theorem State.hostStore_unitStore (s : State) (a : Nat) (data : List Byte) (h : s.inOverflow a = false) (ha : a < hostBase) :
    s.hostStore a data = { (s.unitStore a false data).2 with
      links := { (s.unitStore a false data).2.links with
        hostTime := max (s.unitStore a false data).2.links.hostTime (s.unitStore a false data).1 } } := by
  simp [State.hostStore, State.unitStore, h, hostLine_device ha]

/-- The times of the line that a unit stores at. -/
theorem State.unitStore_line (s : State) (a : Nat) (data : List Byte) (h : a + data.length ≤ hostBase) (ha : a < hostBase) :
    ((s.unitStore a false data).2.line (lineOf a)).wts = (s.line (lineOf a)).rts + 1 ∧
    ((s.unitStore a false data).2.line (lineOf a)).rts = (s.line (lineOf a)).rts + 1 := by
  have m := s.useLine_moves (lineOf a) true (by simp only [lineOf]; omega)
  have hr : ((s.useLine (lineOf a) true).line (lineOf a)).rts = (s.line (lineOf a)).rts := by
    rw [State.line, State.homeSlice_congr (s := s) fun d => by rw [m.dies d]]
    exact (m.times _ _).2
  simp only [State.unitStore, hostLine_device ha, Bool.false_and, Bool.false_eq_true, ↓reduceIte,
    State.setBytesAt_device _ a data h]
  rw [← hr]
  exact State.homeWrite_line _ _

/-! ## A host write -/

/-- What a host write of bytes at an address of LPDDR-5X does (R279, R344): the bytes stand in memory, every line written to
takes times after its leases, every other line keeps its own; the host's largest write time grows; lines come into caches and
leave them. -/
structure HostStored (a : Nat) (data : List Byte) (s t : State) : Prop where
  mem : t.mem = s.mem.write a data
  later : ∀ b, a ≤ b → b < a + data.length → (s.line (lineOf b)).rts < (t.line (lineOf b)).wts
  rising : ∀ l, (s.line l).rts ≤ (t.line l).rts
  kept : ∀ e l, (∀ b, a ≤ b → b < a + data.length → lineOf b ≠ l) →
    ((t.slice e).line l).wts = ((s.slice e).line l).wts ∧ ((t.slice e).line l).rts = ((s.slice e).line l).rts
  dies : ∀ d, t.die d = { s.die d with llc := (t.die d).llc, llcDirty := (t.die d).llcDirty }
  host : (∀ e l, hostBase ≤ l → ((s.slice e).line l).dirty = false) →
    t.hostMem = s.hostMem ∧ ∀ e l, hostBase ≤ l → ((t.slice e).line l).dirty = false
  rest : t = { s with mem := t.mem, slices := t.slices, dies := t.dies, hostMem := t.hostMem, links := t.links }
  links : t.links = { s.links with hostTime := t.links.hostTime }
  time : s.links.hostTime ≤ t.links.hostTime

theorem HostStored.refl (a : Nat) (s : State) : HostStored a [] s s where
  mem := rfl
  later b h1 h2 := by simp only [List.length_nil] at h2; omega
  rising _ := Nat.le_refl _
  kept _ _ _ := ⟨rfl, rfl⟩
  dies _ := rfl
  host c := ⟨rfl, c⟩
  rest := rfl
  links := rfl
  time := Nat.le_refl _

theorem HostStored.homeSlice {a : Nat} {data : List Byte} {s t : State} (h : HostStored a data s t) (x : Nat) :
    t.homeSlice x = s.homeSlice x :=
  State.homeSlice_congr (fun d => by rw [h.dies d]) x

theorem HostStored.inOverflow {a : Nat} {data : List Byte} {s t : State} (h : HostStored a data s t) (x : Nat) :
    t.inOverflow x = s.inOverflow x :=
  State.inOverflow_congr (fun d => by rw [h.dies d]) x

/-- Bytes written in two parts. -/
theorem Memory.write_append (m : Memory) (a : Nat) (l r : List Byte) :
    m.write a (l ++ r) = (m.write a l).write (a + l.length) r := by
  induction l generalizing m a with
  | nil => rfl
  | cons b t ih => simp only [List.cons_append, Memory.write, ih, List.length_cons, Nat.add_assoc, Nat.add_comm 1]

/-- Two writes, the second where the first ends: a line that both write to rises twice. -/
theorem HostStored.trans {a : Nat} {l r : List Byte} {s t u : State} (h : HostStored a l s t)
    (k : HostStored (a + l.length) r t u) : HostStored a (l ++ r) s u where
  mem := by rw [k.mem, h.mem, Memory.write_append]
  later b h1 h2 := by
    rw [List.length_append] at h2
    by_cases hw : ∃ b', a + l.length ≤ b' ∧ b' < a + l.length + r.length ∧ lineOf b' = lineOf b
    · obtain ⟨b', h3, h4, hb⟩ := hw
      rw [← hb]
      exact Nat.lt_of_le_of_lt (h.rising _) (k.later b' h3 h4)
    · have hb : b < a + l.length := Nat.lt_of_not_le fun hc => hw ⟨b, hc, by omega, rfl⟩
      have := h.later b h1 hb
      rwa [State.line, State.line, k.homeSlice, (k.kept _ _ fun b' h3 h4 h5 => hw ⟨b', h3, h4, h5⟩).1]
  rising x := Nat.le_trans (h.rising x) (k.rising x)
  kept e x hx := by
    simp only [List.length_append] at hx
    have h1 := h.kept e x fun b p q => hx b p (by omega)
    have h2 := k.kept e x fun b p q => hx b (by omega) (by omega)
    exact ⟨h2.1.trans h1.1, h2.2.trans h1.2⟩
  dies d := by rw [k.dies d, h.dies d]
  host c := by
    obtain ⟨h1, h2⟩ := h.host c
    obtain ⟨h3, h4⟩ := k.host h2
    exact ⟨h3.trans h1, h4⟩
  rest := by rw [k.rest, h.rest]
  links := by rw [k.links, h.links]
  time := Nat.le_trans h.time k.time

/-- A host write within a line, outside the overflow pages. -/
theorem State.hostStore_stored (s : State) (a : Nat) (data : List Byte) (hd : data ≠ []) (hl : a % 128 + data.length ≤ 128)
    (hb : a + data.length ≤ hostBase) (ho : s.inOverflow a = false) : HostStored a data s (s.hostStore a data) := by
  have hn : 0 < data.length := List.length_pos_iff.2 hd
  have ha : a < hostBase := by omega
  obtain ⟨w, u, he, hm, hs⟩ := s.unitStore_device a false data hb ha
  obtain ⟨hw, hr⟩ := s.unitStore_line a data hb ha
  rw [State.hostStore_unitStore s a data ho ha]
  rw [he] at hw hr ⊢
  dsimp only at hw hr ⊢
  have hul : u.links = s.links := by rw [hs.rest]
  have line (l : Nat) : u.line l = (u.slice (s.homeSlice l)).line l := by
    rw [State.line, State.homeSlice_congr hs.map]
  have written (b : Nat) (h1 : a ≤ b) (h2 : b < a + data.length) : lineOf b = lineOf a := by simp only [lineOf]; omega
  refine ⟨hm, fun b h1 h2 => ?_, fun l => ?_, fun e l hx => hs.lines e l (hx a (Nat.le_refl _) (by omega)).symm, hs.dies, hs.host,
    ?_, by rw [hul], by rw [hul]; exact Nat.le_max_left _ _⟩
  · rw [written b h1 h2]
    show _ < (u.line (lineOf a)).wts
    omega
  · show _ ≤ (u.line l).rts
    by_cases e : l = lineOf a
    · subst e; omega
    · rw [line, (hs.lines _ l e).2]
      exact Nat.le_refl _
  · rw [hs.rest]

@[simp] theorem State.hostStores_nil (s : State) (n a : Nat) : s.hostStores n a [] = s := by cases n <;> rfl

theorem State.hostStores_succ (s : State) (n a : Nat) {l : List Byte} (h : l ≠ []) :
    s.hostStores (n + 1) a l =
      State.hostStores (s.hostStore a (l.take (64 - a % 64))) n (a + (64 - a % 64)) (l.drop (64 - a % 64)) := by
  cases l with
  | nil => exact absurd rfl h
  | cons b t => rfl

/-- A host write split at 64 B boundaries (R344), none of it in an overflow page: fuel for every byte is enough. -/
theorem State.hostStores_stored (s : State) (n a : Nat) (data : List Byte) (hn : data.length ≤ n)
    (hb : a + data.length ≤ hostBase) (ho : ∀ b, a ≤ b → b < a + data.length → s.inOverflow b = false) :
    HostStored a data s (s.hostStores n a data) := by
  induction n generalizing s a data with
  | zero =>
    obtain rfl : data = [] := List.length_eq_zero_iff.1 (by omega)
    exact HostStored.refl a s
  | succ n ih =>
    by_cases hd : data = []
    · rw [hd, State.hostStores_nil]
      exact HostStored.refl a s
    have hp : 0 < data.length := List.length_pos_iff.2 hd
    rw [State.hostStores_succ s n a hd]
    obtain ⟨k, hk⟩ : ∃ k, k = 64 - a % 64 := ⟨_, rfl⟩
    rw [← hk]
    have first : HostStored a (data.take k) s (s.hostStore a (data.take k)) := by
      have hl : (data.take k).length = min k data.length := List.length_take
      refine s.hostStore_stored a _ ?_ (by omega) (by omega) (ho a (Nat.le_refl _) (by omega))
      rw [← List.length_pos_iff]
      omega
    have rest : HostStored (a + (data.take k).length) (data.drop k) (s.hostStore a (data.take k))
        (State.hostStores (s.hostStore a (data.take k)) n (a + k) (data.drop k)) := by
      by_cases hle : k ≤ data.length
      · have hl : (data.drop k).length = data.length - k := List.length_drop
        rw [List.length_take, Nat.min_eq_left hle]
        refine ih _ _ _ (by omega) (by omega) fun b h1 h2 => ?_
        rw [first.inOverflow]
        exact ho b (by omega) (by omega)
      · rw [List.drop_eq_nil_of_le (by omega), State.hostStores_nil]
        exact HostStored.refl _ _
    simpa using first.trans rest

end Sys2Proof.Machine
end

section
/-! The host's accesses (R8, R95, R341, R344, R348, R384, R398), row by row: what each answers with the interface unlocked, and
what the lock leaves of it. -/

namespace Sys2Proof.Machine

/-! ## The lock (R398) -/

theorem State.untrusted_unlocked {s : State} (h : s.boot.tdi = .unlocked) (f : State → State) : s.untrusted f = f s := by
  simp [State.untrusted, h]

theorem State.untrusted_locked {s : State} (h : s.boot.tdi ≠ .unlocked) (f : State → State) :
    s.untrusted f = s.event 203 9 0xFF [] := by
  simp [State.untrusted, h]

theorem State.untrustedRead_unlocked {s : State} (h : s.boot.tdi = .unlocked) (source : Nat) (f : State → BitVec 64 × State) :
    s.untrustedRead source f = (f s).2.emit (.reply source (f s).1) := by
  simp [State.untrustedRead, h]

theorem State.untrustedRead_locked {s : State} (h : s.boot.tdi ≠ .unlocked) (source : Nat) (f : State → BitVec 64 × State) :
    s.untrustedRead source f = (s.event source 9 0xFF []).emit (.reply source 0) := by
  simp [State.untrustedRead, h]

/-- What an event leaves: one more event of its kind, and nothing else of the package but the Coxswain's stamps. -/
theorem State.event_noted (s : State) (source kind ctx : Nat) (data : List Byte) :
    (∃ e, (s.event source kind ctx data).cox.events = s.cox.events ++ [e] ∧ e.kind = kind) ∧
      s.event source kind ctx data = { s with cox := (s.event source kind ctx data).cox } :=
  ⟨⟨_, rfl, rfl⟩, rfl⟩

/-! ## The counter window -/

theorem State.windowValue_reached {s : State} {die i : Nat} (h : (s.dieCtr die i).scope = 4 ∨ (s.dieCtr die i).scope = 5)
    (source : Nat) : s.windowValue source die i = (BitVec.ofNat 64 (s.dieCtr die i).value, s) := by
  simp only [State.windowValue, (Counter.hostReach_iff _).2 h, ↓reduceIte]

theorem State.windowValue_unreached {s : State} {die i : Nat} (h : ¬((s.dieCtr die i).scope = 4 ∨ (s.dieCtr die i).scope = 5))
    (source : Nat) : s.windowValue source die i = (0, s.event source 9 0xFF (bytesOf 8 die ++ bytesOf 8 i)) := by
  simp only [State.windowValue, mt (Counter.hostReach_iff _).1 h, Bool.false_eq_true, ↓reduceIte]

/-! ## The HDM range -/

/-- A read of device memory answers its bytes, marked where a line of them is bad; lines move in the caches, and that is all. -/
theorem State.hdmRead_memory {s : State} (h : s.boot.tdi = .unlocked) {a n : Nat} (hn : a + n ≤ 2 ^ 41) :
    ∃ bad u, s.hdmRead a n = ((s.mem.read a n, bad), u) ∧ LinesMove s u ∧
      (bad = true ↔ 0 < n ∧ ∃ l, (l * 128 ∈ s.poison ∨ s.inOverflow (l * 128) = true) ∧
        l * 128 < a + n ∧ a < l * 128 + 128) := by
  refine ⟨_, _, ?_, s.useLines_moves (linesOf a n) false ?_, s.badLine_iff a n⟩
  · simp [State.hdmRead, h, show a + n ≤ hdmCounters from hn]
  · intro x hx
    obtain ⟨-, l, rfl, hl, -⟩ := (mem_linesOf a n x).1 hx
    simp only [hostBase]
    omega

theorem State.hdmRead_locked {s : State} (h : s.boot.tdi ≠ .unlocked) (a n : Nat) :
    s.hdmRead a n = ((List.replicate n 0, true), s) := by
  simp [State.hdmRead, h, bytesOf_zero]

/-- A write to device memory is the host's stores of its bytes. -/
theorem State.hdmWrite_memory {s : State} (h : s.boot.tdi = .unlocked) {a : Nat} {data : List Byte}
    (hn : a + data.length ≤ 2 ^ 41) (ho : ∀ b, a ≤ b → b < a + data.length → s.inOverflow b = false) :
    HostStored a data s (s.hdmWrite a data) := by
  have he : s.hdmWrite a data = s.hostStores data.length a data := by
    simp [State.hdmWrite, h, show a + data.length ≤ hdmCounters from hn]
  rw [he]
  exact s.hostStores_stored _ a data (Nat.le_refl _) (by simp only [hostBase]; omega) ho

theorem State.hdmWrite_locked {s : State} (h : s.boot.tdi ≠ .unlocked) (a : Nat) (data : List Byte) :
    s.hdmWrite a data = s := by
  simp [State.hdmWrite, h]

/-- The flush window reads 0. -/
theorem State.hdmRead_flush {s : State} (h : s.boot.tdi = .unlocked) :
    s.hdmRead hdmFlush 8 = ((List.replicate 8 0, false), s) := by
  simp [State.hdmRead, h, hdmFlush, hdmCounters, hdmLaunch, bytesOf_zero]

/-! ## Calls and registers -/

theorem State.hcall_queued {s : State} {w : BitVec 64} (hw : w.toNat / 2 ^ 56 = 0) (hq : s.cox.hostq.length < 64) :
    s.hcall w = { s with
      nextId := s.nextId + 1
      cox := { s.cox with hostq := s.cox.hostq ++
        [⟨w.toNat % 64, BitVec.ofNat 64 (w.toNat / 64 % 2 ^ 50 * 64), none, s.nextId⟩] } } := by
  simp only [State.hcall, field_top, hw, ne_eq, not_true_eq_false, Nat.not_le.2 hq, ↓reduceIte]
  simp only [field, Nat.pow_zero, Nat.div_one, Nat.reducePow]

theorem State.hcall_full {s : State} {w : BitVec 64} (hw : w.toNat / 2 ^ 56 = 0) (hq : 64 ≤ s.cox.hostq.length) :
    s.hcall w = { s with cox := { s.cox with drops := min 0xFFFF (s.cox.drops + 1) } } := by
  simp only [State.hcall, field_top, hw, ne_eq, not_true_eq_false, hq, ↓reduceIte]

theorem State.hcall_reserved {s : State} {w : BitVec 64} (hw : w.toNat / 2 ^ 56 ≠ 0) :
    s.hcall w = s.event 201 9 0xFF (bytesOf 8 w.toNat) := by
  simp only [State.hcall, field_top, ne_eq, hw, not_false_eq_true, ↓reduceIte]

/-- A booted, unlocked package takes a register write as its offset says, and logs one to an offset that no block assigns. -/
theorem State.hostWriteReg_served {s : State} (h : s.boot.tdi = .unlocked) (hs : s.boot.stage = 0) (hl : s.boot.lockstep = false)
    (off : Nat) (w : BitVec 64) : s.hostWriteReg off w false = (s.writeBar0 off w).getD (s.dropped 203 off) := by
  simp [State.hostWriteReg, State.answers, State.grant, h, hs, hl]

/-- An offset of the Coxswain's block. -/
theorem State.writeBar0_cox (s : State) {off : Nat} (h : off < 0x100000) (w : BitVec 64) :
    s.writeBar0 (barCox + off) w = s.writeCox off w := by
  have hc : barCox = 0x200000 := rfl
  have hr : barRing = 0x100000 := rfl
  unfold State.writeBar0
  rw [if_neg (by omega), if_neg (by omega), if_pos (by omega), Nat.add_sub_cancel_left]

/-- No block lies past the sampler's. -/
theorem State.writeBar0_past (s : State) {off : Nat} (h : 0x500000 ≤ off) (w : BitVec 64) : s.writeBar0 off w = none := by
  have hr : barRing = 0x100000 := rfl
  have hc : barCox = 0x200000 := rfl
  have hp : barReplay = 0x300000 := rfl
  have hs : barSampler = 0x400000 := rfl
  unfold State.writeBar0
  rw [if_neg (by omega), if_neg (by omega), if_neg (by omega), if_neg (by omega), if_neg (by omega)]

/-- A register of the Coxswain's block written in a booted, unlocked package (R384). -/
theorem exec_registerWrite_cox {s : State} (h : s.boot.tdi = .unlocked) (hs : s.boot.stage = 0) (hl : s.boot.lockstep = false)
    {off : Nat} (ho : off < 0x100000) (w : BitVec 64) :
    exec (.registerWrite (barCox + off) w) s = .next ((s.writeCox off w).getD (s.dropped 203 (barCox + off))) := by
  rw [exec_registerWrite, execRegisterWrite, State.hostWriteReg_served h hs hl, State.writeBar0_cox s ho]

/-! ## The obligation -/

/-- A host memory write as the obligation states it: the lines of its bytes written as multiples of 128. -/
theorem HostStored.stated {a : Nat} {data : List Byte} {s t : State} (h : HostStored a data s t) :
    (∀ b, t.mem.byte b = if a ≤ b ∧ b < a + data.length then data.getD (b - a) 0 else s.mem.byte b) ∧
    (∀ b, a ≤ b → b < a + data.length → (s.line (b / 128 * 128)).rts < (t.line (b / 128 * 128)).wts) ∧
    (∀ e l, l + 128 ≤ a ∨ a + data.length ≤ l →
      ((t.slice e).line l).wts = ((s.slice e).line l).wts ∧ ((t.slice e).line l).rts = ((s.slice e).line l).rts) ∧
    (∀ d, t.die d = { s.die d with llc := (t.die d).llc, llcDirty := (t.die d).llcDirty }) ∧
    ((∀ e l, hostBase ≤ l → ((s.slice e).line l).dirty = false) → t.hostMem = s.hostMem) ∧
    t = { s with mem := t.mem, slices := t.slices, dies := t.dies, hostMem := t.hostMem, links := t.links } ∧
    t.links = { s.links with hostTime := t.links.hostTime } ∧ s.links.hostTime ≤ t.links.hostTime := by
  refine ⟨fun b => by rw [h.mem, Memory.byte_write], h.later, fun e l hl => h.kept e l fun b h1 h2 => ?_, h.dies,
    fun c => (h.host c).1, h.rest, h.links, h.time⟩
  simp only [lineOf]
  omega

/-- Settles O38: each row of the host by what the model's operation does, unlocked and locked. -/
theorem hostAccesses : Obligations.HostAccesses := by
  unfold Obligations.HostAccesses
  intro s die i w a n data k replies noted quiet reach
  refine ⟨fun unlocked => ⟨fun hr => ?value, fun hr => ?unreached, ?status,
      ⟨fun hg hi hv hw => ?add, fun hg hi hl => ?overflow, fun hg => ?refused⟩,
      fun hn => ?read, fun hn ho => ?write, fun hw => ?flush,
      fun h0 hq => ?post, fun h0 hq => ?full, fun h0 => ?reserved,
      fun hs hl => ⟨?tail, ?hstat, ?head, fun off ho => ?past⟩⟩,
    fun locked => ⟨?lockedValue, ?lockedAdd, ?lockedRead, ?lockedWrite, ?lockedPost⟩,
    fun hw => ?pflush, fun hw => ?pwaits, fun hw => ?cxlwaits⟩
  case value =>
    exact ⟨_, by rw [exec_counterWindowReadValue, execCounterWindowReadValue, State.untrustedRead_unlocked unlocked,
      State.windowValue_reached hr], rfl, rfl⟩
  case unreached =>
    exact ⟨_, by rw [exec_counterWindowReadValue, execCounterWindowReadValue, State.untrustedRead_unlocked unlocked,
      State.windowValue_unreached hr], rfl, _, rfl, rfl⟩
  case status =>
    exact ⟨_, by rw [exec_counterWindowReadStatus, execCounterWindowReadStatus, State.untrustedRead_unlocked unlocked],
      rfl, rfl⟩
  case add =>
    exact ⟨_, by rw [exec_counterWindowAdd, execCounterWindowAdd, State.untrusted_unlocked unlocked],
      s.windowAdd_counter 203 die i w hg hi hv hw⟩
  case overflow =>
    refine ⟨_, by rw [exec_counterWindowAdd, execCounterWindowAdd, State.untrusted_unlocked unlocked,
      State.windowAdd_overflow s 203 die i w hg hi hl], ?_, fun d hd => ?_, rfl⟩ <;> rw [State.modDie, State.die_setDie]
    · rw [if_pos rfl]
    · rw [if_neg hd]
  case refused =>
    exact ⟨_, by rw [exec_counterWindowAdd, execCounterWindowAdd, State.untrusted_unlocked unlocked,
      State.windowAdd_dropped s 203 die i w hg], State.event_noted ..⟩
  case read =>
    obtain ⟨bad, u, hu, hm, hb⟩ := State.hdmRead_memory unlocked hn
    refine ⟨_, by rw [exec_hostMemRead, execHostMemRead, hu], bad, ?_, ?_, hb⟩
    · show u.egress ++ _ = _
      rw [hm.rest]
    · show LinesMove s { u with egress := s.egress }
      have he : ({ u with egress := s.egress } : State) = u := by rw [hm.rest]
      rwa [he]
  case write => exact ⟨_, rfl, (State.hdmWrite_memory unlocked hn ho).stated⟩
  case flush =>
    exact ⟨_, by rw [exec_cxlflush, execCxlflush, if_neg (by rw [hw]; decide), State.hdmRead_flush unlocked], rfl, rfl⟩
  case post =>
    exact ⟨_, by rw [exec_hcall, execHcall, State.untrusted_unlocked unlocked, State.hcall_queued h0 hq], rfl, rfl⟩
  case full =>
    exact ⟨_, by rw [exec_hcall, execHcall, State.untrusted_unlocked unlocked, State.hcall_full h0 hq], rfl⟩
  case reserved =>
    exact ⟨_, by rw [exec_hcall, execHcall, State.untrusted_unlocked unlocked, State.hcall_reserved h0], State.event_noted ..⟩
  case tail =>
    refine ⟨_, exec_registerWrite_cox (off := 0x18) unlocked hs hl (by decide) w, ?_⟩
    simp [State.writeCox, field]
  case hstat => exact exec_registerWrite_cox (off := 0x08) unlocked hs hl (by decide) w
  case head => exact exec_registerWrite_cox (off := 0x10) unlocked hs hl (by decide) w
  case past =>
    exact ⟨_, by rw [exec_registerWrite, execRegisterWrite, State.hostWriteReg_served unlocked hs hl, State.writeBar0_past s ho,
      Option.getD_none, State.dropped], State.event_noted ..⟩
  case lockedValue =>
    exact ⟨_, by rw [exec_counterWindowReadValue, execCounterWindowReadValue, State.untrustedRead_locked locked], rfl, _,
      rfl, rfl⟩
  case lockedAdd =>
    exact ⟨_, by rw [exec_counterWindowAdd, execCounterWindowAdd, State.untrusted_locked locked], State.event_noted ..⟩
  case lockedRead =>
    exact ⟨_, by rw [exec_hostMemRead, execHostMemRead, State.hdmRead_locked locked], rfl, rfl⟩
  case lockedWrite => rw [exec_hostMemWrite, execHostMemWrite, State.hdmWrite_locked locked]
  case lockedPost => exact ⟨_, by rw [exec_hcall, execHcall, State.untrusted_locked locked], State.event_noted ..⟩
  case pflush =>
    exact ⟨_, by rw [exec_pflush, execPflush, if_neg (by rw [hw]; decide)], rfl, rfl⟩
  case pwaits => rw [exec_pflush, execPflush, if_pos hw]
  case cxlwaits => rw [exec_cxlflush, execCxlflush, if_pos hw]

end Sys2Proof.Machine
end

section
/-! The machine at reset release (R23, R72, R272, R276, R327, R328, R342, R384, R391, R396, R409, R426, R433, R436). -/

namespace Sys2Proof.Machine

/-- No counter of a unit outside the crew slots is live at reset, and its generation is 0 (R72). -/
theorem State.reset_ctr (r : HomeRef) (i : Nat) (h : ∀ n, r ≠ .crew n) :
    ((State.reset.home r).ctr i).live = false ∧ ((State.reset.home r).ctr i).gen = 0 := by
  cases r with
  | crew n => exact absurd rfl (h n)
  | core n => exact ⟨rfl, rfl⟩
  | cluster n => exact ⟨rfl, rfl⟩
  | die d => exact ⟨rfl, rfl⟩
  | peer => exact ⟨rfl, rfl⟩

/-- Bucket b of a die lies at slice b mod 48 at reset (R276). -/
theorem State.reset_mapped (d b : Nat) : (State.reset.die d).mapped b = b % 48 := rfl

/-- HSTAT at reset (R384): no event lost, no call dropped, none queued. -/
theorem State.reset_hstat : State.reset.readCox 0x08 = some 0 := by
  have counts : State.reset.cox.evlost = 0 ∧ State.reset.cox.drops = 0 ∧ State.reset.cox.hostq = [] := ⟨rfl, rfl, rfl⟩
  obtain ⟨lost, dropped, queued⟩ := counts
  simp [State.readCox, lost, dropped, queued]

/-- Settles O54: the tables of the reset state are empty, so each unit reads as its own reset value, and the registers of the
boot pair, the Coxswain, the replay block and the fleet are those of their reset records. -/
theorem resetValues : Obligations.ResetValues := by
  unfold Obligations.ResetValues
  intro s
  have memories : s.Inv := ⟨State.reset_mem_wf, Memory.wf_nil⟩
  exact ⟨memories, rfl, fun _ => rfl, fun _ => rfl, fun _ => rfl, State.reset_ctr, fun d b => ⟨State.reset_mapped d b, rfl⟩,
    fun _ _ => rfl, fun _ => rfl, rfl, rfl, fun _ => ⟨rfl, rfl, rfl, rfl, rfl, rfl, rfl⟩,
    -- the boot pair
    rfl, rfl, rfl, rfl,
    -- the Coxswain
    State.reset_hstat, rfl, rfl, rfl,
    -- the replay block
    rfl, rfl, rfl, rfl, rfl, rfl, rfl, rfl, rfl, rfl,
    -- sampling and the power cap
    rfl, rfl, rfl, rfl, rfl⟩

end Sys2Proof.Machine
end

section
/-! Requests on their way from a core to a slice (R284, R287): what sending one, turning one back and answering one leave. -/

namespace Sys2Proof.Machine

/-! ## Units read after another unit is written -/

@[simp] theorem State.slice_modSlice (s : State) (n m : Nat) (f : Slice → Slice) :
    (s.modSlice n f).slice m = if m = n then f (s.slice n) else s.slice m := by simp [State.modSlice]

@[simp] theorem State.core_modSlice (s : State) (n m : Nat) (f : Slice → Slice) : (s.modSlice n f).core m = s.core m := rfl
@[simp] theorem State.crew?_modCore (s : State) (n m : Nat) (f : Core → Core) : (s.modCore n f).crew? m = s.crew? m := rfl
@[simp] theorem State.core_setCrew (s : State) (n m : Nat) (c : Crew) : (s.setCrew n c).core m = s.core m := rfl
@[simp] theorem State.slice_modCore (s : State) (n m : Nat) (f : Core → Core) : (s.modCore n f).slice m = s.slice m := rfl

/-! ## What moving requests leaves -/

/-- The state differs from what it was in the requests that cores hold and those that have reached slices only. -/
structure RequestsMove (s t : State) : Prop where
  cores : ∀ k, t.core k = { s.core k with
    unanswered := (t.core k).unanswered, sendq := (t.core k).sendq, retry := (t.core k).retry }
  slices : ∀ k, t.slice k = { s.slice k with ingress := (t.slice k).ingress }
  rest : t = { s with cores := t.cores, slices := t.slices }

theorem RequestsMove.refl (s : State) : RequestsMove s s := ⟨fun _ => rfl, fun _ => rfl, rfl⟩

theorem RequestsMove.trans {s t u : State} (h : RequestsMove s t) (k : RequestsMove t u) : RequestsMove s u where
  cores n := by rw [k.cores n, h.cores n]
  slices n := by rw [k.slices n, h.slices n]
  rest := by rw [k.rest, h.rest]

theorem RequestsMove.setCore (s : State) (n : Nat) (c : Core)
    (h : c = { s.core n with unanswered := c.unanswered, sendq := c.sendq, retry := c.retry }) :
    RequestsMove s (s.setCore n c) where
  cores k := by
    rw [State.core_setCore]
    by_cases hk : k = n
    · subst hk; simpa using h
    · simp [hk]
  slices _ := rfl
  rest := rfl

theorem RequestsMove.modSlice (s : State) (n : Nat) (l : List Req) :
    RequestsMove s (s.modSlice n fun e => { e with ingress := e.ingress ++ l }) where
  cores _ := rfl
  slices k := by
    rw [State.modSlice, State.slice_setSlice]
    by_cases hk : k = n
    · subst hk; simp
    · simp [hk]
  rest := rfl

theorem State.backToCore_moves (s : State) (q : Req) : RequestsMove s (s.backToCore q) :=
  RequestsMove.setCore s q.core _ rfl

theorem State.arrive_moves (s : State) (n : Nat) (q : Req) : RequestsMove s (s.arrive n q) := by
  unfold State.arrive
  split
  · exact RequestsMove.modSlice s n [q]
  · exact s.backToCore_moves q

theorem State.sendReq_moves (s : State) (q : Req) : RequestsMove s (s.sendReq q) := by
  unfold State.sendReq
  split
  · exact (RequestsMove.setCore s q.core _ rfl).trans (State.arrive_moves _ _ q)
  · exact RequestsMove.setCore s q.core _ rfl

theorem State.answered_moves (s : State) (core : Nat) (done : Req → Bool) : RequestsMove s (s.answered core done) := by
  unfold State.answered
  dsimp only
  split
  · have first := RequestsMove.setCore s core
      { s.core core with
        unanswered := (s.core core).unanswered.filter fun q => !done q, sendq := (s.core core).sendq.drop 1 } rfl
    split
    · exact first
    · exact first.trans (State.sendReq_moves _ _)
  · exact RequestsMove.refl s

theorem RequestsMove.crews {s t : State} (h : RequestsMove s t) : t.crews = s.crews := by rw [h.rest]

theorem RequestsMove.crew? {s t : State} (h : RequestsMove s t) (n : Nat) : t.crew? n = s.crew? n := by
  rw [State.crew?, h.crews]; rfl

theorem RequestsMove.homeSlice {s t : State} (h : RequestsMove s t) (a : Nat) : t.homeSlice a = s.homeSlice a :=
  State.homeSlice_congr (fun d => by rw [h.rest]; rfl) a

theorem RequestsMove.viaProxy {s t : State} (h : RequestsMove s t) : t.viaProxy = s.viaProxy := by
  have retired (n : Nat) : (t.slice n).retired = (s.slice n).retired := by rw [h.slices]
  funext core home
  simp only [State.viaProxy, retired]

/-- A request goes to the slice it went to before: maps and retired slices are as they were. -/
theorem RequestsMove.firstSlice {s t : State} (h : RequestsMove s t) (q : Req) : t.firstSlice q = s.firstSlice q := by
  rw [State.firstSlice, State.firstSlice, h.homeSlice, h.viaProxy]

/-- Bytes read as before where cores keep their decks and operand buffers, and slices their lines. -/
theorem State.byteAt_congr {s t : State} (hd : ∀ k, (t.core k).deck = (s.core k).deck) (ho : ∀ k, (t.core k).obuf = (s.core k).obuf)
    (hl : ∀ k, (t.slice k).lines = (s.slice k).lines) (hr : t = { s with
      crews := t.crews, cores := t.cores, slices := t.slices, msgs := t.msgs }) (sp : Space) (a : Nat) :
    t.byteAt sp a = s.byteAt sp a := by
  have hh : t.homeSlice a = s.homeSlice a := State.homeSlice_congr (fun d => by rw [hr]; rfl) a
  have hm : t.mem = s.mem := by rw [hr]
  have hx : t.hostMem = s.hostMem := by rw [hr]
  cases sp with
  | global => simp only [State.byteAt, State.globalByte, hh, hl, hm, hx]
  | deck c => simp only [State.byteAt, hd]
  | obuf c => simp only [State.byteAt, ho]
  | mailbox => rfl

/-! ## Where a request goes -/

/-- With room in both buffers: a copy waits for the answer, and the request is in the slice's queue. -/
theorem State.sendReq_arrives (s : State) (q : Req) (hu : (s.core q.core).unanswered.length < 32)
    (hi : (s.slice (s.firstSlice q)).ingress.length < 32) :
    s.sendReq q = (s.modCore q.core fun k => { k with unanswered := k.unanswered ++ [q] }).modSlice (s.firstSlice q)
      fun e => { e with ingress := e.ingress ++ [q] } := by
  rw [State.sendReq, retryRoom, if_pos hu, State.arrive, ingressRoom]
  exact if_pos hi

/-- A full ingress queue turns the request back to its core. -/
theorem State.sendReq_refused (s : State) (q : Req) (hu : (s.core q.core).unanswered.length < 32)
    (hi : ¬(s.slice (s.firstSlice q)).ingress.length < 32) :
    s.sendReq q = (s.modCore q.core fun k => { k with unanswered := k.unanswered ++ [q] }).backToCore q := by
  rw [State.sendReq, retryRoom, if_pos hu, State.arrive, ingressRoom]
  exact if_neg hi

/-- A full retry buffer lets the request wait. -/
theorem State.sendReq_waits (s : State) (q : Req) (hu : ¬(s.core q.core).unanswered.length < 32) :
    s.sendReq q = s.modCore q.core fun k => { k with sendq := k.sendq ++ [q] } := by
  rw [State.sendReq, retryRoom, if_neg hu]

/-- What sending a request does at its core and at the slices (R287). -/
theorem State.sendReq_effect (s : State) (q : Req) :
    (if (s.core q.core).unanswered.length < 32 then
      (if (s.slice (s.firstSlice q)).ingress.length < 32 then
        (s.sendReq q).slice (s.firstSlice q) =
          { s.slice (s.firstSlice q) with ingress := (s.slice (s.firstSlice q)).ingress ++ [q] } ∧
        ((s.sendReq q).core q.core).unanswered = (s.core q.core).unanswered ++ [q] ∧
        ((s.sendReq q).core q.core).retry = (s.core q.core).retry
      else
        (s.sendReq q).slice (s.firstSlice q) = s.slice (s.firstSlice q) ∧
        ((s.sendReq q).core q.core).retry = (s.core q.core).retry ++
          [⟨{ q with attempt := q.attempt + 1 }, false, s.cycle + retryDelay q.attempt⟩]) ∧
      ((s.sendReq q).core q.core).sendq = (s.core q.core).sendq
    else
      (s.sendReq q).slice (s.firstSlice q) = s.slice (s.firstSlice q) ∧
      ((s.sendReq q).core q.core).sendq = (s.core q.core).sendq ++ [q] ∧
      ((s.sendReq q).core q.core).unanswered = (s.core q.core).unanswered ∧
      ((s.sendReq q).core q.core).retry = (s.core q.core).retry) ∧
    ∀ k, k ≠ s.firstSlice q → (s.sendReq q).slice k = s.slice k := by
  by_cases hu : (s.core q.core).unanswered.length < 32
  · by_cases hi : (s.slice (s.firstSlice q)).ingress.length < 32
    · rw [State.sendReq_arrives s q hu hi]
      simp +contextual [hu, hi]
    · rw [State.sendReq_refused s q hu hi]
      simp [hu, hi, State.backToCore]
  · rw [State.sendReq_waits s q hu]
    simp [hu]

/-! ## Answers -/

theorem State.answered_unasked {s : State} {core : Nat} {done : Req → Bool} (h : (s.core core).unanswered.any done = false) :
    s.answered core done = s := by
  simp [State.answered, h]

/-- Nothing waits for room: the answered copies go. -/
theorem State.answered_idle {s : State} {core : Nat} (done : Req → Bool) (hq : (s.core core).sendq = []) :
    ((s.answered core done).core core).unanswered = (s.core core).unanswered.filter (fun q => !done q) ∧
      ∀ k, (s.answered core done).slice k = s.slice k := by
  by_cases hd : (s.core core).unanswered.any done = true
  · simp only [State.answered, hd, hq, ↓reduceIte, State.core_setCore]
    exact ⟨trivial, fun _ => rfl⟩
  · have none_done : ∀ q ∈ (s.core core).unanswered, (!done q) = true := by simpa using hd
    rw [State.answered_unasked (by simpa using hd), List.filter_eq_self.2 none_done]
    exact ⟨rfl, fun _ => rfl⟩

/-- The oldest request that waits for room is sent. -/
theorem State.answered_next {s : State} {core : Nat} {done : Req → Bool} {q : Req} {rest : List Req}
    (hq : (s.core core).sendq = q :: rest) (hd : (s.core core).unanswered.any done = true) (hc : q.core = core)
    (hi : (s.slice (s.firstSlice q)).ingress.length < 32)
    (hu : ((s.core core).unanswered.filter fun q => !done q).length < 32) :
    ((s.answered core done).core core).sendq = rest ∧ q ∈ ((s.answered core done).core core).unanswered ∧
      q ∈ ((s.answered core done).slice (s.firstSlice q)).ingress := by
  subst hc
  let k := { s.core q.core with unanswered := (s.core q.core).unanswered.filter fun q => !done q, sendq := rest }
  have moved : RequestsMove s (s.setCore q.core k) := RequestsMove.setCore s q.core k rfl
  have sent : s.answered q.core done = (s.setCore q.core k).sendReq q := by
    simp only [State.answered, hd, hq, ↓reduceIte, List.drop_succ_cons, List.drop_zero, k]
  rw [sent, State.sendReq_arrives _ q (by simpa [k] using hu) (by rw [moved.firstSlice]; exact hi), moved.firstSlice]
  simp [k]

end Sys2Proof.Machine
end

section
/-! The store FIFOs (R19, R285, R298, R299): whose turn it is, what holds an entry, and what sending one does. -/

namespace Sys2Proof.Machine

/-! ## Turns (R298) -/

theorem upFrom_eq_range' (n k : Nat) : upFrom n k = List.range' n k := by
  induction k generalizing n with
  | zero => rfl
  | succ k ih => rw [upFrom, ih, List.range'_succ]

/-- How many slots of a subcore come before slot `k` when slot `last` has sent last. -/
def turnOf (last k : Nat) : Nat := (k + 15 - last % 8) % 8

/-- The slot whose turn it is: it has an entry to send, and no slot before it has. -/
theorem State.sendTurn_iff (s : State) (slot : Nat) :
    s.sendTurn (slot / 8) = some slot ↔ (s.nextEntry slot).isSome = true ∧
      ∀ k, k / 8 = slot / 8 → turnOf (s.sub (slot / 8)).lastSent k < turnOf (s.sub (slot / 8)).lastSent slot →
        s.nextEntry k = none := by
  rw [State.sendTurn, upFrom_eq_range', List.find?_eq_some_iff_getElem]
  generalize (s.sub (slot / 8)).lastSent = last
  simp only [List.length_map, List.length_range', List.getElem_map, List.getElem_range', turnOf]
  refine and_congr_right fun _ => ⟨?_, fun before => ?_⟩
  · rintro ⟨i, hi, hslot, before⟩ k hk hlt
    have hb := before ((k + 15 - last % 8) % 8) (by omega)
    rw [show 8 * (slot / 8) + (last + (1 + 1 * ((k + 15 - last % 8) % 8))) % 8 = k by omega] at hb
    simpa using hb
  · refine ⟨(slot + 15 - last % 8) % 8, by omega, by omega, fun j hj => ?_⟩
    rw [before _ (by omega) (by omega)]
    rfl

/-! ## What holds an entry (R299) -/

theorem State.sentTo_iff (s : State) (core : Nat) (sp : Space) (line : Nat) :
    s.sentTo core sp line (fun _ => true) = true ↔
      ∃ d ∈ s.coreCrews core, ∃ x ∈ d.2.fifo, x.sent = true ∧ (sp, line) ∈ s.entryLines d.1 d.2 x := by
  simp [State.sentTo]

theorem State.loading_iff (s : State) (slot : Nat) (sp : Space) (line cycle : Nat) :
    s.loading slot sp line cycle = true ↔
      ∃ d ∈ s.coreCrews (coreOf slot), ∃ l ∈ d.2.loads, l.space = sp ∧ l.line = line ∧ (d.1 ≠ slot ∨ l.cycle < cycle) := by
  simp [State.loading, and_assoc]

/-- An entry whose line another sent entry touches may not be sent. -/
theorem State.mayEnter_sentTo {s : State} {slot : Nat} {e : Entry} (c : Crew)
    (h : s.sentTo (coreOf slot) e.space e.line (fun _ => true) = true) (hm : e.space ≠ .mailbox) :
    s.mayEnter slot c e = false := by
  unfold State.mayEnter
  split
  · contradiction
  · simp [State.entryLines, h]

/-- The entries that only write bytes: stores, spills and trap records. -/
def EntryOp.Plain (op : EntryOp) : Prop := op = .store ∨ op = .spill ∨ op = .record

theorem EntryOp.Plain.unnumbered {op : EntryOp} (h : op.Plain) : op.numbered = false := by
  rcases h with rfl | rfl | rfl <;> rfl

/-- A plain entry may be sent where no entry sent to its line awaits an acknowledgement, no load of the line is under way but
the crew's own later ones, and the core has room for a request. -/
theorem State.mayEnter_clear {s : State} {slot : Nat} {e : Entry} (c : Crew) (h : e.op.Plain) (hm : e.space ≠ .mailbox)
    (clear : ∀ d ∈ s.coreCrews (coreOf slot),
      (∀ x ∈ d.2.fifo, x.sent = true → (e.space, e.line) ∉ s.entryLines d.1 d.2 x) ∧
      ∀ l ∈ d.2.loads, l.space = e.space → l.line = e.line → d.1 = slot ∧ e.cycle ≤ l.cycle)
    (room : s.outstanding (coreOf slot) < requestRoom) : s.mayEnter slot c e = true := by
  have unsent : s.sentTo (coreOf slot) e.space e.line (fun _ => true) = false := by
    rw [← Bool.not_eq_true, State.sentTo_iff]
    rintro ⟨d, hd, x, hx, hs, hl⟩
    exact (clear d hd).1 x hx hs hl
  have unloaded : s.loading slot e.space e.line e.cycle = false := by
    rw [← Bool.not_eq_true, State.loading_iff]
    rintro ⟨d, hd, l, hl, hsp, hline, h⟩
    obtain ⟨own, later⟩ := (clear d hd).2 l hl hsp hline
    exact h.elim (absurd own) (Nat.not_lt.2 later)
  rcases h with h | h | h <;>
    simp [State.mayEnter, State.entryLines, State.mcastSpans, EntryOp.numbered, h, unsent, unloaded, room]

/-- The oldest unsent entry of a crew. -/
theorem State.nextEntry_unsent {s : State} {slot : Nat} {c : Crew} {older rest : List Entry} {e : Entry}
    (hc : s.crew? slot = some c) (hf : c.fifo = older ++ e :: rest) (ho : ∀ x ∈ older, x.sent = true) (he : e.sent = false) :
    s.nextEntry slot = if s.mayEnter slot c e = true then some (c, e) else none := by
  have first : c.fifo.find? (fun e => !e.sent) = some e := by
    rw [hf, List.find?_append, List.find?_eq_none.2 (by simpa using ho)]
    simp [he]
  simp only [State.nextEntry, hc, first]

/-- An entry marked sent, where no other entry of its FIFO has its number. -/
theorem Crew.markSent_one {c : Crew} {older rest : List Entry} {e : Entry} (hf : c.fifo = older ++ e :: rest)
    (hid : ∀ x ∈ older ++ rest, x.id ≠ e.id) (series seq : Nat) :
    c.markSent e.id series seq =
      { c with fifo := older ++ { e with sent := true, series := series, seq := seq } :: rest } := by
  have keep (l : List Entry) (hl : ∀ x ∈ l, x.id ≠ e.id) :
      l.map (fun x => if x.id = e.id then { x with sent := true, series := series, seq := seq } else x) = l :=
    (List.map_congr_left fun x hx => if_neg (hl x hx)).trans (List.map_id' l)
  simp only [List.mem_append] at hid
  rw [Crew.markSent, hf, List.map_append, List.map_cons, keep older fun x hx => hid x (.inl hx),
    keep rest fun x hx => hid x (.inr hx), if_pos rfl]

/-! ## Sending (R206, R298) -/

/-- Nothing is sent out of turn, or twice by a subcore in one c. -/
theorem execStoreFifoSend_held {s : State} {slot : Nat}
    (h : s.sendTurn (slot / 8) ≠ some slot ∨ (s.sub (slot / 8)).sentAt = some s.cycle) : execStoreFifoSend slot s = .next s := by
  rw [execStoreFifoSend]
  exact if_pos h

/-- A subcore's note of the slot that has sent, and of the c in which it did. -/
def State.noteSend (s : State) (slot : Nat) : State :=
  s.setSub (slot / 8) { s.sub (slot / 8) with lastSent := slot % 8, sentAt := some s.cycle }

@[simp] theorem State.sub_noteSend (s : State) (slot : Nat) :
    (s.noteSend slot).sub (slot / 8) = { s.sub (slot / 8) with lastSent := slot % 8, sentAt := some s.cycle } := by
  simp [State.noteSend, State.setSub, State.sub, Core.setSubcore, Core.subcore]

theorem State.core_noteSend (s : State) (slot k : Nat) :
    (s.noteSend slot).core k = { s.core k with subcores := ((s.noteSend slot).core k).subcores } := by
  rw [State.noteSend, State.setSub, State.core_modCore]
  by_cases hk : k = slot / 8 / 4
  · subst hk; simp [Core.setSubcore]
  · simp [hk]

theorem State.noteSend_rest (s : State) (slot : Nat) : s.noteSend slot = { s with cores := (s.noteSend slot).cores } := rfl
theorem State.crew?_noteSend (s : State) (slot k : Nat) : (s.noteSend slot).crew? k = s.crew? k := rfl

@[simp] theorem State.request_cycle (s : State) (core line : Nat) (kind : ReqKind) (lts policy : Nat) (cxl : Bool) :
    (s.request core line kind lts policy cxl).cycle = s.cycle := by
  rw [State.request, (State.sendReq_moves _ _).rest]

/-- A core's next store number towards a slice taken (R285). -/
def State.numberStore (s : State) (core slice : Nat) : State :=
  s.modCore core fun k => { k with storeSeq := Cells.put k.storeSeq slice (Cells.get 0 k.storeSeq slice + 1) }

theorem State.core_numberStore (s : State) (core slice : Nat) :
    (s.numberStore core slice).core core = { s.core core with
      storeSeq := Cells.put (s.core core).storeSeq slice (Cells.get 0 (s.core core).storeSeq slice + 1) } := by
  simp [State.numberStore]

/-- A plain entry to global memory: numbered, marked, and requested at its home. -/
theorem execStoreFifoSend_global {s : State} {slot : Nat} {c : Crew} {e : Entry}
    (turn : s.sendTurn (slot / 8) = some slot) (once : (s.sub (slot / 8)).sentAt ≠ some s.cycle)
    (next : s.nextEntry slot = some (c, e)) (hp : e.op.Plain) (hg : e.space = .global) :
    execStoreFifoSend slot s = .next ((((s.numberStore (coreOf slot) (s.homeSlice e.line)).setCrew slot
      (c.markSent e.id (s.homeSlice e.line)
        (Cells.get 0 (s.core (coreOf slot)).storeSeq (s.homeSlice e.line) % 2 ^ 32))).request
      (coreOf slot) e.line (.entry slot e.id) c.lts e.policy e.cxl).noteSend slot) := by
  have sent (u : State) : u.dispatch slot c e = u.request (coreOf slot) e.line (.entry slot e.id) c.lts e.policy e.cxl := by
    rcases hp with h | h | h <;> simp only [State.dispatch, h, hg]
  simp only [execStoreFifoSend, turn, once, next, hg, hp.unnumbered, sent, Core.nextSeq, State.noteSend, State.request_cycle, ne_eq,
    not_true_eq_false, or_self, ↓reduceIte, Bool.false_eq_true]
  rfl

/-- A plain entry to a deck or an operand buffer: marked, and queued at the core that has it. -/
theorem execStoreFifoSend_local {s : State} {slot k : Nat} {c : Crew} {e : Entry}
    (turn : s.sendTurn (slot / 8) = some slot) (once : (s.sub (slot / 8)).sentAt ≠ some s.cycle)
    (next : s.nextEntry slot = some (c, e)) (hp : e.op.Plain) (hk : e.space = .deck k ∨ e.space = .obuf k) :
    execStoreFifoSend slot s = .next (((s.setCrew slot (c.markSent e.id (s.homeSlice e.line) 0)).modCore k
      fun x => { x with deckq := x.deckq ++ [.entry slot e.id] }).noteSend slot) := by
  have here : e.space ≠ .global := by rcases hk with h | h <;> rw [h] <;> nofun
  have sent (u : State) : u.dispatch slot c e = u.modCore k fun x => { x with deckq := x.deckq ++ [.entry slot e.id] } := by
    rcases hp with h | h | h <;> rcases hk with g | g <;> simp only [State.dispatch, h, g]
  simp only [execStoreFifoSend, turn, once, next, here, sent, ne_eq, not_true_eq_false, or_self, ↓reduceIte]
  rfl

/-! ## The first half of the obligation -/

/-- Sending follows the turn and the holds; a sent entry is numbered, marked, and requested at its home or queued at its core. -/
theorem storeSending : Claim.StoreSending := by
  intro s slot c older rest e hc hf ho he hid core home n after turn clear room q
  have next := State.nextEntry_unsent hc hf ho he
  have marked := Crew.markSent_one hf hid
  refine ⟨fun hclear hturn hroom honce hp => ?_, fun hsent hm => ?_, fun k hk hlt hsome => ?_, fun honce => ?_⟩
  · have may (hm : e.space ≠ .mailbox) : s.nextEntry slot = some (c, e) := by
      rw [next, if_pos (State.mayEnter_clear c hp hm hclear hroom)]
    have turns (hm : e.space ≠ .mailbox) : s.sendTurn (slot / 8) = some slot :=
      (s.sendTurn_iff slot).2 ⟨by rw [may hm]; rfl, hturn⟩
    refine ⟨fun hg => ?_, fun k hk => ?_⟩
    · have hm : e.space ≠ .mailbox := by rw [hg]; nofun
      let u : State := { (s.numberStore core home).setCrew slot (c.markSent e.id home (n % 2 ^ 32)) with nextId := s.nextId + 1 }
      have sends : exec (.storeFifoSend slot) s = .next ((u.sendReq q).noteSend slot) :=
        execStoreFifoSend_global (turns hm) honce (may hm) hp hg
      have moved := u.sendReq_moves q
      have effect := u.sendReq_effect q
      have own : u.core q.core = { s.core core with storeSeq := Cells.put (s.core core).storeSeq home (n + 1) } :=
        s.core_numberStore core home
      rw [own] at effect
      refine ⟨_, sends, ?_, fun j hj => ?_, ?_, effect.2, ?_, ?_, ?_, ?_⟩
      · rw [State.crew?_noteSend, moved.crew?, ← marked]
        exact (State.crew?_setCrew ..).trans (if_pos rfl)
      · have apart : j ≠ slot := by simpa using hj
        rw [State.crew?_noteSend, moved.crew?]
        exact (State.crew?_setCrew ..).trans (if_neg apart)
      · rw [State.core_noteSend]
        exact effect.1
      · rw [State.core_noteSend, moved.cores]
        rw [show u.core core = _ from own]
        simp
      · rw [State.sub_noteSend]
      · rw [State.sub_noteSend, moved.rest]
        rfl
      · rw [State.noteSend_rest, moved.rest]
        rfl
    · have hm : e.space ≠ .mailbox := by rcases hk with h | h <;> rw [h] <;> nofun
      refine ⟨_, execStoreFifoSend_local (turns hm) honce (may hm) hp hk, ?_⟩
      refine ⟨?_, fun j hj => ?_, ?_, ?_, ?_, rfl⟩
      · rw [State.crew?_noteSend, marked]; simp [home]
      · have apart : j ≠ slot := by simpa using hj
        simp [State.crew?_noteSend, apart]
      · rw [State.core_noteSend]; simp
      · rw [State.sub_noteSend]
      · rw [State.sub_noteSend]; rfl
  · have held : s.nextEntry slot = none := by
      rw [next, State.mayEnter_sentTo c ((s.sentTo_iff _ _ _).2 hsent) hm]; rfl
    exact execStoreFifoSend_held (.inl fun h => by simpa [held] using ((s.sendTurn_iff slot).1 h).1)
  · refine execStoreFifoSend_held (.inl fun h => ?_)
    rw [((s.sendTurn_iff slot).1 h).2 k hk hlt] at hsome
    nomatch hsome
  · exact execStoreFifoSend_held (.inr honce)

end Sys2Proof.Machine
end

section
/-! The answers to a core's requests (R68, R206, R210, R211, R227, R280): acknowledgements, loads returning, and mailboxes. -/

namespace Sys2Proof.Machine

/-! ## One crew changed -/

theorem OneCrew.setCrew (s : State) (slot : Nat) (c : Crew) : OneCrew s (s.setCrew slot c) slot c := by
  refine ⟨by simp, fun k hk => ?_, rfl⟩
  have apart : k ≠ slot := by simpa using hk
  simp [apart]

@[simp] theorem State.modCrew_setCrew (s : State) (slot : Nat) (c : Crew) (f : Crew → Crew) :
    (s.setCrew slot c).modCrew slot f = s.setCrew slot (f c) := by
  simp [State.modCrew]

theorem State.owner?_resident {s : State} {slot id : Nat} {c : Crew} {x : Entry} (hc : s.crew? slot = some c)
    (hx : c.entry? id = some x) : s.owner? slot id = some c := by
  simp [State.owner?, hc, hx]

theorem State.entry?_resident {s : State} {slot id : Nat} {c : Crew} {x : Entry} (hc : s.crew? slot = some c)
    (hx : c.entry? id = some x) : s.entry? slot id = some x := by
  rw [State.entry?, State.owner?_resident hc hx]
  exact hx

theorem State.modOwner_resident {s : State} {slot id : Nat} {c : Crew} {x : Entry} (hc : s.crew? slot = some c)
    (hx : c.entry? id = some x) (f : Crew → Crew) : s.modOwner slot id f = s.setCrew slot (f c) := by
  simp [State.modOwner, hc, hx]

/-! ## Copies renewed by an acknowledgement (R280) -/

/-- The state differs from what it was in the L1 copies of cores and the sector copies of slices only. -/
structure CopiesMove (s t : State) : Prop where
  cores : ∀ k, t.core k = { s.core k with l1 := (t.core k).l1 }
  slices : ∀ k, t.slice k = { s.slice k with copies := (t.slice k).copies }
  rest : t = { s with cores := t.cores, slices := t.slices }

theorem CopiesMove.refl (s : State) : CopiesMove s s := ⟨fun _ => rfl, fun _ => rfl, rfl⟩

theorem CopiesMove.trans {s t u : State} (h : CopiesMove s t) (k : CopiesMove t u) : CopiesMove s u where
  cores n := by rw [k.cores n, h.cores n]
  slices n := by rw [k.slices n, h.slices n]
  rest := by rw [k.rest, h.rest]

theorem CopiesMove.modCore (s : State) (n : Nat) (l : List (Nat × LineCopy) → List (Nat × LineCopy)) :
    CopiesMove s (s.modCore n fun k => { k with l1 := l k.l1 }) where
  cores k := by
    rw [State.core_modCore]
    by_cases hk : k = n
    · subst hk; simp
    · simp [hk]
  slices _ := rfl
  rest := rfl

theorem CopiesMove.modSlice (s : State) (n : Nat) (l : List (Nat × LineCopy) → List (Nat × LineCopy)) :
    CopiesMove s (s.modSlice n fun v => { v with copies := l v.copies }) where
  cores _ := rfl
  slices k := by
    rw [State.slice_modSlice]
    by_cases hk : k = n
    · subst hk; simp
    · simp [hk]
  rest := rfl

theorem CopiesMove.crew? {s t : State} (h : CopiesMove s t) (n : Nat) : t.crew? n = s.crew? n := by rw [h.rest]; rfl

/-- The L1 copy of a written line at the acknowledgement of its write. -/
def State.refreshL1 (s : State) (core line wts : Nat) (data : List Byte) : State :=
  match Cells.find (s.core core).l1 line with
  | some cp =>
    if cp.wts < wts then
      s.modCore core fun k =>
        { k with l1 := if data.isEmpty then Cells.erase k.l1 line else Cells.put k.l1 line ⟨data, wts, wts⟩ }
    else s
  | none => s

/-- The sector copy of a written line at the acknowledgement of its write. -/
def State.refreshSector (s : State) (proxy line wts : Nat) : State :=
  match Cells.find (s.slice proxy).copies line with
  | some cp => if cp.wts < wts then s.modSlice proxy fun v => { v with copies := Cells.erase v.copies line } else s
  | none => s

theorem State.refreshCopies_eq (s : State) (core line wts : Nat) (data : List Byte) :
    s.refreshCopies core line wts data =
      (s.refreshL1 core line wts data).refreshSector (proxySlice core (s.homeSlice line)) line wts := rfl

theorem State.refreshL1_moves (s : State) (core line wts : Nat) (data : List Byte) :
    CopiesMove s (s.refreshL1 core line wts data) := by
  unfold State.refreshL1
  split
  · split
    · exact CopiesMove.modCore s core fun l => if data.isEmpty then Cells.erase l line else Cells.put l line ⟨data, wts, wts⟩
    · exact CopiesMove.refl s
  · exact CopiesMove.refl s

theorem State.refreshSector_moves (s : State) (proxy line wts : Nat) : CopiesMove s (s.refreshSector proxy line wts) := by
  unfold State.refreshSector
  split
  · split
    · exact CopiesMove.modSlice s proxy fun l => Cells.erase l line
    · exact CopiesMove.refl s
  · exact CopiesMove.refl s

theorem State.refreshCopies_moves (s : State) (core line wts : Nat) (data : List Byte) :
    CopiesMove s (s.refreshCopies core line wts data) :=
  (s.refreshL1_moves core line wts data).trans (State.refreshSector_moves _ _ line wts)

theorem State.refreshSector_core (s : State) (proxy line wts k : Nat) : (s.refreshSector proxy line wts).core k = s.core k := by
  unfold State.refreshSector
  split
  · split <;> rfl
  · rfl

/-- An L1 copy older than the write takes the line as the write left it, or goes where that is not known. -/
theorem State.refreshCopies_l1 {s : State} {core line : Nat} {cp : LineCopy} (h : Cells.find (s.core core).l1 line = some cp)
    (wts : Nat) (data : List Byte) :
    Cells.find ((s.refreshCopies core line wts data).core core).l1 line =
      if cp.wts < wts then (if data = [] then none else some ⟨data, wts, wts⟩) else some cp := by
  rw [State.refreshCopies_eq, State.refreshSector_core]
  by_cases hw : cp.wts < wts
  · by_cases hd : data = [] <;> simp [State.refreshL1, h, hw, hd]
  · simp [State.refreshL1, h, hw]

/-- The copies of the line that an acknowledged entry has written. -/
def State.renewed (s : State) (core wts : Nat) (x : Entry) : State :=
  if x.space = .global ∧ wts ≠ 0 then s.refreshCopies core x.line wts x.after else s

theorem State.renewed_moves (s : State) (core wts : Nat) (x : Entry) : CopiesMove s (s.renewed core wts x) := by
  unfold State.renewed
  split
  · exact s.refreshCopies_moves core x.line wts x.after
  · exact CopiesMove.refl s

/-- STORE_ACK of a resident crew's entry whose results are not under way. -/
theorem execStoreAck_resident {s : State} {id slot e wts : Nat} {c : Crew} {x : Entry}
    (hm : Cells.find s.msgs id = some (.ack slot e wts)) (hr : s.resultsPending e = false)
    (hc : s.crew? slot = some c) (hx : c.entry? e = some x) :
    execStoreAck id s = .next ((((s.dropMsg id).answered (coreOf slot) fun q => q.forEntry e).renewed (coreOf slot) wts x).setCrew
      slot (c.acked e wts)) := by
  have held : ((s.dropMsg id).answered (coreOf slot) fun q => q.forEntry e).crew? slot = some c := by
    rw [(State.answered_moves _ _ _).crew?]
    exact hc
  simp only [execStoreAck, hm, hr, State.entry?_resident held hx, Bool.false_eq_true, ↓reduceIte]
  rw [← State.renewed, State.modOwner_resident (((State.renewed_moves ..).crew? slot).trans held) hx]

theorem State.resultsPending_none {s : State} {e : Nat} (h : ∀ m ∈ s.msgs, ∀ k r f, m.2 ≠ .atomic k e r f) :
    s.resultsPending e = false := by
  rw [State.resultsPending, List.any_eq_false]
  intro m hm
  cases hk : m.2 with
  | atomic k e' r f =>
    have other : e' ≠ e := fun he => h m hm k r f (he ▸ hk)
    simpa using other
  | _ => simp

/-! ## Loads returning (R210, R211) -/

/-- Registers written one after another, none twice. -/
theorem Thread.get_puts (f : Nat → Word) (t : Thread) (n : Nat) (es : List Nat) (hd : es.Nodup) (h0 : ∀ e ∈ es, e ≠ 0) :
    let t' := (mapFrom (fun i e => (e, f i)) n es).foldl (fun (t : Thread) (p : Nat × Word) => t.put p.1 p.2) t
    (∀ e, e ∉ es → t'.get e = t.get e) ∧ ∀ i e, es[i]? = some e → t'.get e = f (n + i) := by
  induction es generalizing t n with
  | nil => simp [mapFrom]
  | cons a as ih =>
    obtain ⟨ha, has⟩ := List.nodup_cons.1 hd
    obtain ⟨others, written⟩ := ih (t.put a (f n)) (n + 1) has fun e he => h0 e (List.mem_cons_of_mem _ he)
    refine ⟨fun e he => ?_, fun i e hi => ?_⟩
    · rw [List.mem_cons, not_or] at he
      refine (others e he.2).trans ?_
      rw [Thread.get_put, if_neg he.1]
      split
      · next hz => rw [hz, Thread.get_zero]
      · rfl
    · cases i with
      | zero =>
        obtain rfl : a = e := by simpa using hi
        refine (others a ha).trans ?_
        rw [Thread.get_put, if_neg (h0 a List.mem_cons_self), if_pos rfl, Nat.add_zero]
      | succ i =>
        refine (written i e (by simpa using hi)).trans ?_
        rw [Nat.add_right_comm, Nat.add_assoc]

/-- A value of `n` bytes, zero- or sign-extended (R210). -/
def extended (signed : Bool) (n v : Nat) : Int :=
  if signed = true ∧ 2 ^ (8 * n - 1) ≤ v then (v : Int) - 2 ^ (8 * n) else v

/-- Reading a number of n bytes as signed extends its sign. -/
theorem extended_signed {n v : Nat} (h : v < 2 ^ (8 * n)) : (BitVec.ofNat (8 * n) v).toInt = extended true n v := by
  rw [BitVec.toInt_eq_toNat_cond, BitVec.toNat_ofNat, Nat.mod_eq_of_lt h, extended]
  cases n with
  | zero =>
    obtain rfl : v = 0 := by simpa using h
    rfl
  | succ n =>
    have double : 2 ^ (8 * (n + 1)) = 2 * 2 ^ (8 * (n + 1) - 1) := by
      rw [← Nat.pow_succ']
      rfl
    by_cases hv : 2 ^ (8 * (n + 1) - 1) ≤ v
    · rw [if_neg (by omega), if_pos ⟨rfl, hv⟩]
      norm_cast
    · rw [if_pos (by omega), if_neg (by simp [hv])]

/-- The words of a value of up to 128 bits. -/
theorem word_ofInt (v : Int) {i : Nat} (hi : i < 4) :
    (BitVec.ofInt 128 v).extractLsb' (32 * i) 32 = BitVec.ofInt 32 (v / 2 ^ (32 * i)) := by
  apply BitVec.eq_of_toNat_eq
  rw [BitVec.extractLsb'_toNat, BitVec.toNat_ofInt, BitVec.toNat_ofInt, Nat.shiftRight_eq_div_pow]
  have words : i = 0 ∨ i = 1 ∨ i = 2 ∨ i = 3 := by omega
  rcases words with rfl | rfl | rfl | rfl <;> simp only [Nat.reduceMul, Nat.reducePow] <;> omega

/-- What a read of so many bytes delivers to registers: each of them gets its word of the extended value. -/
theorem Crew.deliver_regs {c : Crew} {lane : Nat} {es : List Nat} (signed : Bool) (bytes : List Byte)
    (hl : lane < c.threads.length) (hd : es.Nodup) (h0 : ∀ e ∈ es, e ≠ 0) (h4 : es.length ≤ 4) :
    let c' := c.deliver lane (.regs es signed) bytes
    c' = { c with threads := c'.threads, utags := c'.utags } ∧ (∀ k, k ≠ lane → c'.thread k = c.thread k) ∧
      (∀ e, e ∉ es → (c'.thread lane).get e = (c.thread lane).get e) ∧
      ∀ i e, es[i]? = some e →
        (c'.thread lane).get e = BitVec.ofInt 32 (extended signed bytes.length (natOf bytes) / 2 ^ (32 * i)) := by
  let wide : BitVec 128 := if signed then BitVec.ofInt 128 (BitVec.ofNat (8 * bytes.length) (natOf bytes)).toInt
    else BitVec.ofNat 128 (natOf bytes)
  have value : wide = BitVec.ofInt 128 (extended signed bytes.length (natOf bytes)) := by
    have bound : natOf bytes < 2 ^ (8 * bytes.length) := by
      rw [Nat.pow_mul]
      exact natOf_lt bytes
    cases signed with
    | true => exact congrArg (BitVec.ofInt 128) (extended_signed bound)
    | false => simp [wide, extended]
  obtain ⟨others, written⟩ := Thread.get_puts (fun i => wide.extractLsb' (32 * i) 32) (c.thread lane) 0 es hd h0
  refine ⟨rfl, fun k hk => ?_, fun e he => ?_, fun i e hi => ?_⟩
  · exact (Crew.tagP_thread ..).trans ((Crew.thread_setThread c lane k _ hl).trans (if_neg hk))
  · rw [Crew.deliver, Crew.tagP_thread, Crew.thread_setThread c lane lane _ hl, if_pos rfl]
    exact others e he
  · have short : i < 4 := by
      have := (List.getElem?_eq_some_iff.1 hi).1
      omega
    rw [Crew.deliver, Crew.tagP_thread, Crew.thread_setThread c lane lane _ hl, if_pos rfl, ← word_ofInt _ short, ← value]
    exact (written i e hi).trans (by rw [Nat.zero_add])

/-- A lane's bytes, one by one: the crew's own store FIFO's, else the line's (R211). -/
theorem LaneLoad.bytes_eq {x : LaneLoad} (h : x.fwd.length = x.size) (data : List Byte) :
    x.bytes data = (List.range x.size).map fun j => (x.fwd.getD j none).getD (data.getD (x.addr % 128 + j) 0) := by
  refine List.ext_getElem (by simp [LaneLoad.bytes, h]) fun j hj _ => ?_
  have inside : j < x.fwd.length := by simpa [LaneLoad.bytes] using hj
  have read : (x.bytes data)[j] = (x.bytes data).getD j 0 := by
    rw [List.getD_eq_getElem?_getD, List.getElem?_eq_getElem hj, Option.getD_some]
  rw [read, LaneLoad.bytes, mapFrom_getD _ _ _ _ none _ inside, List.getElem_map, List.getElem_range, Nat.zero_add]
  cases x.fwd.getD j none <;> rfl

theorem LoadResult.clean {r : LoadResult} {lane : Nat} {data : List Byte}
    (h : r = .bytes data ∨ ∃ bad, r = .partly data bad ∧ lane ∉ bad) : r.fault lane = none ∧ r.data = data := by
  rcases h with rfl | ⟨bad, rfl, hb⟩
  · exact ⟨rfl, rfl⟩
  · exact ⟨by simp [LoadResult.fault, hb], rfl⟩

theorem LoadResult.faulty {r : LoadResult} {lane : Nat} {code : BitVec 8}
    (h : (r = .poison ∧ code = 0x12) ∨ (∃ data bad, r = .partly data bad ∧ lane ∈ bad ∧ code = 0x12) ∨
      (r = .linkdown ∧ code = 0x13) ∨ (r = .hostatom ∧ code = 0x14) ∨ (r = .remaplost ∧ code = 0x1E)) :
    r.fault lane = some code := by
  rcases h with ⟨rfl, rfl⟩ | ⟨data, bad, rfl, hb, rfl⟩ | ⟨rfl, rfl⟩ | ⟨rfl, rfl⟩ | ⟨rfl, rfl⟩
  case inr.inl => simp [LoadResult.fault, hb, codePoison]
  all_goals rfl

theorem LaneLoad.reads_of {x : LaneLoad} (h : ∃ j, j < x.fwd.length ∧ x.fwd[j]? = some none) : x.reads = true := by
  obtain ⟨j, -, hj⟩ := h
  exact List.any_eq_true.2 ⟨none, List.mem_of_getElem? hj, rfl⟩

/-- A lane whose read meets no fault takes its bytes. -/
theorem State.finishLane_data {s : State} {slot : Nat} {l : Load} {x : LaneLoad} {r : LoadResult}
    (hr : r.fault x.lane = none) (hw : x.watch = false) :
    s.finishLane slot l x r = s.modCrew slot fun c => c.deliver x.lane x.dest (x.bytes r.data) := by
  simp [State.finishLane, hr, hw]

/-- A lane whose read meets a fault brings it to its completion step. -/
theorem State.finishLane_stepFault {s : State} {slot id : Nat} {l : Load} {x : LaneLoad} {r : LoadResult} {code : BitVec 8}
    (hx : x.reads = true) (hr : r.fault x.lane = some code) (hd : x.dest = .step id) :
    s.finishLane slot l x r = s.modCrew slot fun c => c.stepGets id x.lane (.fault { code := code, addr := x.va }) := by
  simp [State.finishLane, hx, hr, hd]

/-- A lane whose read meets a fault, and no step waits for it, has it taken late (log 17). -/
theorem State.finishLane_fault {s : State} {slot : Nat} {l : Load} {x : LaneLoad} {r : LoadResult} {code : BitVec 8}
    (hx : x.reads = true) (hr : r.fault x.lane = some code) (hd : ∀ id, x.dest ≠ .step id) :
    s.finishLane slot l x r = s.lateFaults slot x.takers { code := code, addr := x.va } l.pc l.cycle := by
  simp only [State.finishLane, hx, hr, ↓reduceIte]

/-- LOAD_RESPONSE to a load of one lane. -/
theorem execLoadResponse_one {s : State} {id slot lid : Nat} {r : LoadResult} {c : Crew} {l : Load} {x : LaneLoad}
    (hm : Cells.find s.msgs id = some (.load slot lid r)) (hc : s.crew? slot = some c)
    (hl : c.loads.find? (fun y => y.id == lid) = some l) (hx : l.lanes = [x]) :
    execLoadResponse id s = .next (State.finishLane
      (((s.dropMsg id).answered (coreOf slot) fun q => q.forLoad slot lid).setCrew slot
        { c with loads := c.loads.filter fun y => y.id != lid }) slot l x r) := by
  have held : ((s.dropMsg id).answered (coreOf slot) fun q => q.forLoad slot lid).crew? slot = some c := by
    rw [(State.answered_moves _ _ _).crew?]
    exact hc
  simp only [execLoadResponse, hm, held, hl, hx, List.foldl_cons, List.foldl_nil]

/-! ## Mailboxes (R68, R227) -/

theorem Crew.mail_rest (c : Crew) (lane m : Nat) (v : Word) :
    c.mail lane m v = { c with threads := (c.mail lane m v).threads, utags := (c.mail lane m v).utags } := rfl

theorem Crew.mail_thread {c : Crew} {lane : Nat} (m : Nat) (v : Word) (h : lane < c.threads.length) (k : Nat) :
    (c.mail lane m v).thread k = if k = lane then (c.thread lane).put (8 + m) v else c.thread k := by
  rw [Crew.mail, Crew.tagP_thread, Crew.modThread, Crew.thread_setThread c lane k _ h]

/-- MAILBOX_DELIVERY of one lane's value: the acknowledgement follows what the delivery leaves. -/
theorem execMailboxDelivery_one {s : State} {id slot eid m : Nat} {c : Crew} {e : Entry} {i : Item}
    (hm : Cells.find s.msgs id = some (.mailbox slot eid)) (hc : s.crew? slot = some c) (he : c.entry? eid = some e)
    (ho : e.op = .rput m) (hi : e.items = [i]) :
    execMailboxDelivery id s =
      .next (((s.dropMsg id).deliverMail c.grid e.line m (i.data.setWidth 32)).post (.ack slot eid 0)) := by
  have owned : (s.dropMsg id).owner? slot eid = some c := State.owner?_resident hc he
  simp only [execMailboxDelivery, hm, owned, he, ho, hi, List.foldl_cons, List.foldl_nil]

/-- A delivery to a thread of a resident crew. -/
theorem State.deliverMail_resident {s : State} {grid : Word} {g dst lane : Nat} {d : Crew}
    (ht : s.threadOf grid g = some (dst, lane)) (hd : s.crew? dst = some d) (m : Nat) (v : Word) :
    s.deliverMail grid g m v =
      if (d.thread lane).st = .exited then { s with rm := { s.rm with dropped := s.rm.dropped + 1 } }
      else s.setCrew dst (d.mail lane m v) := by
  simp only [State.deliverMail, ht, hd]

/-! ## The obligation -/

/-- Each answer takes its request's copy, and does to its crew what it brings. -/
theorem responseSteps : Claim.ResponseSteps := by
  intro s id slot c hc
  refine ⟨fun core done => ?_, fun e wts x hm hx hr => ?_, fun lid r l x hm hl hx => ?_,
    fun eid e m i dst lane d hm he ho h8 hi ht hd hl => ?_⟩
  · have moved := s.answered_moves core done
    exact ⟨moved.cores, moved.slices, moved.rest, State.answered_idle done,
      fun q rest hq hd hcore hi hu => State.answered_next hq hd hcore hi hu⟩
  · let u := (s.dropMsg id).answered (coreOf slot) fun q => q.forEntry e
    let v := u.renewed (coreOf slot) wts x
    have asked : RequestsMove (s.dropMsg id) u := State.answered_moves _ _ _
    have renewed : CopiesMove u v := State.renewed_moves _ _ _ _
    refine ⟨v.setCrew slot (c.acked e wts), execStoreAck_resident hm (State.resultsPending_none hr) hc hx, ?_,
      renewed.cores, renewed.slices, fun sp a => ?_, fun cp hcp hg hw => ?_⟩
    · show OneCrew { u with cores := v.cores, slices := v.slices } _ slot (c.acked e wts)
      rw [← renewed.rest]
      exact OneCrew.setCrew v slot _
    · rw [State.byteAt_setCrew]
      refine State.byteAt_congr (fun k => ?_) (fun k => ?_) (fun k => ?_) ?_ sp a
      · rw [renewed.cores, asked.cores]; rfl
      · rw [renewed.cores, asked.cores]; rfl
      · rw [renewed.slices, asked.slices]; rfl
      · rw [renewed.rest, asked.rest]; rfl
    · have kept : (u.core (coreOf slot)).l1 = (s.core (coreOf slot)).l1 := by rw [asked.cores]; rfl
      have written : v = u.refreshCopies (coreOf slot) x.line wts x.after := if_pos ⟨hg, hw⟩
      show Cells.find (v.core (coreOf slot)).l1 x.line = _
      rw [written]
      exact State.refreshCopies_l1 (kept ▸ hcp) wts x.after
  · intro c1 u whole
    have responds : exec (.loadResponse id) s = .next ((u.setCrew slot c1).finishLane slot l x r) :=
      execLoadResponse_one hm hc hl hx
    refine ⟨fun data hdata hw hf => ?_, fun code hreads hcode => ?_⟩
    · obtain ⟨clean, carried⟩ := LoadResult.clean hdata
      have bytes : x.bytes data = whole data := by
        rw [LaneLoad.bytes_eq hf]
        refine List.map_congr_left fun j _ => ?_
        cases x.fwd.getD j none <;> rfl
      have size : (whole data).length = x.size := by simp [whole]
      rw [State.finishLane_data clean hw, State.modCrew_setCrew, carried, bytes] at responds
      refine ⟨fun es signed hdest hlane hes h0 h4 => ?_, fun n hn => ?_⟩
      · rw [hdest] at responds
        obtain ⟨rest, apart, others, written⟩ := Crew.deliver_regs (c := c1) signed (whole data) hlane hes h0 h4
        rw [size] at written
        exact ⟨_, responds, _, OneCrew.setCrew u slot _, rest, apart, others, written⟩
      · rw [hn] at responds
        exact ⟨_, responds, OneCrew.setCrew u slot _⟩
    · have reads := LaneLoad.reads_of hreads
      have fault := LoadResult.faulty hcode
      refine ⟨fun hn => ?_, fun n hn => ?_⟩
      · rw [responds, State.finishLane_fault reads fault hn]
      · rw [State.finishLane_stepFault reads fault hn, State.modCrew_setCrew] at responds
        exact ⟨_, responds, OneCrew.setCrew u slot _⟩
  · have responds := execMailboxDelivery_one hm hc he ho hi
    rw [State.deliverMail_resident (s := s.dropMsg id) ht hd] at responds
    refine ⟨fun hst => ?_, fun hst => ?_⟩
    · rw [if_neg hst] at responds
      have one := OneCrew.setCrew (s.dropMsg id) dst (d.mail lane m (i.data.setWidth 32))
      refine ⟨_, responds, d.mail lane m (i.data.setWidth 32), ⟨one.1, one.2.1, rfl⟩, (Cells.find_put ..).trans (if_pos rfl),
        fun r => ?_, fun k hk => ?_, d.mail_rest lane m _⟩
      · rw [Crew.mail_thread m _ hl, if_pos rfl, Thread.get_put]
        by_cases hr : r = 0
        · rw [if_pos hr, if_neg (by omega), hr, Thread.get_zero]
        · rw [if_neg hr]
      · rw [Crew.mail_thread m _ hl, if_neg hk]
    · rw [if_pos hst] at responds
      exact ⟨_, responds, rfl, rfl, (Cells.find_put ..).trans (if_pos rfl)⟩

/-- Settles O24: sending by the turn and the holds of an entry, and each answer by what it moves. -/
theorem storesAndResponses : Obligations.StoresAndResponses := ⟨storeSending, responseSteps⟩

end Sys2Proof.Machine
end
